-- ==== Sys2Proof/Word.lean ====
section
/-! DEFINITION. Words and index types of the EK4016 bridge, and the plainest arithmetic on the tally. -/

namespace Sys2Proof

abbrev Byte := BitVec 8
abbrev Dword := BitVec 32

/-- R10: the tally has 48 bits. -/
abbrev Tally := BitVec 48

/-- R1: hearths are numbered 0 to 15. -/
abbrev HearthId := Fin 16

/-- R175: functions 0 to 64. -/
abbrev FnId := Fin 65

/-- The switch ports of chapter 01: 0 to 15 hearths, 16 host, 17 Flue A, 18 Flue B, 19 hearthstone. -/
abbrev PortId := Fin 20

/-- R6: power domains D000 to D161. -/
abbrev DomainId := Fin 162

/-- R135: bellows lanes 0 to 31. -/
abbrev LaneId := Fin 32

/-- R10: the distance from `start` to `now`, modulo 2^48. -/
def ticksSince (now start : Tally) : Nat := (now - start).toNat

/-- The tick `n` ticks after `t`. -/
def tickPlus (t : Tally) (n : Nat) : Tally := t + BitVec.ofNat 48 n

/-- Counters the spec calls saturating: one more, but never above `top`. -/
def satInc (top n : Nat) : Nat := if n < top then n + 1 else top

end Sys2Proof
end

