-- ==== Sys2Proof/Syntax.lean ====
section
/-! DEFINITION. The commands of the bridge: one constructor of `Instr` for each row of spec/opcode_table.json, with the
operands a sender gives. The table gives no operands; each docstring says what the operands are. -/

namespace Sys2Proof

/-- R76, R78: the voltages at the balls of the six supplies that take part in the supply-valid event, in millivolts. -/
structure Volts where
  vcore : Nat
  vphy : Nat
  vphyh : Nat
  vflue : Nat
  vaux : Nat
  vstrap : Nat
  deriving DecidableEq, Repr

/-- R79: the three clocks that can drive the tally. -/
inductive ClockSource
  | refclk | flueA | flueB
  deriving DecidableEq, Repr

/-- R78, R79: the clock period in which each clock began to toggle, `none` for one that does not toggle, and the periods
counted with all six supplies valid. -/
structure Toggles where
  refclk : Option Nat
  flueA : Option Nat
  flueB : Option Nat
  periods : Nat
  deriving DecidableEq, Repr

/-- R1: Flue A and Flue B. -/
inductive FlueId
  | a | b
  deriving DecidableEq, Repr

/-- A block that arrives over a flue, and the position it comes from. -/
structure Sender where
  via : FlueId
  pos : Fin 4
  deriving DecidableEq, Repr

/-- R56: what the strap reader measures on one ball, in microvolts: the level at tick 199 of the check phase, and the 300
readings of the convert phase, one a tick. -/
structure Reading where
  checkUv : Nat
  convertUv : List Nat
  deriving DecidableEq, Repr

/-- R122: link rates. -/
inductive Rate
  | g2p5 | g5 | g8 | g16 | g32
  deriving DecidableEq, Repr

/-- R329, R332: what a test lane's receiver takes in, the first bit first. -/
structure LaneBits where
  lane : LaneId
  bits : List Bool
  deriving DecidableEq, Repr

/-- R139, R294: the bellows lanes on which a SKP ordered set or a filler block stands in one tick, those of them whose filler the
elastic buffer has inserted, and the blocks the elastic buffers of the two flues hold. -/
structure GapSet where
  lanes : BitVec 32
  inserted : BitVec 32
  heldA : Nat
  heldB : Nat
  deriving DecidableEq, Repr

/-- R125: what the host asks of the transmitter of one lane: a preset, or the magnitudes of its three coefficients. -/
inductive TxEq
  | preset (p : Fin 11)
  | coefficients (pre main post : Nat)
  deriving DecidableEq, Repr

/-- R271: completion status. -/
inductive CplStatus
  | sc | ur | crs | ca
  deriving DecidableEq, Repr

/-- R156: types of received TLPs. -/
inductive TlpKind
  | cfgRd0 | cfgWr0 | cfgRd1 | cfgWr1 | mRd | mWr | cpl | cplD | ioRd | ioWr | mRdLk | fetchAdd | swap | cas
  | pmeTurnOff | setSlotPowerLimit | vendor0 | vendor1 | otherMsg
  deriving DecidableEq, Repr

/-- A TLP from the host. `fn` is the target function of a configuration request or the function of a completion's
Requester ID; `addr` a byte address or a register offset; `be` one enable per byte (a missing one is 1); `malformed`
marks a TLP the PCI Express specification calls malformed for a reason other than R160; `hdr` its four header words. -/
structure Tlp where
  kind : TlpKind
  fn : Nat
  addr : Nat
  len : Nat
  be : List Bool
  data : List Byte
  tag : Nat
  status : CplStatus
  bus : Byte
  poisoned : Bool
  digest : Bool
  tlpPrefix : Bool
  malformed : Bool
  hdr : Vector Dword 4
  deriving DecidableEq, Repr

/-- A host memory request already matched to a BAR: offset, length in bytes, byte enables, payload, requester tag and
header words. -/
structure MemReq where
  off : Nat
  len : Nat
  be : List Bool
  data : List Byte
  tag : Nat
  poisoned : Bool
  hdr : Vector Dword 4
  deriving DecidableEq, Repr

/-- R154: the flow-control types whose credits the bridge returns. -/
inductive RxCredit
  | ph | pd | nph | npd
  deriving DecidableEq, Repr

/-- R155: the three credit classes of a received UpdateFC. -/
inductive CreditClass
  | posted | nonPosted | completion
  deriving DecidableEq, Repr

/-- R152, R155: the host's advertisement: the counts as its DLLPs carry them, `none` being infinite, and the scale code of
each (0 and 1 count single credits, 2 counts fours, 3 sixteens). -/
structure TxLimits where
  ph : Option Byte
  pd : Option (BitVec 12)
  nph : Option Byte
  npd : Option (BitVec 12)
  cplh : Option Byte
  cpld : Option (BitVec 12)
  phScale : Fin 4
  pdScale : Fin 4
  nphScale : Fin 4
  npdScale : Fin 4
  cplhScale : Fin 4
  cpldScale : Fin 4
  deriving DecidableEq, Repr

/-- R125, R152: what the host tells in training: its credits, what it asks of each lane's transmitter, and whether it asks for
precoding. -/
structure HostTerms where
  limits : TxLimits
  asked : List (Option TxEq)
  precode : Bool
  deriving DecidableEq, Repr

/-- R315: what starts a link reset. -/
inductive LinkResetCause
  | hotReset | linkDisable | dlDown
  deriving DecidableEq, Repr

/-- R183: PowerState of the PMCSR. -/
inductive PowerState
  | d0 | d1 | d2 | d3hot
  deriving DecidableEq, Repr

/-- R130: the L1 substate entered. -/
inductive L1Sub
  | l10 | l11 | l12
  deriving DecidableEq, Repr

/-- R27: the kinds of wake event: an address or data strobe of a hearth, an edge on HnBGNT_N, HnLOCK_N, HnIRQ or HnSLOAD_N,
an edge on one of the three slot inputs the island holds (R46), the host link, a flue, an alarm. -/
inductive WakeEvent
  | strobe (n : HearthId) | edge (n : HearthId) | slot (n : HearthId) | host | flue (f : FlueId) | alarm
  deriving DecidableEq, Repr

/-- R81: what changes at a slot in the aux-only state. -/
inductive SlotInput
  | presence (low : Bool) | press
  deriving DecidableEq, Repr

/-- R81: the slot of a hearth, and what changes at it. -/
structure SlotChange where
  n : HearthId
  what : SlotInput
  deriving DecidableEq, Repr

/-- R76: a bank of VHEARTH and its voltage in millivolts. -/
structure BankLevel where
  bank : Fin 14
  mv : Nat
  deriving DecidableEq, Repr

/-- R72, R212: the ticks an active-low input has been low since its last fall, and was high before that fall. -/
structure HeldTicks where
  low : Nat
  high : Nat
  deriving DecidableEq, Repr

/-- R137: the statistics of one frame: 64 edge bins, ones, zeros, bits after a one and the ones among them, bits after
a zero and the ones among them. -/
structure FrameStats where
  edges : List Nat
  ones : Nat
  zeros : Nat
  afterOne : Nat
  onesAfterOne : Nat
  afterZero : Nat
  onesAfterZero : Nat
  deriving DecidableEq, Repr

/-- R127: what a margin command asks the bridge to report. -/
inductive MarginAsk
  | timingSteps | maxTimingOffset | voltageSteps | maxVoltageOffset | independence | lanesAtOnce
  deriving DecidableEq, Repr

/-- R127, R142: a margin command: a report, or a step to a sampler offset with the errors the margin sampler counts
there. -/
inductive MarginCmd
  | report (ask : MarginAsk)
  | step (timing voltage : Int) (errors : Nat)
  deriving DecidableEq, Repr

/-- R199: what the bridge latches at a data-strobe fall with HnAS_N low. In split-strobe `rd` and `wr` are the two data
strobes; in combined-strobe exactly one of them is set, from HnRW. `be` has a 1 for each HnBE_N that is low; `lock` is
HnLOCK_N low. -/
structure Strobe where
  rd : Bool
  wr : Bool
  addr : BitVec 32
  be : BitVec 4
  data : BitVec 32
  lock : Bool
  deriving DecidableEq, Repr

/-- R208: the levels the bridge looks at to recognize a grant. -/
structure GrantLines where
  asHigh : Bool
  strobesHigh : Bool
  ackHigh : Bool
  berrHigh : Bool
  bgntLow : Bool
  deriving DecidableEq, Repr

/-- R255: switch classes, codes 0 to 3. -/
inductive Cls
  | posted | nonPosted | completion | interrupt
  deriving DecidableEq, Repr

/-- R271: access kinds, codes 0 to 6. -/
inductive AccKind
  | read | postedWrite | nonPostedWrite | lockedRead | lockedWrite | completion | irqChange
  deriving DecidableEq, Repr

/-- R292: an advertisement. `know` holds the sender's knowledge of links 0 to 3. -/
structure Adv where
  pos : Fin 4
  csize : Nat
  fwd : Bool
  hold : Bool
  clkHere : Bool
  hop : Fin 16
  xoff : BitVec 4
  know : Vector (Fin 4) 4
  deriving DecidableEq, Repr

/-- R291: why a received block is a link error. -/
inductive BlockFault
  | parity (lane : Fin 8) | frameBits | badType | reserved
  deriving DecidableEq, Repr

/-- R221, R279: the host request a forwarded piece is part of: its BAR-0 offset, its length, its first enabled byte, and whether
the piece is its first (entry 77: R290 gives no bits to this). -/
structure Whole where
  off : Nat
  len : Nat
  first : Option Nat
  lead : Bool
  deriving DecidableEq, Repr

/-- R290: a PIECE block with its data block; `bytes` are the enabled bytes by crossing address. For an interrupt change
`input` is the source, 8 for the slot-event source, and `code` the code that source records (entry 21: R290 gives bits to
neither). `whole` is the host request of a piece of one. -/
structure PieceBlk where
  cls : Cls
  srcPos : Fin 4
  dstPos : Fin 4
  locked : Bool
  srcPort : PortId
  kind : AccKind
  dstPort : PortId
  status : CplStatus
  key : BitVec 4
  tag : Nat
  addr : Nat
  bytes : List (Nat × Byte)
  num : BitVec 16
  input : Fin 9
  code : Nat
  whole : Option Whole
  deriving DecidableEq, Repr

/-- R300: a RECEIPT: counts of pieces accepted in each class (as the next expected numbers) and of posted pieces
performed without a gap. -/
structure Receipt where
  dst : Fin 4
  src : Fin 4
  accepted : Vector (BitVec 16) 4
  performed : BitVec 16
  deriving DecidableEq, Repr

/-- R300: a RECEIPT as it arrives over flue `via`. -/
structure ReceiptBlk where
  via : FlueId
  receipt : Receipt
  deriving DecidableEq, Repr

/-- R250: one source level: hearth, input 0 to 7 (8 is the slot-event source) and its routing entry. -/
structure LevelEntry where
  hearth : HearthId
  input : Fin 9
  entry : BitVec 8
  deriving DecidableEq, Repr

/-- R250, R288: the levels of a position, for the sinks of position `dst`. -/
structure LevelsBlk where
  dst : Fin 4
  levels : List LevelEntry
  deriving DecidableEq, Repr

/-- R306: function state of a member hearth. `flrs` counts the FLRs so far, so that a repeated block is told apart (entry 46); `d0`
says that the function is in D0 (R183, entry 28). -/
structure FuncMsg where
  hearth : HearthId
  flrs : BitVec 16
  bme : Bool
  mse : Bool
  d0 : Bool
  deriving DecidableEq, Repr

/-- R288, R306: function state on its way to position `dst`, arriving over flue `via`. -/
structure FuncBlk where
  via : FlueId
  dst : Fin 4
  msg : FuncMsg
  deriving DecidableEq, Repr

/-- The commands. -/
inductive Instr
  /-- the voltages at the balls, what the clocks have done, whether PERST_N is low in each of the periods counted, in order -/
  | supplyValidEvent (volts : Volts) (toggles : Toggles) (perst : List Bool)
  /-- the voltages at the balls -/
  | supplyInvalid (volts : Volts)
  /-- the voltages at the balls, the slot whose input changes -/
  | auxOnlyWake (volts : Volts) (change : SlotChange)
  | vhearthBankInvalid (level : BankLevel)
  | vhearthBankValid (level : BankLevel)
  /-- ticks PERST_N has been low -/
  | perstAssertion (held : Nat)
  /-- ticks PERST_N has been high -/
  | perstDeassertion (held : Nat)
  /-- one reading for each ball of the group that ends, in strap order; a ball without a reading is open -/
  | strapGroupEnd (readings : List Reading)
  | ledgerWindowStart
  | ledgerAdmission
  | domainWakeComplete (d : DomainId)
  | hearthstoneClearComplete
  | domainIdleExpiry (d : DomainId)
  | goingDownEnd (d : DomainId)
  | slotPowerEnable
  | gateOpen
  /-- host lanes that train, the highest rate they train at, lanes with inverted polarity, and what the host tells -/
  | linkTrainingComplete (lanes : BitVec 16) (rate : Rate) (inverted : BitVec 16) (terms : HostTerms)
  /-- rate, lane, and the edge histogram of 64 bins for each preset and CTLE, at index 16 * preset + ctle -/
  | equalizationPhase2 (rate : Rate) (lane : Fin 16) (edges : List (List Nat))
  /-- ticks with nothing to send -/
  | txL0sEntry (idle : Nat)
  /-- ticks the conditions have held -/
  | aspmL1Request (idle : Nat)
  /-- ticks to the next tally alarm -/
  | clkreqRelease (nextAlarm : Nat)
  | clkreqAssertOnWake (event : WakeEvent)
  | refclkStop
  | refclkReturn
  | bellowsFrameEnd (lane : LaneId) (stats : FrameStats)
  | acquireFrameEnd (lane : LaneId) (stats : FrameStats)
  /-- what the bellows lanes receive in this tick -/
  | bellowsGap (gaps : GapSet)
  | laneStarved (lane : LaneId)
  | tlpTransmit
  | ackReceived (seq : BitVec 12)
  | nakReceived (seq : BitVec 12)
  | replayTimerExpiry
  /-- sequence number, good LCRC, the TLP -/
  | tlpReceived (seq : BitVec 12) (lcrcOk : Bool) (tlp : Tlp)
  | dllpCrcError
  | updatefcSend (ty : RxCredit)
  | updatefcPeriodic
  | updatefcReceived (cls : CreditClass) (hdr : Byte) (dat : BitVec 12)
  /-- function, dword-aligned register offset, byte enables, data, bus number of the write, tag -/
  | configWrite (fn : FnId) (off : Fin 4096) (be : BitVec 4) (data : Dword) (bus : Byte) (tag : Nat)
  /-- chimney position whose report is read, which of its two slot-state dwords, tag -/
  | sootReportRead (pos : Fin 4) (half : Fin 2) (tag : Nat)
  | busMasterEnableClear (fn : FnId)
  | busMasterEnableSet (fn : FnId)
  | memorySpaceEnableWrite (fn : FnId) (value : Bool)
  | interruptDisableWrite (fn : FnId) (value : Bool)
  | powerStateWrite (fn : FnId) (state : PowerState)
  | ltrMechanismEnableWrite (fn : FnId) (value : Bool)
  | tenBitTagEnableWrite (fn : FnId) (value : Bool)
  | extendedTagEnableWrite (fn : FnId) (value : Bool)
  /-- hearth function 1 to 64, given as hearth number 16p + n -/
  | initiateFlr (h : Fin 64)
  | hearthResetRelease (n : HearthId)
  | flrComplete (h : Fin 64)
  | flrFunction0
  | flrFunction0Complete
  | linkReset (cause : LinkResetCause)
  | memoryReadBar0 (h : Fin 64) (req : MemReq)
  | memoryWriteBar0 (h : Fin 64) (req : MemReq)
  | memoryReadBar2 (req : MemReq)
  | memoryWriteBar2 (req : MemReq)
  /-- tag, status, poisoned, data, function of the Requester ID, header -/
  | completionReceived (tag : Nat) (status : CplStatus) (poisoned : Bool) (data : List Byte) (fn : Nat) (hdr : Vector Dword 4)
  | pmeTurnOff
  | setSlotPowerLimit (value : Byte)
  | vendorDefinedType1
  | completionTimeout (tag : Nat)
  | hostRequestDeadline (id : Nat)
  | hearthCycleStart (n : HearthId) (st : Strobe)
  | hearthCycleWithdraw (n : HearthId)
  | hearthStrobeRelease (n : HearthId)
  | waitAssert (n : HearthId)
  | busRequest (n : HearthId)
  | busGrant (n : HearthId) (lines : GrantLines)
  /-- HnACK_N low, HnBERR_N low, the data on HnD -/
  | targetResponse (n : HearthId) (ack : Bool) (berr : Bool) (data : BitVec 32)
  | grantWithdrawn (n : HearthId)
  | watchdogTargetResponse (n : HearthId)
  | watchdogStrobeRelease (n : HearthId)
  | watchdogGrant (n : HearthId)
  | watchdogMasterResponse (n : HearthId)
  | lockIdleExpiry (n : HearthId)
  | lockRelease (n : HearthId)
  /-- input, new level low, ticks it has held -/
  | irqInputChange (n : HearthId) (input : Fin 8) (low : Bool) (held : Nat)
  | sinkUpdate
  /-- the ticks of HnSLOAD_N, low ones from its last fall or from the rise of READY after it -/
  | reloadRequest (n : HearthId) (held : HeldTicks)
  | reloadSamplingStart (n : HearthId)
  | reloadDrainExpiry (n : HearthId)
  /-- the readings of group 17 + 2n, in strap order -/
  | reloadApply (n : HearthId) (readings : List Reading)
  | pgoodFall (n : HearthId)
  | pgoodRise (n : HearthId) (held : Nat)
  | presenceFall (n : HearthId) (held : Nat)
  | presenceRise (n : HearthId) (held : Nat)
  /-- the ticks of HnATTN_N -/
  | attnPress (n : HearthId) (held : HeldTicks)
  | drainWorkDone (n : HearthId)
  | drainExpiry (n : HearthId)
  | drainRemovable (n : HearthId)
  | resampleStart
  /-- the readings of group 17 + 2n, in strap order -/
  | resampleEnd (readings : List Reading)
  | indicatorBlink (n : HearthId)
  | switchGrant
  | sampleRecordSend
  | bankBeat
  /-- the flue, the block's fault if it has one, the block -/
  | pieceReceived (f : FlueId) (fault : Option BlockFault) (blk : PieceBlk)
  | xoffExit (f : FlueId) (cls : Cls)
  | receiptReceived (r : ReceiptBlk)
  | flowReceived (f : FlueId) (xoff : BitVec 4)
  /-- the flue and the source position, source port and crossing tag of the request backed off -/
  | backoffReceived (src : Sender) (port : PortId) (tag : Nat)
  /-- the flue and the source position, the block -/
  | levelsReceived (src : Sender) (blk : LevelsBlk)
  /-- the flue and the position, report number 0 to 3, dword offset, 14 dwords, last block of the pass -/
  | reportReceived (src : Sender) (report : Fin 4) (off : Nat) (dwords : List Dword) (last : Bool)
  | funcReceived (blk : FuncBlk)
  | trainReceived (f : FlueId)
  | flueTrainingComplete (f : FlueId) (adv : Adv)
  | flueDownTimeout (f : FlueId)
  | flueTrainingTimeout (f : FlueId)
  /-- the other flue's clock is toggling -/
  | clockInLost (f : FlueId) (otherToggles : Bool)
  /-- the flue whose clock returns, and its periods so far -/
  | clockReturn (f : FlueId) (periods : Nat)
  | reportSend
  | funcRepeat
  | flueHoldExpiry (id : Nat)
  | testInjection (lane : LaneId)
  /-- the bits received in SEEKING, the last of which locks -/
  | checkerLock (rx : LaneBits)
  /-- the bits received since lock or since the bits told last, to the end of the window -/
  | checkerWindowEnd (lane : LaneId) (bits : List Bool)
  /-- the bits received since lock or since the bits told last; bits received since the injection -/
  | selfCheckHoldEnd (lane : LaneId) (bits : List Bool) (received : Nat)
  /-- levels at the balls at Capture-DR, values shifted in for Update-DR -/
  | extest (levels : List Bool) (values : List Bool)
  | idcode
  | samplePreload (levels : List Bool) (values : List Bool)
  | clamp
  | highz
  | extestPulse (levels : List Bool) (values : List Bool)
  | extestTrain (levels : List Bool) (values : List Bool)
  | mirror
  | lanereport
  /-- the instruction code that selects BYPASS -/
  | bypass (code : BitVec 8)
  | testLogicReset
  /-- VAUX rises past its threshold -/
  | vauxValid
  | receiverError
  | marginCommand (lane : Fin 16) (cmd : MarginCmd)
  | l1Entry (sub : L1Sub)
  | l1Exit
  | receiveL0sChange (enter : Bool)
  | advertisementReceived (f : FlueId) (adv : Adv)
  | targetResponseRelease (n : HearthId)
  /-- ticks to the next tally alarm -/
  | clkreqAssertOnAlarm (nextAlarm : Nat)
  deriving DecidableEq, Repr

end Sys2Proof
end

