-- ==== Sys2Proof/Decode.lean ====
section
/-! DEFINITION. The commands that a word spells. The opcode table gives no row any bits, so no word spells a command. -/

namespace Sys2Proof

/-- The command spelled by a word of the table: none. -/
def decodeTableWord (_nbits _w : Nat) : Option Instr := none

end Sys2Proof
end

