-- ==== Sys2Proof/Config.lean ====
section
/-! DEFINITION. What the silicon fixes: ember costs, latencies, bounds and periods. The manual leaves no value to an
implementation (chapter 00); the free values are the DFE step
of a frame that R137 gives no fraction for and the delay of a far-end loop within its bounds. -/

namespace Sys2Proof.Config

/-- R137 states no step for a frame in which no bit follows a one, or none follows a zero: any step. -/
opaque freeDfeStep (afterOne onesAfterOne afterZero onesAfterZero : Nat) : Int

/-- R329: the delay of a far-end loop lies between 32 and 40 unit intervals; the spec states no more of it. -/
opaque freeLoopDelay (lane : Nat) : Nat

/-- R76: the thresholds of a supply in millivolts, rising and falling. -/
structure Threshold where
  rising : Nat
  falling : Nat
  deriving DecidableEq, Repr

def vcore : Threshold := { rising := 690, falling := 660 }
def vphy : Threshold := { rising := 830, falling := 790 }
def vphyh : Threshold := { rising := 1100, falling := 1060 }
def vflue : Threshold := { rising := 830, falling := 790 }
def vhearth : Threshold := { rising := 3040, falling := 2900 }
def vaux : Threshold := { rising := 3040, falling := 2900 }
def vstrap : Threshold := { rising := 1660, falling := 1580 }

/-- R56: readings of the convert phase. -/
def convertTicks : Nat := 300
/-- R11: ticks in a budget window. -/
def window : Nat := 1024
/-- R102: embers per S_BUDGET step. -/
def budgetStep : Nat := 51200
/-- R103, R105: the ledger opens this long after T_S. -/
def ledgerOpens : Nat := 2500
/-- R87: HnPWREN may rise, resamples begin, flues train. -/
def slotPowerTick : Nat := 120000
/-- R87: the gate. -/
def gateTick : Nat := 200000
/-- R61: ticks per strap group. -/
def groupTicks : Nat := 2500
/-- R91: ticks of a resample or of reload sampling (two groups). -/
def resampleTicks : Nat := 5000
/-- R78, R297: clock periods before the tally starts. -/
def startPeriods : Nat := 1000
/-- R83: ticks a PERST_N level must hold. -/
def perstFilter : Nat := 16
/-- R212: HnPGOOD rise. -/
def pgoodFilter : Nat := 1000
/-- R212: HnPRES_N fall, 2^20 ticks. -/
def presenceFilter : Nat := 1048576
/-- R212: HnPRES_N rise. -/
def removalFilter : Nat := 4
/-- R212: a press, and the release that re-arms it. -/
def pressFilter : Nat := 65536
/-- R10: ticks after which an event of the past is no longer told apart from older ones. -/
def longAgo : Nat := 2 ^ 46
/-- R72: HnSLOAD_N low, and high before a new reload. -/
def reloadFilter : Nat := 100
/-- R241: HnIRQ inputs. -/
def irqFilter : Nat := 4
/-- R88: ticks of a hearthstone clear. -/
def clearTicks : Nat := 4096
/-- R95: ticks of GOING_DOWN. -/
def goingDownTicks : Nat := 8
/-- R215: ticks from HnRSTO_N low to REMOVABLE. -/
def removeTicks : Nat := 1000
/-- R216: ticks after a release of HnRSTO_N before HnBREQ_N may fall. -/
def breqHoldoff : Nat := 1000
/-- R317, R318: ticks of a hearth function's FLR and of a hearth reset. -/
def flrTicks : Nat := 10000
/-- R319: ticks of an FLR of function 0. -/
def flr0Ticks : Nat := 1000
/-- R166: deadline of a host request to BAR-0. -/
def requestDeadline : Nat := 800000
/-- R152: the scale code the bridge advertises for every credit type. -/
def creditScale : Nat := 1
/-- R164: completion timeout. -/
def completionTimeout : Nat := 1000000
/-- R213: blink periods. -/
def blinkRemovable : Nat := 67108864
def blinkStrapFault : Nat := 16777216
/-- R125: full swing and low-frequency value of the transmitter, reported in Phase 1. -/
def fullSwing : Nat := 48
def lowFrequency : Nat := 16
/-- R128, R129: idle ticks before L0s and before an L1 request. -/
def l0sIdle : Nat := 200
def l1Idle : Nat := 1000
/-- R127: the N_FTS values of the five rates, from 2.5 GT/s. -/
def nFts (rate : Nat) : Nat :=
  match rate with
  | 0 => 64 | 1 => 96 | 2 => 64 | 3 => 128 | _ => 255
/-- R127: Lane Margining: steps and largest offsets (percent of a unit interval, and millivolts). -/
def marginTimingSteps : Nat := 16
def marginTimingMax : Nat := 25
def marginVoltageSteps : Nat := 30
def marginVoltageMax : Nat := 60
/-- R132: the nearest tally alarm that keeps the bridge from being quiescent. -/
def alarmHorizon : Nat := 100000
/-- R135: ticks a move may be pending before STARVED. -/
def starveTicks : Nat := 16384
/-- R148: replay buffer bounds. -/
def replayTlps : Nat := 256
def replayBytes : Nat := 40960
/-- R331, R332: bits a checker passes after a move, matches that lock it, bits of a window, mismatches that lose the lock, bits a
hold lasts after the compare, and bits after which it ends in any case. -/
def skipBits : Nat := 64
def lockBits : Nat := 256
def windowBits : Nat := 1024
def lossBits : Nat := 64
def holdBits : Nat := 1024
def holdLimit : Nat := 2 ^ 16
/-- R154: longest time between UpdateFCs in L0. -/
def fcPeriod : Nat := 3000
/-- R170: bounds of the host path. -/
def perHearthNp : Nat := 16
def poolNp : Nat := 64
def poolPerHearth : Nat := 4
def flueNp : Nat := 128
/-- R225: pieces in a hearth's buffers. -/
def bufferPieces : Nat := 32
/-- R234: crossing tags. -/
def crossingTags : Nat := 64
def crossingPerHearth : Nat := 4
/-- R208: cycles in one tenure. -/
def tenureCycles : Nat := 64
/-- R270: sampler records queued. -/
def sampleQueue : Nat := 16
/-- R298, R299: flue buffers, thresholds and send store in bytes, per class. -/
def flueBuffer : Nat := 49152
def xoffEnter : Nat := 24576
def xoffLeave : Nat := 32768
def sendStore : Nat := 49152
def blockBytes : Nat := 64
/-- R302: retraining and first training times. -/
def downTicks : Nat := 5000
def trainTicks : Nat := 100000
/-- R305, R306: period of REPORT passes and of FUNC repeats. -/
def reportPeriod : Nat := 10000
/-- R106: work costs. -/
def costHeader : Nat := 26
def costCrossing : Nat := 4
def costHandshake : Nat := 12
def costBeat : Nat := 2
def costFlueBlock : Nat := 4
def costTapMove : Nat := 2
def costResample : Nat := 138
/-- R108: the hearthstone clear. -/
def costClear : Nat := 12800
/-- R106: piece payload bound of R107. -/
def pieceBytes : Nat := 64

/-- R106: embers per wake. -/
def wakeCost (d : Nat) : Nat :=
  if d < 32 then 4000
  else if d < 68 then 2000
  else if d < 132 then
    match (d - 68) % 4 with
    | 0 => 1000
    | 1 => 1500
    | 2 => 400
    | _ => 600
  else if d < 140 then 300
  else if d < 156 then 800
  else 0

/-- R96: wake latency in ticks of a domain other than a host lane (whose latency R130 gives by link state). -/
def wakeLatency (d : Nat) : Nat :=
  if d < 32 then 4000
  else if d < 68 then 200
  else if d < 132 then
    match (d - 68) % 4 with
    | 0 => 100
    | 1 => 40
    | _ => 20
  else if d < 140 then 20
  else if d < 156 then 30
  else if d < 159 then 100
  else if d = 159 then 0
  else if d = 160 then 100
  else 50

/-- R96: idle period of the domains under the idle rule. -/
def idlePeriod (d : Nat) : Option Nat :=
  if d < 68 then none
  else if d < 132 then (if (d - 68) % 4 = 0 then none else some 1024)
  else if d < 140 then some 2048
  else if d < 156 then some 4096
  else if d = 161 then some 100
  else none

/-- R68: watchdog codes, in ticks. -/
def watchdogTicks (c : Nat) : Nat :=
  match c with
  | 0 => 100 | 1 => 200 | 2 => 500 | 3 => 1000 | 4 => 2000 | 5 => 5000 | 6 => 10000 | 7 => 20000 | 8 => 50000
  | 9 => 100000 | 10 => 200000 | 11 => 300000 | 12 => 400000 | 13 => 600000 | _ => 800000

/-- R342: idle power of a domain at 125 degrees, in milliwatts. -/
def idleMilliwatts (d : Nat) : Nat :=
  if d < 32 then 30
  else if d < 68 then 25
  else if d < 132 then
    match (d - 68) % 4 with
    | 0 => 5
    | 1 => 20
    | 2 => 8
    | _ => 10
  else if d < 140 then 40
  else if d < 156 then 60
  else match d with
    | 156 => 80 | 157 => 60 | 158 => 40 | 159 => 20 | 160 => 150 | _ => 50

/-- R342: the always-on island, in milliwatts. -/
def islandMilliwatts : Nat := 30

end Sys2Proof.Config
end

