-- ==== Sys2Proof/Machine/State.lean ====
section
/-! DEFINITION. The state of the bridge, as plain data, and the state right after reset. -/

namespace Sys2Proof.Machine

open Sys2Proof

/-- Reasons a step can stop with a fault. -/
inductive Fault
  /-- No command raises it: every address a command can reach is decoded first (R221, R227, R261). Safe. -/
  | noSuchAddress
  deriving DecidableEq, Repr

/-- Reasons a command can have no meaning. -/
inductive Refusal
  /-- Raised by an arm of `exec` whose command has no meaning yet; no arm does so now. Safe. -/
  | notModelled (mnemonic : String)
  deriving DecidableEq, Repr

/-- R6, R17: operating modes. -/
inductive Mode
  | m0 | m1 | m2 | m3 | m4 | m5 | m6 | m7
  deriving DecidableEq, Repr

/-- R58: strap status. -/
inductive BallStatus
  | valid | gap | driven | unassigned | conflict
  deriving DecidableEq, Repr

/-- R58, R75: one strap ball: reported code, its own status, and the status shown after the checks. -/
structure Ball where
  code : BitVec 4
  own : BallStatus
  shown : BallStatus
  deriving DecidableEq, Repr

/-- R95: domain states; `waking` and `goingDown` carry the tick that ends them, `on` the tick of the last use. -/
inductive DomState
  | off
  | retained
  | waking (done : Tally)
  | on (last : Tally)
  | goingDown (done : Tally)
  deriving DecidableEq, Repr

/-- R8, R10, R78, R133: the tally and its clock. `toggleA` and `toggleB` say whether the clock-in pairs of the flues
toggle (R79, R295). -/
structure Clock where
  tally : Tally
  counting : Bool
  stopped : Bool
  source : ClockSource
  tS : Tally
  live : Bool
  memberLost : Bool
  toggleA : Bool
  toggleB : Bool
  deriving DecidableEq, Repr

/-- The always-on island: supplies (R76), kept S_HAUX (R81), WAKE_N, clear mark (R88), filtered PERST_N (R83). -/
structure Island where
  vcore : Bool
  vphy : Bool
  vphyh : Bool
  vflue : Bool
  vaux : Bool
  vstrap : Bool
  banks : Vector Bool 14
  haux : Option (BitVec 4)
  wakeLow : Bool
  clearMark : Bool
  clearFrom : Option Tally
  perstLow : Bool
  deriving DecidableEq, Repr

/-- R91: what the strap reader is asked for, or samples, outside a full sequence; `half` says that the first of the two
groups has ended (R75). -/
structure ReadJob where
  hearth : HearthId
  isReload : Bool
  start : Tally
  half : Bool
  deriving DecidableEq, Repr

/-- The strap reader and the global part of the Strap Mirror (R61, R62, R75, R91). `seq` is the group being sampled;
`checkedOnce` that group 15 has ended since the supply-valid event (R314), `checked` that it has ended since T_S (R63).
`paid` is the tick from which the sampling that was asked for may begin, `free` the first tick in which the reader is free (R91). -/
structure Straps where
  globals : Vector Ball 180
  groupTally : Vector Tally 48
  lastGroup : Nat
  seq : Option Nat
  seqDone : Bool
  checkedOnce : Bool
  checked : Bool
  resampleQ : List HearthId
  asked : Option ReadJob
  paid : Option Tally
  free : Tally
  job : Option ReadJob
  deriving DecidableEq, Repr

/-- R66, R277: a hearthstone protection region. -/
structure Region where
  used : Bool
  base : Nat
  size : Nat
  colour : BitVec 4
  deriving DecidableEq, Repr

/-- The global settings in use (R65), each with its code-15 meaning where R64 says so. -/
structure GlobalCfg where
  hwid : Nat
  hrate : Rate
  sris : Bool
  haspm : Nat
  haux : BitVec 4
  budgetCode : BitVec 4
  fwd : Bool
  holdA : Bool
  holdB : Bool
  cpos : Fin 4
  csize : Nat
  fluesOk : Bool
  vid : BitVec 16
  did : BitVec 16
  svid : BitVec 16
  ssid : BitVec 16
  rid : Byte
  classCode : BitVec 24
  aperture : Option (Nat × Nat)
  ring : Option (Nat × Nat)
  ratio : Nat
  regions : Vector Region 32
  deriving DecidableEq, Repr

/-- R278: the hearthstone protection unit. -/
structure Prot where
  inService : Bool
  overlap : Bool
  badStrap : Bool
  pairLo : Nat
  pairHi : Nat
  deriving DecidableEq, Repr

/-- R116: the ledger's account state; HOLDING is OPEN with held items. -/
inductive LedgerSt
  | closed | opened | off
  deriving DecidableEq, Repr

/-- R119, R120: the fields of the Ember Report that are not counters of charges, as they stood at the end of the most
recent admission tick. `oldest` gives port, level, age in refills and cost of the oldest held item. -/
structure EmberShown where
  code : Nat
  budgetCode : BitVec 4
  held : Nat
  budget : Nat
  balance : Nat
  refills : Nat
  lowWindows : Nat
  oldest : Option (PortId × Nat × Nat × Nat)
  charged : Nat
  perPort : Vector Nat 20
  maxWindow : Nat
  deriving DecidableEq, Repr

/-- The account of chapter 05 and the counters of the Ember Report (R119). -/
structure Ledger where
  st : LedgerSt
  budget : Nat
  balance : Nat
  refills : Nat
  windows : Nat
  refillDue : Bool
  pointer : Fin 19
  charged : Nat
  perPort : Vector Nat 20
  windowSum : Nat
  maxWindow : Nat
  lowWindows : Nat
  lowSeen : Bool
  low : Bool
  lastLtr : Option (BitVec 16)
  ltrAsked : Bool
  ltrPending : Bool
  shown : EmberShown
  deriving DecidableEq, Repr

/-- R265: what a lock covers. -/
inductive LockScope
  | word (w : Nat)
  | bus (pos : Fin 4) (m : HearthId)
  deriving DecidableEq, Repr

/-- R247: a source change on its way to its sink. `slotCode` is the recorded code of a slot event (R251); `waitFor`
the posted writes it stays behind, `via` its source port on this bridge, `key` the key of its requester. -/
structure Change where
  hearth : HearthId
  pos : Fin 4
  input : Fin 9
  entry : BitVec 8
  slotCode : Option Nat
  level : Bool
  via : PortId
  key : BitVec 4
  waitFor : List Nat
  deriving DecidableEq, Repr

/-- Whose answer a piece carries or awaits, or the interrupt change it is. -/
inductive Origin
  | none
  | cycle (n : HearthId) (serial : Nat)
  | posted (n : HearthId) (serial : Nat)
  | host (id : Nat)
  | remote (pos : Fin 4) (port : PortId) (tag : Nat) (key : BitVec 4)
  | remotePosted (pos : Fin 4) (num : BitVec 16)
  | sample
  | change (c : Change)
  deriving DecidableEq, Repr

/-- A piece (R107, R254, R255). `addr` and the addresses of `bytes` are crossing addresses (R271); `errResp` and `ca`
are the error mode that governs it (R236); `wfn` is the window's function (R311); `far` is the final port at `dstPos`
and `reqPort` the requester's port at `srcPos` (R290); `readyAt` the first tick it may be offered (R97); `input` and `code`
the source of an interrupt change; `whole` is the host request a piece over a flue is part of (R279). -/
structure Piece where
  id : Nat
  cls : Cls
  kind : AccKind
  src : PortId
  dst : PortId
  srcPos : Fin 4
  dstPos : Fin 4
  key : BitVec 4
  addr : Nat
  bytes : List (Nat × Byte)
  tag : Nat
  status : CplStatus
  origin : Origin
  fn : FnId
  wfn : FnId
  errResp : Bool
  ca : Bool
  far : PortId
  reqPort : PortId
  readyAt : Tally
  input : Fin 9
  code : Nat
  whole : Option Whole
  deriving DecidableEq, Repr

/-- R243: interrupt sinks on this bridge. -/
inductive Sink
  | inta (fn : FnId)
  | irqo (m : HearthId) (l : Fin 4)
  deriving DecidableEq, Repr

/-- R244: one source whose asserted level has been applied to a sink; input 8 is the slot-event source (R251). -/
structure Src where
  pos : Fin 4
  hearth : HearthId
  input : Fin 9
  entry : BitVec 8
  sink : Sink
  deriving DecidableEq, Repr

/-- R157: TLPs the bridge sends. -/
inductive TxKind
  | mwr | mrd | flush | cpl | cplD | assertInta | deassertInta | pmPme | pmeToAck | ltr | errCor | errNonfatal | errFatal
  deriving DecidableEq, Repr

/-- A TLP at the host port (R157, R169). `hearth` is the chimney hearth number 16p + n of kind-0 work, `readyAt` the first tick
it may leave (R226). -/
structure TxTlp where
  id : Nat
  kind : TxKind
  fn : FnId
  addr : Nat
  bytes : List (Nat × Byte)
  len : Nat
  tag : Nat
  status : CplStatus
  value : BitVec 16
  origin : Origin
  hearth : Option (Fin 64)
  readyAt : Tally
  deriving DecidableEq, Repr

/-- What an admission item does once paid (R107). -/
inductive Work
  | laneWake
  | padWake (n : HearthId)
  | clear
  | resample (n : HearthId) (isReload : Bool)
  | piece (p : Piece)
  | change (c : Change)
  | message (t : TxTlp)
  deriving DecidableEq, Repr

/-- R109: the levels with held items. -/
inductive Level
  | service | host | hearth
  deriving DecidableEq, Repr

/-- R107, R109: an admission item. `path` are the domains it needs, `cost` its work cost, `heldAt` the refill count and
`heldTick` the tick when it was first held (R116). -/
structure Item where
  id : Nat
  port : PortId
  tick : Tally
  path : List DomainId
  cost : Nat
  work : Work
  heldAt : Option Nat
  heldTick : Tally
  deriving DecidableEq, Repr

/-- The queues of R109, and the admitted items that wait for a domain (R97). -/
structure Items where
  service : List Item
  host : List Item
  slots : Vector (List Item) 19
  admitted : List Item
  deriving DecidableEq, Repr

/-- R130, R138: host link states; Recovery lies between L1, or a retrain, and L0. -/
inductive LinkSt
  | off | detect | recovery | l0 | l1 (sub : L1Sub)
  deriving DecidableEq, Repr

/-- R125, R131: settings kept for a lane at one rate: what the bridge's own transmitter sends (`none` before the host has
asked), the preset asked of the host's, and the receiver's taps; `tracked` says that the lane has tracked with them. -/
structure Taps where
  tx : Option TxEq
  preset : Nat
  ctle : Nat
  phase : BitVec 6
  thr : Int
  dfe : Nat
  tracked : Bool
  deriving DecidableEq, Repr

/-- Chapter 06: the host link. `kept` holds, per lane and rate, the record of R131; `keeper` is the common-mode keeper of
R130, `margin` the margin command last answered on each lane (R142), `rxL0sFrom` the tick the receive direction entered
L0s (R128), `precoding` that the transmitter precodes at 32.0 GT/s (R125). -/
structure HostLink where
  st : LinkSt
  keeper : Bool
  width : Nat
  rate : Rate
  reversed : Bool
  inverted : BitVec 16
  txL0s : Bool
  rxL0s : Bool
  l1Asked : Bool
  clkreqReleased : Bool
  rxL0sFrom : Tally
  precoding : Bool
  fcTick : Tally
  kept : Vector (Vector (Option Taps) 5) 16
  margin : Vector (Option MarginCmd) 16
  deriving DecidableEq, Repr

/-- R148 to R151: the data link layer. `resend` are the TLPs a replay still has to send. -/
structure Dll where
  txSeq : BitVec 12
  rxSeq : BitVec 12
  replay : List (BitVec 12 × TxTlp)
  resend : List (BitVec 12 × TxTlp)
  replayNum : BitVec 2
  ackDue : Bool
  nakDue : Bool
  retrain : Bool
  deriving DecidableEq, Repr

/-- R155: credits consumed toward the host, cumulative, to the widest count a scale factor gives. -/
structure TxUsed where
  ph : BitVec 12
  pd : BitVec 16
  nph : BitVec 12
  npd : BitVec 16
  cplh : BitVec 12
  cpld : BitVec 16
  deriving DecidableEq, Repr

/-- R152 to R155: four credit counts of the receive side. -/
structure RxCounts where
  ph : Nat
  pd : Nat
  nph : Nat
  npd : Nat
  deriving DecidableEq, Repr

/-- R152 to R155: flow control. `taken` are credits occupied, `alloc` the cumulative count granted, `sent` the count in
the last UpdateFC. -/
structure Fc where
  taken : RxCounts
  alloc : RxCounts
  sent : RxCounts
  limits : TxLimits
  used : TxUsed
  deriving DecidableEq, Repr

/-- Where a host request stands (R153, R170, R174). -/
inductive ReqSt
  | held        -- R174, R216: not decoded yet
  | waiting     -- decoded, waits for the pool or the hearth's buffers
  | issued      -- presented to the ledger
  | answered    -- nothing more is sent for it
  deriving DecidableEq, Repr

/-- R221: one part of a request, with its window's far-side error mode. -/
structure ReqPart where
  off : Nat
  len : Nat
  errResp : Bool
  ca : Bool
  deriving DecidableEq, Repr

/-- A host request (R221 to R226, R261). `bytes` are the enabled bytes by offset; `got` the bytes read so far; `nextOff`
the offset from which completions are still owed; `left` the pieces not yet admitted, `open` those not yet finished. -/
structure HostReq where
  id : Nat
  fn : FnId
  stone : Bool
  read : Bool
  off : Nat
  len : Nat
  bytes : List (Nat × Byte)
  dataLen : Nat
  tag : Nat
  hdr : Vector Dword 4
  receipt : Tally
  wdStart : Tally
  st : ReqSt
  nonPosted : Bool
  pooled : Bool
  credits : Bool
  left : Nat
  openPieces : Nat
  nextOff : Nat
  got : List (Nat × Byte)
  parts : List ReqPart
  deriving DecidableEq, Repr

/-- R161, R163: a tag in flight. -/
structure HostTag where
  tag : Nat
  fn : FnId
  hearth : Option (Fin 64)
  origin : Origin
  flush : Bool
  addr : Nat
  len : Nat
  sent : Tally
  deriving DecidableEq, Repr

/-- R12, R177 to R186: the host-writable state of one function. `bar` holds the 64-bit BAR (BAR-0 with BAR-1, or BAR-2
with BAR-3 in function 0); `devctl` the writable bits of Device Control. `flrBar` is the BAR as the FLR under way found it (R317). -/
structure FnCfg where
  mse : Bool
  bme : Bool
  perr : Bool
  serr : Bool
  intd : Bool
  status : BitVec 16
  bar : BitVec 64
  devctl : BitVec 16
  devsta : BitVec 4
  tenBit : Bool
  ltr : Bool
  power : PowerState
  pmeEn : Bool
  pmeStatus : Bool
  uncSta : Dword
  uncMask : Dword
  uncSev : Dword
  corSta : Dword
  corMask : Dword
  hdrLog : Vector Dword 4
  firstErr : BitVec 5
  laneErr : BitVec 16
  bus : Byte
  flr : Option Tally
  flrBar : BitVec 64
  deriving DecidableEq, Repr

/-- R213: slot states, codes 0 to 9. -/
inductive Slot
  | empty | powering | sampling | ready | inService | draining | removable | collapsed | strapFault | parked
  deriving DecidableEq, Repr

/-- R69: an open downstream window. -/
structure DWin where
  off : Nat
  base : Nat
  size : Nat
  nonPosted : Bool
  dataInv : Bool
  errResp : Bool
  ca : Bool
  deriving DecidableEq, Repr

/-- R70: an open upstream window. -/
structure UWin where
  base : Nat
  size : Nat
  kind : Fin 4
  nonPosted : Bool
  errResp : Bool
  dataInv : Bool
  toff : Nat
  m : HearthId
  pos : Fin 4
  deriving DecidableEq, Repr

/-- R71: a decoded routing entry. -/
inductive Route
  | unused
  | inta (fn : FnId)
  | irqo (m : HearthId) (l : Fin 4)
  | remote (pos : Fin 4) (m : HearthId)
  deriving DecidableEq, Repr

/-- R68 to R71: the settings of one hearth in use. `ok` says that the five settings are VALID. -/
structure HearthCfg where
  ok : Bool
  lanes : Nat
  combined : Bool
  big : Bool
  hkey : BitVec 4
  ktag : BitVec 4
  wdog : Nat
  slotRoute : Bool
  dw : Vector (Option DWin) 4
  uw : Vector (Option UWin) 4
  irq : Vector Route 8
  entries : Vector (BitVec 8) 8
  deriving DecidableEq, Repr

/-- R199: responses of a target. -/
inductive Resp
  | ack | berr | damp
  deriving DecidableEq, Repr

/-- R231, R201: where an open machine cycle stands. -/
inductive Phase
  | blocked
  | paying
  | inFlight
  | driving                         -- read data driven, HnACK_N in the next tick
  | answered (r : Resp) (tick : Tally)
  deriving DecidableEq, Repr

/-- An open cycle of a hearth master that the bridge targets. `bytes` are the crossing bytes of its enabled lanes, `fetched`
the data of a hearthstone beat, available in the next tick (R262). -/
structure Cycle where
  serial : Nat
  arrival : Tally
  read : Bool
  addr : BitVec 32
  be : BitVec 4
  lockLow : Bool
  locked : Bool
  win : UWin
  bytes : List (Nat × Byte)
  rdata : BitVec 32
  fetched : Option (BitVec 32)
  phase : Phase
  captured : Bool
  deriving DecidableEq, Repr

/-- R223: one cycle the bridge makes as master; `lanes` gives (lane, crossing address) of each enabled byte. -/
structure TCycle where
  addr : BitVec 32
  be : BitVec 4
  data : BitVec 32
  lanes : List (Nat × Nat)
  deriving DecidableEq, Repr

/-- A piece on a hearth's bus or in its buffers (R223, R225). -/
structure Job where
  piece : Piece
  read : Bool
  cycles : List TCycle
  got : List (Nat × Byte)
  buffered : Bool
  started : Bool
  deriving DecidableEq, Repr

/-- R208, R211: the bridge as master on a hearth's bus. `strobe` is the fall of its data strobe in the open cycle;
`breqFrom` the tick from which HnBREQ_N may fall again, `breqHold` that this wait is the one of R216 or R318. -/
structure Bus where
  breqLow : Bool
  breqSince : Tally
  breqFrom : Option Tally
  breqHold : Bool
  granted : Bool
  grantGone : Bool
  count : Nat
  strobe : Option Tally
  waitRelease : Bool
  jobs : List Job
  deriving DecidableEq, Repr

/-- R210, R211, R265, R266: a lock; `last` is the tick of the last response, `none` before the first, `contested` that a host
or flue piece waits. -/
structure Lock where
  scope : LockScope
  last : Option Tally
  contested : Bool
  deriving DecidableEq, Repr

/-- R215: a drain; `rsto` is the tick HnRSTO_N went low. -/
structure Drain where
  press : Tally
  rsto : Option Tally
  deriving DecidableEq, Repr

/-- R210, R265, R266: a lock held over a flue on a hearth's bus of this bridge: its holder, the tick of its last cycle here,
and whether a host or flue piece waits. -/
structure FarLock where
  pos : Fin 4
  hearth : HearthId
  last : Tally
  contested : Bool
  deriving DecidableEq, Repr

/-- R72: a reload. -/
structure Reload where
  start : Tally
  sampling : Bool
  deriving DecidableEq, Repr

/-- One hearth port. `fell` says that a fall of HnPGOOD has been counted since STRAP_FAULT was entered (R214); `sloadLast`
and `attnLast` are the ticks of the last reload and of the last press counted (R72, R212); `waitNoClock` that HnWAIT_N went low for a
strobe while CLKREQ_N was released (R134); `blinkFrom` is the tick of entry to the slot state, or of the last change of HnIND (R213);
`farMasked` are the holders over a flue whose lock here has ended and who may not take it again before a piece of theirs that is
not locked (R266); `rising` is a response line driven high for the tick before its release (R195). -/
structure Hearth where
  slot : Slot
  balls : Vector Ball 69
  cfg : HearthCfg
  barCode : Nat
  barFallback : Bool
  reloads : BitVec 16
  presBall : Bool
  presLow : Bool
  pgoodBall : Bool
  pgood : Bool
  goodAtGroup : Bool
  goodNew : Bool
  fell : Bool
  sloadLast : Option Tally
  attnLast : Option Tally
  blinkFrom : Tally
  blinkOn : Bool
  cyc : Option Cycle
  strobeStuck : Bool
  waitLow : Bool
  waitNoClock : Bool
  rising : Option Resp
  ackLow : Bool
  berrLow : Bool
  dampLow : Bool
  hd : Option (BitVec 32)
  tapTill : Option Tally
  bus : Bus
  lock : Option Lock
  farLock : Option FarLock
  farMasked : List (Fin 4 × HearthId)
  lockLow : Bool
  lockMasked : Bool
  drain : Option Drain
  reload : Option Reload
  resetFrom : Option Tally
  irqLow : BitVec 8
  posted : List Nat
  deriving DecidableEq, Repr

/-- R254, R258: the switch: one queue per source, the piece each source offers, a rotation pointer per destination. -/
structure Switch where
  q : Vector (List Piece) 20
  offer : Vector (Option Nat) 20
  ptr : Vector HearthId 20
  deriving DecidableEq, Repr

/-- R262, R263: a piece in a bank slot; `beats` are the words still to be done, ascending. -/
structure SlotPiece where
  piece : Piece
  beats : List Nat
  got : List (Nat × Byte)
  begun : Bool
  deriving DecidableEq, Repr

/-- R263: one hearthstone bank. -/
structure Bank where
  ptr : Fin 17
  slots : Vector (Option SlotPiece) 17
  deriving DecidableEq, Repr

/-- R271: a sample record. -/
structure Record where
  seq : BitVec 32
  tally : Tally
  src : PortId
  dst : PortId
  cls : Cls
  srcPos : Fin 4
  dstPos : Fin 4
  len : Nat
  key : BitVec 4
  kind : AccKind
  skipped : Nat
  addr : Nat
  tag : Nat
  status : CplStatus
  bytes : List Byte
  deriving DecidableEq, Repr

/-- R269 to R272: the sampler. `counter` is C; `taken` says that a frame was captured in this tick. -/
structure Sampler where
  counter : Nat
  queue : List Record
  skipped : Nat
  taken : Bool
  deriving DecidableEq, Repr

/-- R191, R283: a fault entry. -/
structure FaultEntry where
  addr : Dword
  first : Nat
  second : Nat
  key : BitVec 4
  tag : BitVec 4
  port : PortId
  pos : Fin 4
  kind : AccKind
  downstream : Bool
  hearth : HearthId
  tally : Tally
  deriving DecidableEq, Repr

/-- R191, R192: the counters and fault entries of the Soot Report. -/
structure Soot where
  faults : Nat
  flueEvents : Nat
  next : Fin 16
  entries : Vector (Option FaultEntry) 16
  deriving DecidableEq, Repr

/-- R244 to R251: interrupts. `granted` are the changes the switch has passed to a sink of this bridge in this tick (R254); `wires` the INTA wires as the host has been told;
`slotEvents` the recorded codes of the slot-event sources that are set, by chimney hearth number (R251). -/
structure Irq where
  asserted : List Src
  granted : List Change
  wires : Vector Bool 65
  slotEvents : Vector (Option Nat) 64
  deriving DecidableEq, Repr

/-- R302: flue link states. -/
inductive FlueSt
  | disabled | detect | training | active | down | dead
  deriving DecidableEq, Repr

/-- R289: blocks a flue end has to send. -/
inductive FlueBlk
  | train
  | filler
  | flow (xoff : BitVec 4)
  | piece (p : PieceBlk)
  | receipt (r : Receipt)
  | backoff (pos : Fin 4) (port : PortId) (tag : Nat)
  | levels (src dst : Fin 4) (l : List LevelEntry)
  | report (report : Nat) (off : Nat) (dwords : List Dword)
  | func (dst : Fin 4) (m : FuncMsg)
  deriving DecidableEq, Repr

/-- R191, R298 to R307: one flue end. `tags` are the flue tags in use with their requests and final ports (R307), `out` the blocks
presented in this tick, `elastic` the blocks its elastic buffer holds (R294), `sinceFill` the blocks sent since the last FILLER
(R292). -/
structure Flue where
  st : FlueSt
  cause : Nat
  errLane : Nat
  retrains : Nat
  parity : Nat
  eventTick : Tally
  dropTick : Tally
  trainTick : Tally
  everActive : Bool
  far : Option Adv
  farXoff : BitVec 4
  xoff : BitVec 4
  tags : List (Nat × Origin × PortId)
  out : List FlueBlk
  elastic : Nat
  sinceFill : Nat
  deriving DecidableEq, Repr

/-- R299: a piece in the send store. `due` says that it has still to leave over `via`, `sent` that it has left once (R301). -/
structure Stored where
  dst : Fin 4
  num : BitVec 16
  via : FlueId
  piece : Piece
  due : Bool
  sent : Bool
  deriving DecidableEq, Repr

/-- R193: a member's reports as position 0 holds them: dwords by (report, dword offset), and whether they are current.
`pass` counts the blocks of the present pass that have arrived without a gap since the path returned. -/
structure ReportCopy where
  dwords : List (Nat × Dword)
  pass : Option Nat
  current : Bool
  faults : Nat
  events : Nat
  deriving DecidableEq, Repr

/-- R299 to R307: chimney traffic. Tables of 16 are indexed 4 * position + class code. `held` are arrivals for a hearth
that is being re-read (R284), `owed` the control blocks that wait for a path to the position they are for (R300, R308). -/
structure Chimney where
  store : List Stored
  nextNum : Vector (BitVec 16) 16
  expect : Vector (BitVec 16) 16
  performed : Vector (BitVec 16) 4
  doneEarly : List (Fin 4 × BitVec 16)
  unperformed : List (Fin 4 × BitVec 16 × HearthId × Nat)
  via : Vector (Option FlueId) 4
  copies : Vector ReportCopy 4
  memberBme : BitVec 16
  memberMse : BitVec 16
  memberD0 : BitVec 16
  memberFlrs : Vector (BitVec 16) 16
  funcs : Vector FuncMsg 64
  held : List (FlueId × PieceBlk)
  owed : List (Fin 4 × FlueBlk)
  reportTick : Tally
  funcTick : Tally
  deriving DecidableEq, Repr

/-- R135: bellows lane states, codes 0 to 4. -/
inductive LaneSt
  | off | acquiring | tracking | pinned | starved
  deriving DecidableEq, Repr

/-- R135 to R145: one bellows lane. A target of `none` calls for no move; `pinned` says that the last frame's threshold
or DFE target lay beyond its range, `quiet` counts acquisition frames without a move, `restored` says that the taps are
those the lane has tracked with at this rate (R131). -/
structure Lane where
  st : LaneSt
  phase : BitVec 6
  phaseT : BitVec 6
  phaseDue : Bool
  thr : Int
  thrT : Option Int
  dfe : Nat
  dfeT : Option Nat
  ctle : Nat
  pendingFrom : Option Tally
  quiet : Nat
  pinned : Bool
  restored : Bool
  moves : BitVec 32
  lastMove : Tally
  deferred : Nat
  deriving DecidableEq, Repr

/-- R332: checker states, codes 0 to 3. -/
inductive CheckSt
  | off | waiting | seeking | locked
  deriving DecidableEq, Repr

/-- R331: an injection of a self-checking lane that still holds its moves: the generator's state at its first injected bit, and the
bits received since the checker, LOCKED, compared the bit after the last injected one. -/
structure Hold where
  state : List Bool
  after : Option Nat
  deriving DecidableEq, Repr

/-- R325 to R334: one test lane; codes as strapped. `since` is E. `reg` is the checker's register, the latest bit first, `matched`
the matches in a row while SEEKING, `skip` the bits after a move still to pass uncompared (R331), `inWindow` and `wrong` the bits
compared in the present window and the mismatches among them, `taken` the bits a looped stream has given since E. -/
structure TestLane where
  valid : Bool
  pattern : Nat
  loop : Nat
  period : Nat
  burst : Nat
  since : Option Tally
  checker : CheckSt
  losses : Nat
  compared : Nat
  errors : Nat
  injected : Nat
  reg : List Bool
  matched : Nat
  skip : Nat
  inWindow : Nat
  wrong : Nat
  taken : Nat
  holds : List Hold
  deriving DecidableEq, Repr

/-- R336: boundary-scan instructions. -/
inductive TapInstr
  | extest | idcode | samplePreload | clamp | highz | extestPulse | extestTrain | mirror | lanereport | bypass
  deriving DecidableEq, Repr

/-- R336 to R339: the TAP: the 8-bit instruction register, what it captured when it was last scanned, the instruction, the data
register captured, the update register. -/
structure Tap where
  ir : BitVec 8
  irCap : BitVec 8
  instr : TapInstr
  dr : List Bool
  upd : List Bool
  deriving DecidableEq, Repr

/-- The whole bridge, and the queue of commands that wait. `wake` says that a wake event is pending (R26), `upNow` gives the
domains whose wake ended in this tick (R97). -/
structure State where
  pending : List Instr
  nextId : Nat
  wake : Bool
  upNow : List DomainId
  clk : Clock
  island : Island
  straps : Straps
  mode : Mode
  strapMode : Mode
  slotPower : Bool
  gate : Bool
  readyOnce : Bool
  cfg : GlobalCfg
  prot : Prot
  doms : Vector DomState 162
  ledger : Ledger
  items : Items
  link : HostLink
  dll : Dll
  fc : Fc
  txq : List TxTlp
  reqs : List HostReq
  tags : List HostTag
  fns : Vector FnCfg 65
  hearths : Vector Hearth 16
  sw : Switch
  stone : List Host.Cell
  banks : Vector Bank 16
  lockEnds : List LockScope
  xtags : List (Nat × HearthId)
  sampler : Sampler
  soot : Soot
  irq : Irq
  flueA : Flue
  flueB : Flue
  chim : Chimney
  lanes : Vector Lane 32
  tapMoves : BitVec 32
  tests : Vector TestLane 32
  testSeen : Bool
  tap : Tap
  faultPrev : Bool
  deriving DecidableEq, Repr

/-! ### Values at reset -/

/-- Chapter 03, corners: before the first sequence a ball shows code 15 with status VALID. -/
def Ball.reset : Ball := { code := 15, own := .valid, shown := .valid }

def Region.reset : Region := { used := false, base := 0, size := 0, colour := 0 }

/-- The code-15 meanings of R65. -/
def GlobalCfg.reset : GlobalCfg :=
  { hwid := 16, hrate := .g32, sris := false, haspm := 5, haux := 15, budgetCode := 15, fwd := false, holdA := true,
    holdB := true, cpos := 0, csize := 2, fluesOk := false, vid := 0x1C7E, did := 0x4016, svid := 0x1C7E,
    ssid := 0x4016, rid := 0x01, classCode := 0x068000, aperture := none, ring := none, ratio := 15,
    regions := Vector.replicate 32 Region.reset }

def EmberShown.reset : EmberShown :=
  { code := 0, budgetCode := 15, held := 0, budget := 0, balance := 0, refills := 0, lowWindows := 0, oldest := none,
    charged := 0, perPort := Vector.replicate 20 0, maxWindow := 0 }

def Ledger.reset : Ledger :=
  { st := .closed, budget := 0, balance := 0, refills := 0, windows := 0, refillDue := false, pointer := 0,
    charged := 0, perPort := Vector.replicate 20 0, windowSum := 0, maxWindow := 0, lowWindows := 0, lowSeen := false,
    low := false, lastLtr := none, ltrAsked := false, ltrPending := false, shown := EmberShown.reset }

def Items.reset : Items :=
  { service := [], host := [], slots := Vector.replicate 19 [], admitted := [] }

def HostLink.reset : HostLink :=
  { st := .off, keeper := false, width := 0, rate := .g2p5, reversed := false, inverted := 0, txL0s := false, rxL0s := false,
    l1Asked := false, clkreqReleased := false, rxL0sFrom := 0, precoding := false, fcTick := 0, kept := Vector.replicate 16 (Vector.replicate 5 none),
    margin := Vector.replicate 16 none }

def Dll.reset : Dll :=
  { txSeq := 0, rxSeq := 0, replay := [], resend := [], replayNum := 0, ackDue := false, nakDue := false,
    retrain := false }

/-- R152: the advertised initial credits. -/
def RxCounts.initial : RxCounts := { ph := 64, pd := 1024, nph := 64, npd := 64 }
def RxCounts.zero : RxCounts := { ph := 0, pd := 0, nph := 0, npd := 0 }

def TxLimits.zero : TxLimits :=
  { ph := some 0, pd := some 0, nph := some 0, npd := some 0, cplh := some 0, cpld := some 0,
    phScale := 1, pdScale := 1, nphScale := 1, npdScale := 1, cplhScale := 1, cpldScale := 1 }
def TxUsed.zero : TxUsed := { ph := 0, pd := 0, nph := 0, npd := 0, cplh := 0, cpld := 0 }

def Fc.reset : Fc :=
  { taken := RxCounts.zero, alloc := RxCounts.initial, sent := RxCounts.initial, limits := TxLimits.zero, used := TxUsed.zero }

/-- R310: the severity bits that are fatal by default: Data Link Protocol Error, Flow Control Protocol Error, Receiver
Overflow, Malformed TLP. -/
def aerSevReset : Dword := 0x00062010

/-- R310: Advisory Non-Fatal and Corrected Internal Error are masked by default. -/
def aerCorMaskReset : Dword := 0x00006000

/-- R146: the reset value of Device Control, PCI Express defaults (PRESUMED, entry 9): Max_Read_Request_Size 512 B,
Enable Relaxed Ordering and Enable No Snoop 1, the rest 0. -/
def devctlReset : BitVec 16 := 0x2810

def FnCfg.reset : FnCfg :=
  { mse := false, bme := false, perr := false, serr := false, intd := false, status := 0, bar := 0,
    devctl := devctlReset, devsta := 0, tenBit := false, ltr := false, power := .d0, pmeEn := false,
    pmeStatus := false, uncSta := 0, uncMask := 0, uncSev := aerSevReset, corSta := 0, corMask := aerCorMaskReset,
    hdrLog := Vector.replicate 4 0, firstErr := 0, laneErr := 0, bus := 0, flr := none, flrBar := 0 }

def HearthCfg.reset : HearthCfg :=
  { ok := false, lanes := 1, combined := false, big := false, hkey := 0, ktag := 0, wdog := 800000,
    slotRoute := false, dw := Vector.replicate 4 none, uw := Vector.replicate 4 none,
    irq := Vector.replicate 8 .unused, entries := Vector.replicate 8 255 }

def Bus.reset : Bus :=
  { breqLow := false, breqSince := 0, breqFrom := none, breqHold := false, granted := false, grantGone := false, count := 0,
    strobe := none, waitRelease := false, jobs := [] }

/-- R213: at each supply-valid event every hearth is PARKED. -/
def Hearth.reset : Hearth :=
  { slot := .parked, balls := Vector.replicate 69 Ball.reset, cfg := HearthCfg.reset, barCode := 0,
    barFallback := true, reloads := 0, presBall := false, presLow := false, pgoodBall := false, pgood := false,
    goodAtGroup := false, goodNew := false, fell := false, sloadLast := none, attnLast := none, blinkFrom := 0,
    blinkOn := false, cyc := none, strobeStuck := false, waitLow := false, waitNoClock := false, rising := none, ackLow := false, berrLow := false,
    dampLow := false, hd := none, tapTill := none, bus := Bus.reset, lock := none, farLock := none, farMasked := [], lockLow := false,
    lockMasked := false, drain := none, reload := none, resetFrom := none, irqLow := 0, posted := [] }

def Switch.reset : Switch :=
  { q := Vector.replicate 20 [], offer := Vector.replicate 20 none, ptr := Vector.replicate 20 0 }

def Bank.reset : Bank := { ptr := 0, slots := Vector.replicate 17 none }

def Sampler.reset : Sampler := { counter := 0, queue := [], skipped := 0, taken := false }

def Soot.reset : Soot := { faults := 0, flueEvents := 0, next := 0, entries := Vector.replicate 16 none }

def Irq.reset : Irq :=
  { asserted := [], granted := [], wires := Vector.replicate 65 false, slotEvents := Vector.replicate 64 none }

def Flue.reset : Flue :=
  { st := .disabled, cause := 0, errLane := 255, retrains := 0, parity := 0, eventTick := 0, dropTick := 0,
    trainTick := 0, everActive := false, far := none, farXoff := 0, xoff := 0,
    tags := [], out := [], elastic := 8, sinceFill := 0 }

def ReportCopy.reset : ReportCopy := { dwords := [], pass := none, current := false, faults := 0, events := 0 }

def FuncMsg.reset : FuncMsg := { hearth := 0, flrs := 0, bme := false, mse := false, d0 := true }

def Chimney.reset : Chimney :=
  { store := [], nextNum := Vector.replicate 16 0, expect := Vector.replicate 16 0, performed := Vector.replicate 4 0,
    doneEarly := [], unperformed := [], via := Vector.replicate 4 none, copies := Vector.replicate 4 ReportCopy.reset,
    memberBme := 0, memberMse := 0, memberD0 := 0xFFFF, memberFlrs := Vector.replicate 16 0, funcs := Vector.replicate 64 FuncMsg.reset,
    held := [], owed := [], reportTick := 0, funcTick := 0 }

def Lane.reset : Lane :=
  { st := .off, phase := 0, phaseT := 0, phaseDue := false, thr := 0, thrT := none, dfe := 0, dfeT := none,
    ctle := 4, pendingFrom := none, quiet := 0, pinned := false, restored := false, moves := 0, lastMove := 0, deferred := 0 }

def TestLane.reset : TestLane :=
  { valid := false, pattern := 0, loop := 0, period := 15, burst := 1, since := none, checker := .off, losses := 0,
    compared := 0, errors := 0, injected := 0, reg := [], matched := 0, skip := 0, inWindow := 0, wrong := 0, taken := 0,
    holds := [] }

/-- R336: IDCODE is selected at Test-Logic-Reset. -/
def Tap.reset : Tap := { ir := 0x01, irCap := 0x01, instr := .idcode, dr := [], upd := [] }

/-- R87, R315: at the first T_S after a cold reset the ledger D159 and the strap reader D161 are ON, and D158 with the sticky fields. -/
def domsAtTS (tS : Tally) : Vector DomState 162 :=
  (((Vector.replicate 162 DomState.off).set 158 (.on tS)).set 159 (.on tS)).set 161 (.on tS)

/-- The bridge right after reset: the supply-valid event at tally 0, REFCLK in use, PERST_N filtered high (R78, R84,
R87, R213). The choices are entries 2, 3, 5, 7 and 8 of the assumption log. -/
def State.reset : State :=
  { pending := [], nextId := 0, wake := false, upNow := [],
    clk := { tally := 0, counting := true, stopped := false, source := .refclk, tS := 0, live := true,
             memberLost := false, toggleA := false, toggleB := false },
    island := { vcore := true, vphy := true, vphyh := true, vflue := true, vaux := true, vstrap := true,
                banks := Vector.replicate 14 true, haux := none, wakeLow := false, clearMark := true,
                clearFrom := none, perstLow := false },
    straps := { globals := Vector.replicate 180 Ball.reset, groupTally := Vector.replicate 48 0, lastGroup := 0,
                seq := some 0, seqDone := false, checkedOnce := false, checked := false, resampleQ := [],
                asked := none, paid := none, free := 0, job := none },
    mode := .m7, strapMode := .m7, slotPower := false, gate := false, readyOnce := false, cfg := GlobalCfg.reset,
    prot := { inService := false, overlap := false, badStrap := false, pairLo := 0, pairHi := 0 },
    doms := domsAtTS 0, ledger := Ledger.reset, items := Items.reset, link := HostLink.reset, dll := Dll.reset,
    fc := Fc.reset, txq := [], reqs := [], tags := [], fns := Vector.replicate 65 FnCfg.reset,
    hearths := Vector.replicate 16 Hearth.reset, sw := Switch.reset, stone := [], banks := Vector.replicate 16 Bank.reset,
    lockEnds := [], xtags := [], sampler := Sampler.reset, soot := Soot.reset, irq := Irq.reset, flueA := Flue.reset,
    flueB := Flue.reset, chim := Chimney.reset, lanes := Vector.replicate 32 Lane.reset, tapMoves := 0,
    tests := Vector.replicate 32 TestLane.reset, testSeen := false, tap := Tap.reset, faultPrev := false }

end Sys2Proof.Machine
end

