-- ==== Sys2Proof/Machine/Ops.lean ====
section
/-! DEFINITION. The named operations over the state: tables, time, domains, presentation of items, levels of the balls
that follow from the state, and the byte memory of the hearthstone. -/

namespace Sys2Proof.Machine

open Sys2Proof

/-! ### Tables -/

/-- Entry `i` of a table. -/
def vget {α : Type} {k : Nat} (v : Vector α k) (i : Fin k) : α := v[i.val]

/-- The table with entry `i` replaced. -/
def vset {α : Type} {k : Nat} (v : Vector α k) (i : Fin k) (x : α) : Vector α k := v.set i.val x i.isLt

/-- The table with entry `i` changed by `f`. -/
def vmod {α : Type} {k : Nat} (v : Vector α k) (i : Fin k) (f : α → α) : Vector α k := vset v i (f (vget v i))

/-- Every entry changed by `f`. -/
def vmap {α β : Type} {k : Nat} (f : Fin k → α → β) (v : Vector α k) : Vector β k := Vector.ofFn fun i => f i (vget v i)

/-- The hearths in ascending order. -/
def allHearths : List HearthId := [0, 1, 2, 3, 4, 5, 6, 7, 8, 9, 10, 11, 12, 13, 14, 15]

/-- `f` done for each hearth, ascending. -/
def forHearths (f : HearthId → State → State) (s : State) : State := allHearths.foldl (fun s n => f n s) s

/-- `f` done for each element of a list, in order. -/
def forList {α : Type} (l : List α) (f : α → State → State) (s : State) : State := l.foldl (fun s x => f x s) s

/-! ### Time -/

/-- R8: the current tick. -/
def State.now (s : State) : Tally := s.clk.tally

/-- Ticks since T_S. -/
def State.sinceTS (s : State) : Nat := ticksSince s.clk.tally s.clk.tS

/-- Ticks since tick `t`. -/
def State.since (s : State) (t : Tally) : Nat := ticksSince s.clk.tally t

/-- R10: tick `t` has been reached (a future tick is more than 2^47 ticks back, modulo 2^48). -/
def State.reached (s : State) (t : Tally) : Bool := decide (s.since t < 2 ^ 47)

/-- R10: a tick of the past, followed so that it never comes to lie 2^47 ticks back. -/
def followTick (now e : Tally) : Tally :=
  if Config.longAgo ≤ ticksSince now e then tickPlus now (2 ^ 48 - Config.longAgo) else e

/-- R78, R133, R297: ticks pass. -/
def State.running (s : State) : Bool := s.clk.counting && !s.clk.stopped && !s.clk.memberLost

/-! ### Parts of the state -/

def State.hearth (s : State) (n : HearthId) : Hearth := vget s.hearths n
def State.setHearth (s : State) (n : HearthId) (h : Hearth) : State := { s with hearths := vset s.hearths n h }
def State.modHearth (s : State) (n : HearthId) (f : Hearth → Hearth) : State := s.setHearth n (f (s.hearth n))
def State.fn (s : State) (f : FnId) : FnCfg := vget s.fns f
def State.modFn (s : State) (f : FnId) (g : FnCfg → FnCfg) : State := { s with fns := vset s.fns f (g (s.fn f)) }
def State.dom (s : State) (d : DomainId) : DomState := vget s.doms d
def State.setDom (s : State) (d : DomainId) (x : DomState) : State := { s with doms := vset s.doms d x }
def State.flue (s : State) : FlueId → Flue
  | .a => s.flueA
  | .b => s.flueB
def State.modFlue (s : State) (f : FlueId) (g : Flue → Flue) : State :=
  match f with
  | .a => { s with flueA := g s.flueA }
  | .b => { s with flueB := g s.flueB }
def State.lane (s : State) (l : LaneId) : Lane := vget s.lanes l
def State.modLane (s : State) (l : LaneId) (g : Lane → Lane) : State := { s with lanes := vmod s.lanes l g }
/-- R131: the index of a rate in a lane's records. -/
def rateIdx : Rate → Fin 5
  | .g2p5 => 0 | .g5 => 1 | .g8 => 2 | .g16 => 3 | .g32 => 4

/-- R125, R126: a rate above 5.0 GT/s. -/
def fastRate (r : Rate) : Bool := decide (2 ≤ (rateIdx r).val)

def State.test (s : State) (l : LaneId) : TestLane := vget s.tests l
def State.modTest (s : State) (l : LaneId) (g : TestLane → TestLane) : State := { s with tests := vmod s.tests l g }

/-- R26: a wake event is pending, so the core runs. -/
def State.woken (s : State) : State := { s with wake := true }

/-! ### Modes and functions -/

/-- Modes whose functions the host sees (R175). -/
def Mode.exposes : Mode → Bool
  | .m0 => false
  | .m3 => false
  | _ => true

/-- R22, R23: modes with hearths, switch and hearthstone in service. -/
def Mode.serves : Mode → Bool
  | .m5 => false
  | .m6 => false
  | .m7 => false
  | _ => true

/-- M5 and M6. -/
def Mode.tests : Mode → Bool
  | .m5 => true
  | .m6 => true
  | _ => false

/-- R17: mode numbers. -/
def Mode.code : Mode → Nat
  | .m0 => 0 | .m1 => 1 | .m2 => 2 | .m3 => 3 | .m4 => 4 | .m5 => 5 | .m6 => 6 | .m7 => 7

/-- R175: the highest function a mode exposes, `none` when it exposes none. -/
def State.lastFn (s : State) : Option Nat :=
  match s.mode with
  | .m0 => none
  | .m3 => none
  | .m2 => some (16 * s.cfg.csize)
  | .m5 => some 0
  | .m6 => some 0
  | _ => some 16

/-- R175: function `f` is exposed. -/
def State.exposed (s : State) (f : Nat) : Bool :=
  match s.lastFn with
  | none => false
  | some m => decide (f ≤ m)

/-- R175: the function of hearth `n` on this bridge, as its hearth-side events are recorded (R311). -/
def fnOf (n : HearthId) : FnId := ⟨n.val + 1, by have := n.isLt; omega⟩

/-- R175: function 16p + n + 1 of chimney hearth 16p + n. -/
def fnOfChimney (h : Fin 64) : FnId := ⟨h.val + 1, by have := h.isLt; omega⟩

/-- Position and hearth of a chimney hearth number. -/
def posOf (h : Fin 64) : Fin 4 := ⟨h.val / 16, by have := h.isLt; omega⟩
def hearthOf (h : Fin 64) : HearthId := ⟨h.val % 16, by omega⟩
def chimneyOf (p : Fin 4) (n : HearthId) : Fin 64 := ⟨16 * p.val + n.val, by have := p.isLt; have := n.isLt; omega⟩

/-- R17: the chimney exists in this mode (M2, M3, and M0 unless S_CSIZE is code 1), with its flue straps valid (R64). -/
def State.chimney (s : State) : Bool :=
  match s.mode with
  | .m2 => s.cfg.fluesOk
  | .m3 => s.cfg.fluesOk
  | .m0 => s.cfg.fluesOk && s.cfg.csize != 1
  | _ => false

/-- R175: the chimney position of this bridge, 0 outside a chimney. -/
def State.pos (s : State) : Fin 4 := if s.chimney then s.cfg.cpos else 0

/-- R175: position and hearth behind a request's function; function 0 has none and position 0, hearth 0 stand here. -/
def HostReq.chimneyHearth (r : HostReq) : Fin 64 := Fin.ofNat 64 (r.fn.val - 1)

/-- The request goes to a hearth on this bridge. -/
def State.isLocal (s : State) (r : HostReq) : Bool := posOf r.chimneyHearth = s.pos

/-- The request goes to hearth `n` of this bridge. -/
def State.reqFor (s : State) (n : HearthId) (r : HostReq) : Bool :=
  !r.stone && s.isLocal r && hearthOf r.chimneyHearth = n

/-! ### Ports and domains -/

def hearthPort (n : HearthId) : PortId := ⟨n.val, by have := n.isLt; omega⟩
def fluePort : FlueId → PortId
  | .a => 17
  | .b => 18
def FlueId.other : FlueId → FlueId
  | .a => .b
  | .b => .a

/-- The hearth of a port below 16. -/
def portHearth (p : PortId) : Option HearthId := if h : p.val < 16 then some ⟨p.val, h⟩ else none

/-- R71: where a routing entry leads. -/
def routeOf (pos : Fin 4) (e : BitVec 8) : Route :=
  if e = 255 then .unused
  else
    match e.toNat / 64 with
    | 1 => .inta (Fin.ofNat 65 (e.toNat % 64 + 1))
    | 2 => .irqo (Fin.ofNat 16 (e.toNat / 4 % 16)) (Fin.ofNat 4 (e.toNat % 4))
    | 3 =>
      let p : Fin 4 := Fin.ofNat 4 (e.toNat / 16 % 4)
      let m : HearthId := Fin.ofNat 16 (e.toNat % 16)
      if p = pos then .irqo m 0 else .remote p m
    | _ => .unused

/-- R231, R238: the piece needs hearth `n`'s bus: a completion and an interrupt change for that port do not. -/
def Piece.forBus (n : HearthId) (p : Piece) : Bool :=
  p.dst = hearthPort n && p.cls != .completion && p.cls != .interrupt

/-- A domain by number. -/
def domOf (d : Nat) : DomainId := ⟨d % 162, Nat.mod_lt _ (by omega)⟩

/-- R96: the four domains of a hearth. -/
def padDom (n : HearthId) : DomainId := domOf (68 + 4 * n.val)

/-- R97: the domains a port's unit and its switch tile need. The pads follow their own rule (R96). -/
def portPath (p : PortId) : List DomainId :=
  if p.val < 16 then
    [domOf (69 + 4 * p.val), domOf (70 + 4 * p.val), domOf (71 + 4 * p.val), domOf (132 + p.val / 4)]
  else if p.val = 16 then [domOf 136]
  else if p.val = 17 then [domOf 137]
  else if p.val = 18 then [domOf 138]
  else [domOf 139]

/-- R261: the bank of a hearthstone address. -/
def bankOf (a : Nat) : Fin 16 := ⟨a / 65536 % 16, Nat.mod_lt _ (by omega)⟩

/-- R97: every domain on the path of a piece from `src` to `dst`; `a` is the hearthstone address when `dst` is 19. -/
def piecePath (src dst : PortId) (a : Nat) : List DomainId :=
  portPath src ++ portPath dst ++ (if dst.val = 19 then [domOf (140 + (bankOf a).val)] else [])

/-- R95: a domain is ON. -/
def DomState.isOn : DomState → Bool
  | .on _ => true
  | _ => false

/-- R97, R106: a wake is charged for a domain that is OFF or RETAINED. -/
def DomState.asleep : DomState → Bool
  | .off => true
  | .retained => true
  | _ => false

/-- R100. -/
def DomState.falling : DomState → Bool
  | .goingDown _ => true
  | _ => false

/-- R95: a domain that is ON, or on its way there, goes down through GOING_DOWN. -/
def DomState.fall (x : DomState) (now : Tally) : DomState :=
  match x with
  | .on _ => .goingDown (tickPlus now Config.goingDownTicks)
  | .waking _ => .goingDown (tickPlus now Config.goingDownTicks)
  | y => y

/-- R20: domains usable in a mode. -/
def Mode.usable (m : Mode) (d : Nat) : Bool :=
  match m with
  | .m0 => decide (32 ≤ d ∧ d ≤ 155 ∨ 159 ≤ d)
  | .m3 => decide (32 ≤ d ∧ d ≤ 155 ∨ 159 ≤ d)
  | .m1 => decide (d ≤ 31 ∨ 68 ≤ d)
  | .m2 => true
  | .m4 => decide (d ≤ 3 ∨ 16 ≤ d ∧ d ≤ 19 ∨ 68 ≤ d)
  | .m5 => decide (d ≤ 67 ∨ 156 ≤ d)
  | .m6 => decide (d ≤ 67 ∨ 156 ≤ d)
  | .m7 => decide (d ≤ 31 ∨ 156 ≤ d)

/-- R130: a host lane domain wakes in 300 ticks with the common-mode keeper on, else in 4,000; R96 for every other domain. -/
def State.latency (s : State) (d : DomainId) : Nat :=
  if d.val < 32 then (if s.link.keeper then 300 else 4000) else Config.wakeLatency d.val

/-! ### Balls that follow from the state -/

/-- R195: slot states with active pads. -/
def Slot.pads : Slot → Bool
  | .ready => true
  | .inService => true
  | .draining => true
  | _ => false

/-- R191: slot-state codes. -/
def Slot.code : Slot → Nat
  | .empty => 0 | .powering => 1 | .sampling => 2 | .ready => 3 | .inService => 4 | .draining => 5
  | .removable => 6 | .collapsed => 7 | .strapFault => 8 | .parked => 9

/-- R213: HnPWREN is high. -/
def State.pwren (s : State) (n : HearthId) : Bool :=
  s.slotPower &&
    match (s.hearth n).slot with
    | .powering => true
    | .sampling => true
    | .ready => (s.hearth n).presLow
    | .inService => true
    | .draining => true
    | .collapsed => true
    | _ => false

/-- R213, R215, R318, R350: HnRSTO_N is released; without VAUX nothing sinks it. -/
def State.rstoReleased (s : State) (n : HearthId) : Bool :=
  !s.island.vaux || (s.hearth n).resetFrom.isNone &&
    match (s.hearth n).slot with
    | .inService => true
    | .draining => match (s.hearth n).drain with
      | some d => d.rsto.isNone
      | none => true
    | _ => false

/-- R213: HnIND is on. -/
def State.indOn (s : State) (n : HearthId) : Bool :=
  match (s.hearth n).slot with
  | .inService => true
  | .draining => true
  | .removable => (s.hearth n).blinkOn
  | .strapFault => (s.hearth n).blinkOn
  | _ => false

/-- R195, R318: the pads of hearth `n` are powered and active. -/
def State.padsActive (s : State) (n : HearthId) : Bool :=
  (s.hearth n).slot.pads && (s.dom (padDom n)).isOn && (s.hearth n).resetFrom.isNone

/-- R241, R318: the receivers of hearth `n` are on: its pads are powered in a state with active pads, a hearth reset included. -/
def State.receiversOn (s : State) (n : HearthId) : Bool := (s.hearth n).slot.pads && (s.dom (padDom n)).isOn

/-- R336, R338: an EXTEST instruction is current: the mission logic of every driven ball sees no edge, and the bridge acknowledges no
cycle. -/
def State.scanDrives (s : State) : Bool :=
  match s.tap.instr with
  | .extest => true
  | .extestPulse => true
  | .extestTrain => true
  | _ => false

/-- R337, R338, R53: the cells of control group `g` of hearth `n` drive its balls under EXTEST, so their edges are not seen. The inputs
without a driver (HnIRQ, HnBGNT_N, HnLOCK_N, HnSLOAD_N and those of the slot) have no group. -/
def State.scanHides (s : State) (n : HearthId) (g : Fin 4) : Bool :=
  s.scanDrives && (s.hearth n).slot.pads && (s.dom (padDom n)).isOn && s.tap.upd.getD (40 + 104 * n.val + g.val) false

/-- A level a ball is driven to, or its high-impedance state. -/
inductive Level3
  | low | high | floating
  deriving DecidableEq, Repr

/-- R210, R265: HnLOCK_N as the bridge takes it. -/
def Hearth.lockSeen (h : Hearth) : Bool := h.lockLow && !h.lockMasked

/-- The hearths on a VHEARTH bank (R39). -/
def bankHearths (b : Fin 14) : List HearthId :=
  if b.val = 0 then [0, 1]
  else if b.val = 13 then [14, 15]
  else [⟨(b.val + 1) % 16, Nat.mod_lt _ (by omega)⟩]

/-- R76: the bank that supplies a hearth. -/
def hearthBank (n : HearthId) : Fin 14 :=
  if n.val ≤ 1 then 0 else if n.val ≥ 14 then 13 else ⟨(n.val - 1) % 14, Nat.mod_lt _ (by omega)⟩

def Island.supplies (i : Island) : Bool := i.vcore && i.vphy && i.vphyh && i.vflue && i.vaux && i.vstrap

/-- R76: a supply becomes valid above its rising threshold, invalid below its falling one, and stands between them. -/
def senseSupply (t : Config.Threshold) (mv : Nat) (valid : Bool) : Bool :=
  if t.rising < mv then true else if mv < t.falling then false else valid

/-- R76: the island senses the six supplies of R78. -/
def Island.sense (i : Island) (v : Volts) : Island :=
  { i with
    vcore := senseSupply Config.vcore v.vcore i.vcore
    vphy := senseSupply Config.vphy v.vphy i.vphy
    vphyh := senseSupply Config.vphyh v.vphyh i.vphyh
    vflue := senseSupply Config.vflue v.vflue i.vflue
    vaux := senseSupply Config.vaux v.vaux i.vaux
    vstrap := senseSupply Config.vstrap v.vstrap i.vstrap }

/-- R72, R212: an input that has been low for `held` ticks after a high of `high` ticks may count again: its last count
`last` is not of the same low, and the high before it lasted `need` ticks. A count `Config.longAgo` ticks back is as old as can be
told (R10). -/
def armed (last : Option Tally) (now : Tally) (held high need : Nat) : Bool :=
  match last with
  | none => true
  | some t => decide (need ≤ high) && decide (held + high ≤ ticksSince now t ∨ Config.longAgo ≤ ticksSince now t)

/-! ### Presentation of admission items (R107, R109) -/

/-- R109: service and host items stand by presentation tick, then ascending switch port. -/
def insertItem (it : Item) : List Item → List Item
  | [] => [it]
  | x :: xs => if x.tick = it.tick ∧ it.port < x.port then it :: x :: xs else x :: insertItem it xs

/-- R109: the 19 hearth-level slots: H0 to H15, Flue A arrivals, Flue B arrivals, sampler. -/
def hearthSlot (n : HearthId) : Fin 19 := ⟨n.val, by have := n.isLt; omega⟩
def flueSlot : FlueId → Fin 19
  | .a => 16
  | .b => 17
def samplerSlot : Fin 19 := 18

def State.newItem (s : State) (port : PortId) (path : List DomainId) (cost : Nat) (work : Work) : Item :=
  { id := s.nextId, port := port, tick := s.now, path := path, cost := cost, work := work, heldAt := none, heldTick := 0 }

def State.presentService (s : State) (port : PortId) (path : List DomainId) (cost : Nat) (work : Work) : State :=
  { s with nextId := s.nextId + 1, wake := true,
           items := { s.items with service := insertItem (s.newItem port path cost work) s.items.service } }

def State.presentHost (s : State) (port : PortId) (path : List DomainId) (cost : Nat) (work : Work) : State :=
  { s with nextId := s.nextId + 1, wake := true,
           items := { s.items with host := insertItem (s.newItem port path cost work) s.items.host } }

def State.presentSlot (s : State) (k : Fin 19) (port : PortId) (path : List DomainId) (cost : Nat) (work : Work) : State :=
  { s with nextId := s.nextId + 1, wake := true,
           items := { s.items with
             slots := vmod s.items.slots k (fun q => q ++ [s.newItem port path cost work]) } }

/-- Every item that waits for payment, in admission order with the slots from the pointer (R116). -/
def State.waitingItems (s : State) : List Item :=
  s.items.service ++ s.items.host ++
    (List.range 19).flatMap (fun i => vget s.items.slots ⟨(s.ledger.pointer.val + i) % 19, Nat.mod_lt _ (by omega)⟩)

/-- R117: an item is held. -/
def State.anyHeld (s : State) : Bool := s.waitingItems.any (fun it => it.heldAt.isSome)

/-- R112: every unpaid item that `p` picks leaves the ledger. -/
def State.dropItems (s : State) (p : Item → Bool) : State :=
  { s with items := { s.items with
      service := s.items.service.filter (fun it => !p it)
      host := s.items.host.filter (fun it => !p it)
      slots := vmap (fun _ q => q.filter (fun it => !p it)) s.items.slots } }

/-- Admitted items that wait for a domain and that `p` picks are discarded; their embers are not refunded (R112). -/
def State.dropAdmitted (s : State) (p : Item → Bool) : State :=
  { s with items := { s.items with admitted := s.items.admitted.filter (fun it => !p it) } }

/-! ### Host port -/

/-- R169: a TLP reaches the host port behind those already there. -/
def State.sendTlp (s : State) (t : TxTlp) : State :=
  { s with nextId := s.nextId + 1, wake := true, txq := s.txq ++ [{ t with id := s.nextId, readyAt := s.now }] }

/-- A TLP without payload or address. -/
def bareTlp (kind : TxKind) (fn : FnId) : TxTlp :=
  { id := 0, kind := kind, fn := fn, addr := 0, bytes := [], len := 0, tag := 0, status := .sc, value := 0,
    origin := .none, hearth := none, readyAt := 0 }

/-- R97, R106, R317: a message the bridge sends on its own account is a host-level item: 26 embers for its header, and no domain of
its own; an INTx message crosses the switch, for 4 more, and needs the tile of port 16. -/
def State.presentMessage (s : State) (kind : TxKind) (fn : FnId) (path : List DomainId) (cost : Nat) : State :=
  s.presentHost 16 path cost (.message (bareTlp kind fn))

/-! ### Hearthstone bytes -/

/-- The byte at an address: an unlisted address reads 0 (R88: the hearthstone is cleared before any access). -/
def stoneRead : List Host.Cell → Nat → Byte
  | [], _ => 0
  | (a, b) :: rest, x => if x = a then b else stoneRead rest x

/-- Writing a byte keeps the list strictly rising and free of zero bytes. -/
def stoneWrite : List Host.Cell → Nat → Byte → List Host.Cell
  | [], x, v => if v = 0 then [] else [(x, v)]
  | (a, b) :: rest, x, v =>
    if x < a then (if v = 0 then (a, b) :: rest else (x, v) :: (a, b) :: rest)
    else if x = a then (if v = 0 then rest else (a, v) :: rest)
    else (a, b) :: stoneWrite rest x v

/-- The enabled bytes of a beat, in order. -/
def stoneWriteAll (m : List Host.Cell) (l : List (Nat × Byte)) : List Host.Cell :=
  l.foldl (fun m c => stoneWrite m c.1 c.2) m

/-- The canonical form: addresses strictly rising, and no byte equal to 0. -/
def Memory.wf : List Host.Cell → Bool
  | [] => true
  | [(_, b)] => b != 0
  | (a, b) :: (c, d) :: rest => decide (a < c) && b != 0 && Memory.wf ((c, d) :: rest)

end Sys2Proof.Machine
end

