-- ==== Sys2Proof/Machine/Straps.lean ====
section
/-! DEFINITION. The strap language: classification of a reading (R56 to R58), the spread and ignore rules (R59, R60), the
checks of chapter 03, and the settings they yield (R64 to R71, R325, R326). -/

namespace Sys2Proof.Machine

open Sys2Proof

/-! ### One ball -/

/-- R57: nominal voltages of codes 0 to 14, in microvolts. -/
def nominals : List Nat :=
  [0, 99800, 200000, 300000, 400000, 498000, 602000, 696000, 804000, 906000, 998000, 1098000, 1208000, 1298000, 1396000]

/-- The distance between two voltages. -/
def apart (a b : Nat) : Nat := if a ≤ b then b - a else a - b

/-- R58: the code whose nominal voltage is nearest to the mean of `n` readings that add up to `sum`, the lower one on a
tie. -/
def nearestOf (n sum : Nat) : Nat :=
  ((List.range 15).foldl
    (fun best c => if apart sum (n * nominals.getD c 0) < apart sum (n * nominals.getD best 0) then c else best) 0)

/-- R57: the code whose window holds the mean of `n` readings that add up to `sum`. Every threshold is taken `n` times, so
that the mean is exact. -/
def windowOf (n sum : Nat) : Option Nat :=
  if sum < n * 40000 then some 0
  else if n * 1540000 ≤ sum then some 15
  else
    let c := (sum + n * 50000) / (n * 100000)
    if 1 ≤ c ∧ c ≤ 14 ∧ n * (100000 * c) ≤ sum + n * 40000 ∧ sum ≤ n * (100000 * c) + n * 40000 then some c else none

/-- R57: the code whose window holds a mean voltage of a whole number of microvolts. -/
def windowCode (uv : Nat) : Option Nat := windowOf 1 uv

/-- R56 to R58: status and reported code of a reading, before the code's meaning is looked up. -/
def classify (r : Reading) : BitVec 4 × BallStatus :=
  if 150000 < r.checkUv then (15, .driven)
  else
    let n := r.convertUv.length
    let sum := r.convertUv.sum
    match windowOf n sum with
    | some c => (BitVec.ofNat 4 c, .valid)
    | none => (BitVec.ofNat 4 (if n * 1440000 < sum then 14 else nearestOf n sum), .gap)

/-- A ball whose voltage stands still through the convert phase. -/
def steadyReading (checkUv uv : Nat) : Reading :=
  { checkUv := checkUv, convertUv := List.replicate Config.convertTicks uv }

/-- Chapter 03, R57, R345: a ball without a reading is open, and the source holds it at its clamp. -/
def openReading : Reading := steadyReading 0 1700000

/-- A sampled ball, given whether its strap assigns a code. -/
def sampledBall (assigned : Nat → Bool) (r : Reading) : Ball :=
  let (code, st) := classify r
  let own := if st = .valid ∧ !assigned code.toNat then .unassigned else st
  { code := code, own := own, shown := own }

/-- R65, R66, R325: the codes a global strap assigns, `m` being the mode in effect. -/
def assignedGlobal (m : Mode) (i c : Nat) : Bool :=
  match i with
  | 0 => decide (c ≤ 7 ∨ c = 15)
  | 1 => decide (c ≤ 4 ∨ c = 15)
  | 2 => decide (c ≤ 4 ∨ c = 15)
  | 3 => decide (c ≤ 1 ∨ c = 15)
  | 4 => decide (c ≤ 5 ∨ c = 15)
  | 5 => decide (c ≤ 1 ∨ c = 15)
  | 7 => decide (c ≤ 1 ∨ c = 15)
  | 8 => decide (c ≤ 1 ∨ c = 15)
  | 9 => decide (c ≤ 1 ∨ c = 15)
  | 10 => decide (c ≤ 3 ∨ c = 15)
  | 11 => decide (1 ≤ c ∧ c ≤ 4 ∨ c = 15)
  | _ =>
    if i < 52 then true
    else if m.tests then
      match (i - 52) % 4 with
      | 0 => decide (c ≤ 4 ∨ c = 15)
      | 1 => decide (c ≤ (if m = .m5 then 3 else 2) ∨ c = 15)
      | _ => true
    else if (i - 52) % 4 = 2 then decide (c ≤ 8 ∨ c = 15) else true

/-- R68: SHnPROT leaves bits [1:0] = 3 unassigned; every other per-hearth strap assigns every code. -/
def assignedHearth (k c : Nat) : Bool := decide (k ≠ 0) || decide (c % 4 ≠ 3)

/-- R61: the global straps of group `g`, below 16. -/
def groupStart (g : Nat) : Nat := if g < 4 then 12 * g else 48 + 11 * (g - 4)
def groupSize (g : Nat) : Nat := if g < 4 then 12 else 11

/-- R61, R75: the balls `start` to `start + size - 1` take their readings, in strap order. -/
def sampleBalls {n : Nat} (assigned : Nat → Nat → Bool) (start size : Nat) (readings : List Reading) (v : Vector Ball n) :
    Vector Ball n :=
  Vector.ofFn fun i =>
    if start ≤ i.val ∧ i.val < start + size then
      sampledBall (assigned i.val) (readings.getD (i.val - start) openReading)
    else vget v i

/-! ### Fields -/

def ballAt {n : Nat} (v : Vector Ball n) (i : Nat) : Ball := (v[i]?).getD Ball.reset

/-- Statuses shown on the balls `start` to `start + len - 1`. -/
def Ball.inWindow (b : Ball) : Bool := b.own = .valid || b.own = .unassigned

/-- R59: the status a field spreads; DRIVEN before GAP. -/
def spreadStatus (bs : List Ball) : Option BallStatus :=
  if bs.any (fun b => b.own = .driven) then some .driven
  else if bs.any (fun b => b.own = .gap) then some .gap
  else none

/-- Balls `idx` that show VALID take status `st`. -/
def mark {n : Nat} (v : Vector Ball n) (idx : List Nat) (st : BallStatus) : Vector Ball n :=
  vmap (fun i b => if idx.contains i.val ∧ b.shown = .valid then { b with shown := st } else b) v

/-- R59 on one field. -/
def spread {n : Nat} (idx : List Nat) (v : Vector Ball n) : Vector Ball n :=
  match spreadStatus (idx.map (ballAt v)) with
  | some st => mark v idx st
  | none => v

/-- The field of balls `start` to `start + len - 1` shows VALID throughout. -/
def validField {n : Nat} (v : Vector Ball n) (start len : Nat) : Bool :=
  (List.range len).all fun i => (ballAt v (start + i)).shown = .valid

/-- R59: the value of a field, most significant ball first. -/
def fieldValue {n : Nat} (v : Vector Ball n) (start len : Nat) : Nat :=
  (List.range len).foldl (fun a i => 16 * a + (ballAt v (start + i)).code.toNat) 0

def codeAt {n : Nat} (v : Vector Ball n) (i : Nat) : Nat := (ballAt v i).code.toNat

def span (start len : Nat) : List Nat := (List.range len).map (start + ·)

/-! ### Global straps -/

/-- R17, R18: the mode S_MODE selects. -/
def selectedMode (b : Ball) : Mode :=
  if b.own = .valid then
    match b.code.toNat with
    | 0 => .m0 | 1 => .m1 | 2 => .m2 | 3 => .m3 | 4 => .m4 | 5 => .m5 | 6 => .m6 | _ => .m7
  else .m7

/-- The multi-ball global fields (R65). -/
def globalFields : List (Nat × Nat) := [(12, 4), (16, 4), (20, 4), (24, 4), (28, 2), (30, 6), (36, 9), (46, 4)]

/-- R60: region `r` is unused, so its other balls are ignored. -/
def regionOff (v : Vector Ball 180) (r : Nat) : Bool :=
  (ballAt v (54 + 4 * r)).own = .valid && codeAt v (54 + 4 * r) = 15

/-- R59, R60: the spread over the global fields. -/
def spreadGlobals (m : Mode) (v : Vector Ball 180) : Vector Ball 180 :=
  let v := globalFields.foldl (fun v f => spread (span f.1 f.2) v) v
  if m.tests then v
  else (List.range 32).foldl (fun v r => if regionOff v r then v else spread [52 + 4 * r, 53 + 4 * r] v) v

/-- R65: S_HAPSZ and S_SRSZ sizes. -/
def apertureSize (c : Nat) : Nat := 65536 * 2 ^ c
def ringSize (c : Nat) : Nat := 4096 * 2 ^ c

/-- R67: an aperture exists. -/
def apertureOf (v : Vector Ball 180) : Option (Nat × Nat) :=
  if validField v 36 10 ∧ codeAt v 45 ≠ 15 then some (65536 * fieldValue v 36 9, apertureSize (codeAt v 45)) else none

/-- R65: chimney position and size, code 15 as 0 and 2. -/
def posCode (v : Vector Ball 180) : Nat := if codeAt v 10 = 15 then 0 else codeAt v 10
def sizeCode (v : Vector Ball 180) : Nat := if codeAt v 11 = 15 then 2 else codeAt v 11

/-- R67: the CONFLICT checks of the global fields, the mode being the one S_MODE selects. -/
def checkGlobals (m : Mode) (v : Vector Ball 180) : Vector Ball 180 :=
  let v1 :=
    if validField v 36 10 ∧ codeAt v 45 ≠ 15 ∧ 2 ^ 52 < 65536 * fieldValue v 36 9 + apertureSize (codeAt v 45) then
      mark v (span 36 10) .conflict
    else v
  let v2 :=
    match apertureOf v1 with
    | some (_, sz) =>
      if validField v1 46 5 ∧ codeAt v1 50 ≠ 15 ∧ sz < 65536 * fieldValue v1 46 4 + ringSize (codeAt v1 50) then
        mark v1 (span 46 5) .conflict
      else v1
    | none => v1
  let posOk := validField v2 10 1
  let sizeOk := validField v2 11 1
  let bad :=
    ((m = .m0 || m = .m2) && posOk && posCode v2 ≠ 0) ||
    (m = .m3 && posOk && sizeOk && (posCode v2 = 0 || sizeCode v2 ≤ posCode v2)) ||
    ((m = .m2 || m = .m3) && sizeOk && sizeCode v2 = 1)
  if bad then mark v2 [10, 11] .conflict else v2

/-- R66, R326: the CONFLICT checks of the 32 region or test units, in the mode in effect. -/
def checkUnits (m : Mode) (v : Vector Ball 180) : Vector Ball 180 :=
  (List.range 32).foldl
    (fun v r =>
      let i := 52 + 4 * r
      if m.tests then
        if m = .m5 ∧ validField v i 2 ∧ (codeAt v (i + 1) = 1 ∨ codeAt v (i + 1) = 2) ∧ (codeAt v i = 0 ∨ codeAt v i = 15) then
          mark v [i, i + 1] .conflict
        else v
      else if validField v i 3 ∧ codeAt v (i + 2) ≤ 8 ∧ (4096 * fieldValue v i 2) % (4096 * 2 ^ codeAt v (i + 2)) ≠ 0 then
        mark v [i, i + 1, i + 2] .conflict
      else v) v

/-- R60, R67, R75: the field statuses applied at the end of group 15: `sel` is the mode S_MODE selects, `m` the one in
effect. -/
def finishGlobals (sel m : Mode) (v : Vector Ball 180) : Vector Ball 180 := checkUnits m (checkGlobals sel (spreadGlobals m v))

/-- R65, R64: a single-code setting, `none` as its code-15 meaning. -/
def single (v : Vector Ball 180) (i : Nat) : Nat := if validField v i 1 then codeAt v i else 15

/-- R65: a wide field whose all-ones value, or a status other than VALID, gives `dflt`. -/
def wide (v : Vector Ball 180) (start len dflt : Nat) : Nat :=
  if validField v start len ∧ fieldValue v start len + 1 ≠ 16 ^ len then fieldValue v start len else dflt

def widthOf (c : Nat) : Nat :=
  match c with
  | 0 => 1 | 1 => 2 | 2 => 4 | 3 => 8 | _ => 16

def rateOf (c : Nat) : Rate :=
  match c with
  | 0 => .g2p5 | 1 => .g5 | 2 => .g8 | 3 => .g16 | _ => .g32

/-- R277: the region set. -/
def regionsOf (m : Mode) (v : Vector Ball 180) : Vector Region 32 :=
  Vector.ofFn fun r =>
    let i := 52 + 4 * r.val
    { used := !m.tests && validField v i 4 && decide (codeAt v (i + 2) ≠ 15)
      base := 4096 * fieldValue v i 2
      size := 4096 * 2 ^ codeAt v (i + 2)
      colour := (ballAt v (i + 3)).code }

/-- R64 to R67: the global settings in use from the end of group 15, in the mode in effect. With a flue strap that is not VALID
both flues are out of service (R64), so that no forwarded clock is chosen, whatever S_FCLK reads (DESIGN CHOICE, entry 82: R79
gives the choice to S_FCLK alone). -/
def globalsOf (m : Mode) (v : Vector Ball 180) : GlobalCfg :=
  let fluesOk := validField v 7 5
  let ap := apertureOf v
  { hwid := widthOf (single v 1)
    hrate := rateOf (single v 2)
    sris := single v 3 = 1
    haspm := if single v 4 = 15 then 5 else single v 4
    haux := BitVec.ofNat 4 (single v 5)
    budgetCode := if validField v 6 1 then (ballAt v 6).code else 0
    fwd := fluesOk && codeAt v 7 = 1
    holdA := !(fluesOk && codeAt v 8 = 0)
    holdB := !(fluesOk && codeAt v 9 = 0)
    cpos := if fluesOk then Fin.ofNat 4 (posCode v) else 0
    csize := if fluesOk then sizeCode v else 2
    fluesOk := fluesOk
    vid := BitVec.ofNat 16 (wide v 12 4 0x1C7E)
    did := BitVec.ofNat 16 (wide v 16 4 0x4016)
    svid := BitVec.ofNat 16 (wide v 20 4 0x1C7E)
    ssid := BitVec.ofNat 16 (wide v 24 4 0x4016)
    rid := BitVec.ofNat 8 (wide v 28 2 0x01)
    classCode := BitVec.ofNat 24 (wide v 30 6 0x068000)
    aperture := ap
    ring := match ap with
      | some _ => if validField v 46 6 ∧ codeAt v 50 ≠ 15 then some (65536 * fieldValue v 46 4, ringSize (codeAt v 50)) else none
      | none => none
    ratio := codeAt v 51
    regions := regionsOf m v }

/-- R64: every strap the configuration unit owns is VALID. -/
def configUnitOk (v : Vector Ball 180) : Bool := validField v 1 5 && validField v 12 24

/-- R277: the lowest overlapping pair of used regions. -/
def overlapPair (rs : Vector Region 32) : Option (Nat × Nat) :=
  (List.finRange 32).findSome? fun i =>
    (List.finRange 32).findSome? fun j =>
      let a := vget rs i
      let b := vget rs j
      if i < j ∧ a.used ∧ b.used ∧ a.base < b.base + b.size ∧ b.base < a.base + a.size then some (i.val, j.val) else none

/-- R278: a region strap that is not ignored is not VALID. -/
def regionStrapBad (v : Vector Ball 180) : Bool :=
  (List.range 32).any fun r =>
    if regionOff v r then false else !validField v (52 + 4 * r) 4

/-- R278: the hearthstone unit at the end of group 15. -/
def protOf (v : Vector Ball 180) (rs : Vector Region 32) : Prot :=
  let bad := regionStrapBad v
  match overlapPair rs with
  | some (a, b) => { inService := false, overlap := true, badStrap := bad, pairLo := a, pairHi := b }
  | none => { inService := !bad, overlap := false, badStrap := bad, pairLo := 0, pairHi := 0 }

/-- R326: a test lane is under test. -/
def TestLane.underTest (m : Mode) (t : TestLane) : Bool :=
  m.tests && t.valid && (decide (t.pattern ≠ 0) || (m = .m5 && decide (t.loop ≠ 0)))

/-- R329, R332: the lane has a checker: it is under test with a pattern, and its role is not generator only. -/
def TestLane.checks (m : Mode) (t : TestLane) : Bool := t.underTest m && t.pattern != 0 && !(m = .m6 && t.loop = 1)

/-- R325, R332: the test lanes in M5 and M6, whose checkers wait for their bellows. Code 15 of pattern and loop stands as 0. -/
def testsOf (m : Mode) (v : Vector Ball 180) : Vector TestLane 32 :=
  Vector.ofFn fun l =>
    let i := 52 + 4 * l.val
    let z := fun c => if c = 15 then 0 else c
    let t : TestLane := { TestLane.reset with
      valid := validField v i 4
      pattern := z (codeAt v i)
      loop := z (codeAt v (i + 1))
      period := codeAt v (i + 2)
      burst := if codeAt v (i + 3) = 15 then 1 else codeAt v (i + 3) + 1 }
    { t with checker := if t.checks m then .waiting else .off }

/-! ### Per-hearth straps -/

/-- R69, R70: window sizes. -/
def windowSize (c : Nat) : Nat := 4096 * 2 ^ c

/-- R181: the BAR-0 size of a code. -/
def barSize (c : Nat) : Nat := 65536 * 4 ^ c

/-- Strap index of the first ball of a window or entry (R37). -/
def dwK (w : Nat) : Nat := 5 + 6 * w
def uwK (w : Nat) : Nat := 29 + 6 * w
def irqK (q : Nat) : Nat := 53 + 2 * q

/-- R60: the window is closed by VALID code 15 on its size ball. -/
def sizeOff (v : Vector Ball 69) (k : Nat) : Bool := (ballAt v k).own = .valid && codeAt v k = 15

/-- R59, R60: the spread over the fields of a hearth. -/
def spreadHearth (v : Vector Ball 69) : Vector Ball 69 :=
  let v := (List.range 4).foldl
    (fun v w => if sizeOff v (dwK w) then v else spread (span (dwK w + 3) 2) (spread (span (dwK w + 1) 2) v)) v
  let v := (List.range 4).foldl
    (fun v w => if sizeOff v (uwK w + 2) then v else spread (span (uwK w + 4) 2) (spread (span (uwK w) 2) v)) v
  (List.range 8).foldl (fun v q => spread (span (irqK q) 2) v) v

/-- R69: a downstream window's values. -/
def dwinAt (v : Vector Ball 69) (w : Nat) : DWin :=
  let k := dwK w
  let sz := windowSize (codeAt v k)
  let at' := codeAt v (k + 5)
  { off := fieldValue v (k + 1) 2 * sz, base := fieldValue v (k + 3) 2 * sz, size := sz,
    nonPosted := at'.testBit 0, dataInv := at'.testBit 1, errResp := at'.testBit 2, ca := at'.testBit 3 }

/-- The window is open as far as its own balls say. -/
def dwinOpen (v : Vector Ball 69) (w : Nat) : Bool := validField v (dwK w) 6 && decide (codeAt v (dwK w) ≠ 15)

/-- R70: an upstream window's values. -/
def uwinAt (v : Vector Ball 69) (w : Nat) : UWin :=
  let k := uwK w
  let sz := windowSize (codeAt v (k + 2))
  let tgt := codeAt v (k + 3)
  let hi := codeAt v (k + 4)
  let lo := codeAt v (k + 5)
  let kind := tgt % 4
  { base := fieldValue v k 2 * sz, size := sz, kind := Fin.ofNat 4 kind, nonPosted := tgt.testBit 2,
    errResp := tgt.testBit 3, dataInv := decide (kind < 2) && hi.testBit 3,
    toff := if kind < 2 then (hi % 8 * 16 + lo) * sz else hi / 4 * sz,
    m := Fin.ofNat 16 lo, pos := Fin.ofNat 4 (hi % 4) }

def uwinOpen (v : Vector Ball 69) (w : Nat) : Bool := validField v (uwK w) 6 && decide (codeAt v (uwK w + 2) ≠ 15)

/-- R70: the checks of one upstream window, overlap apart. -/
def uwinBad (m : Mode) (g : GlobalCfg) (n : HearthId) (u : UWin) : Bool :=
  decide (2 ^ 32 < u.base + u.size) ||
    (match u.kind with
      | 0 => false
      | 1 => decide (1048576 < u.toff + u.size)
      | 2 => u.m = n || u.pos ≠ 0
      | 3 => !(m = .m2 || m = .m3 || (m = .m0 && g.csize != 1)) || decide (g.csize ≤ u.pos.val) || u.pos = g.cpos)

/-- R69, R70: the windows among `ws` that overlap another one. -/
def overlapping (ws : List (Nat × Nat × Nat)) : List Nat :=
  (ws.filter fun a => ws.any fun b => a.1 ≠ b.1 ∧ a.2.1 < b.2.1 + b.2.2 ∧ b.2.1 < a.2.1 + a.2.2).map (·.1)

/-- R71, R243: the CONFLICT cases of a routing entry. -/
def entryBad (m : Mode) (g : GlobalCfg) (e : BitVec 8) : Bool :=
  let f := e.toNat % 64 + 1
  if e = 255 then false
  else
    match e.toNat / 64 with
    | 1 =>
      (match m with
        | .m0 => true
        | .m5 => true
        | .m6 => true
        | .m2 => decide (16 * g.csize < f)
        | .m3 => decide (16 * g.csize < f)
        | _ => decide (16 < f))
    | 3 => !(m = .m2 || m = .m3 || (m = .m0 && g.csize != 1)) || decide (g.csize ≤ e.toNat / 16 % 4)
    | _ => false

def entryAt (v : Vector Ball 69) (q : Nat) : BitVec 8 := BitVec.ofNat 8 (fieldValue v (irqK q) 2)

/-- R69 to R71: the CONFLICT checks of a hearth, `bar` being the BAR-0 size in effect. Those of a window are made when its six
balls show VALID, those it does not read among them (DESIGN CHOICE, entry 10: R69 and R70 do not say). -/
def checkHearth (m : Mode) (g : GlobalCfg) (n : HearthId) (bar : Nat) (v : Vector Ball 69) : Vector Ball 69 :=
  let v := (List.range 4).foldl
    (fun v w =>
      let d := dwinAt v w
      if dwinOpen v w ∧ (bar < d.off + d.size ∨ 2 ^ 32 < d.base + d.size) then mark v (span (dwK w) 6) .conflict else v) v
  let opens := (List.range 4).filter (dwinOpen v)
  let v := (overlapping (opens.map fun w => (w, (dwinAt v w).off, (dwinAt v w).size))).foldl
    (fun v w => mark v (span (dwK w) 6) .conflict) v
  let v := (List.range 4).foldl
    (fun v w => if uwinOpen v w ∧ uwinBad m g n (uwinAt v w) then mark v (span (uwK w) 6) .conflict else v) v
  let opens := (List.range 4).filter (uwinOpen v)
  let v := (overlapping (opens.map fun w => (w, (uwinAt v w).base, (uwinAt v w).size))).foldl
    (fun v w => mark v (span (uwK w) 6) .conflict) v
  (List.range 8).foldl
    (fun v q => if validField v (irqK q) 2 ∧ entryBad m g (entryAt v q) then mark v (span (irqK q) 2) .conflict else v) v

/-- R68 to R71: the settings of a hearth from its checked balls. -/
def hearthCfgOf (pos : Fin 4) (v : Vector Ball 69) : HearthCfg :=
  let prot := codeAt v 0
  { ok := validField v 0 5
    lanes := match prot % 4 with | 0 => 1 | 1 => 2 | _ => 4
    combined := prot.testBit 2
    big := prot.testBit 3
    hkey := (ballAt v 1).code
    ktag := (ballAt v 2).code
    wdog := Config.watchdogTicks (codeAt v 3)
    slotRoute := validField v 4 1 && (codeAt v 4).testBit 3
    dw := Vector.ofFn fun w => if dwinOpen v w.val then some (dwinAt v w.val) else none
    uw := Vector.ofFn fun w => if uwinOpen v w.val then some (uwinAt v w.val) else none
    irq := Vector.ofFn fun q => if validField v (irqK q.val) 2 then routeOf pos (entryAt v q.val) else .unused
    entries := Vector.ofFn fun q => entryAt v q.val }

/-- R59 to R71: sampled balls of a hearth, checked and shown (R75). -/
def finishHearth (m : Mode) (g : GlobalCfg) (n : HearthId) (bar : Nat) (v : Vector Ball 69) : Vector Ball 69 :=
  checkHearth m g n bar (spreadHearth v)

/-- R61, R91: a hearth's two groups sampled at once, 69 readings in strap order. -/
def sampleHearth (readings : List Reading) (v : Vector Ball 69) : Vector Ball 69 :=
  sampleBalls assignedHearth 0 69 readings v

end Sys2Proof.Machine
end

