-- ==== Sys2Proof/Machine/Operands.lean ====
section
/-! DEFINITION. Operand forms: byte lanes (R198, R224), the cycles of a downstream part (R223), window decode (R221,
R227, R228), the division of a request into pieces (R107, R160), and the protection check (R274 to R283). -/

namespace Sys2Proof.Machine

open Sys2Proof

/-! ### Byte lanes -/

/-- R198: the lane of the byte at hearth address `a`. -/
def HearthCfg.laneAt (c : HearthCfg) (a : Nat) : Nat := if c.big then c.lanes - 1 - a % c.lanes else a % c.lanes

/-- R224: the window's rule mirrors bytes within a unit: data-invariant on a big-endian hearth of 16 or 32 bits. -/
def HearthCfg.mirrors (c : HearthCfg) (dataInv : Bool) : Bool := dataInv && c.big && decide (1 < c.lanes)

/-- R224: hearth address of the crossing byte `d` bytes into a window of hearth base `base`. -/
def HearthCfg.byteAddr (c : HearthCfg) (dataInv : Bool) (base d : Nat) : Nat :=
  if c.mirrors dataInv then base + (d ^^^ (c.lanes - 1)) else base + d

/-- R224: hearth lane of the crossing byte `d` bytes into a window of hearth base `base`. -/
def HearthCfg.byteLane (c : HearthCfg) (dataInv : Bool) (base d : Nat) : Nat :=
  if c.mirrors dataInv then d % c.lanes else c.laneAt (base + d)

/-- Byte lane `j` of a data bus. -/
def laneByte (w : BitVec 32) (j : Nat) : Byte := w.extractLsb' (8 * j) 8

/-- R198: a data bus from a byte per used lane; lanes above the width are not driven and stand as 0. -/
def packLanes (lanes : Nat) (f : Nat → Byte) : BitVec 32 :=
  (List.range lanes).foldl (fun w j => w ||| (((f j).setWidth 32) <<< (8 * j))) 0

/-- The byte listed for an address. -/
def byteAt (l : List (Nat × Byte)) (x : Nat) : Option Byte := (l.find? (fun c => c.1 = x)).map (·.2)

/-- R198: the lanes a hearth cycle enables; an 8-bit hearth ignores HnBE_N. -/
def HearthCfg.enables (c : HearthCfg) (be : BitVec 4) (j : Nat) : Bool := decide (c.lanes = 1) || be.getLsbD j

/-- R224, R228: the crossing bytes of a hearth master cycle, ascending: crossing address and hearth lane of each enabled
byte. `base` is the window's hearth base and `x0` its crossing base. -/
def HearthCfg.upLanes (c : HearthCfg) (dataInv : Bool) (base x0 : Nat) (addr : Nat) (be : BitVec 4) : List (Nat × Nat) :=
  let g := addr - addr % c.lanes - base
  (List.range c.lanes).filterMap fun i =>
    let lane := c.byteLane dataInv base (g + i)
    if c.enables be lane then some (x0 + (g + i), lane) else none

/-- The crossing bytes of a hearth write. -/
def HearthCfg.upBytes (c : HearthCfg) (dataInv : Bool) (base x0 : Nat) (addr : Nat) (be : BitVec 4) (data : BitVec 32) :
    List (Nat × Byte) :=
  (c.upLanes dataInv base x0 addr be).map fun p => (p.1, laneByte data p.2)

/-- R198: the read data the bridge drives: 0xFF on every used lane that is not enabled. -/
def HearthCfg.readData (c : HearthCfg) (lanes : List (Nat × Nat)) (got : List (Nat × Byte)) : BitVec 32 :=
  packLanes c.lanes fun j =>
    match lanes.find? (fun p => p.2 = j) with
    | some p => (byteAt got p.1).getD 0xFF
    | none => 0xFF

/-- R223: the byte joins the open cycle of its aligned group, or begins a new cycle. `cycs` holds the latest first. -/
def addLane (addr lane x : Nat) (b : Byte) (write : Bool) : List TCycle → List TCycle
  | c :: rest =>
    if c.addr = BitVec.ofNat 32 addr then
      { c with be := c.be ||| BitVec.twoPow 4 lane
               data := if write then (c.data &&& ~~~((0xFF : BitVec 32) <<< (8 * lane))) ||| ((b.setWidth 32) <<< (8 * lane))
                       else c.data
               lanes := c.lanes ++ [(lane, x)] } :: rest
    else newCycle :: c :: rest
  | [] => [newCycle]
where
  newCycle : TCycle :=
    { addr := BitVec.ofNat 32 addr, be := BitVec.twoPow 4 lane,
      data := if write then (0xFFFFFFFF &&& ~~~((0xFF : BitVec 32) <<< (8 * lane))) ||| ((b.setWidth 32) <<< (8 * lane))
              else 0xFFFFFFFF,
      lanes := [(lane, x)] }

/-- R223, R198: the cycles of one part of a request on a hearth, in ascending crossing-address order. Each byte is given
by its BAR-0 offset; a used lane that is not enabled carries 0xFF. -/
def HearthCfg.downCycles (c : HearthCfg) (w : DWin) (write : Bool) (bytes : List (Nat × Byte)) : List TCycle :=
  (bytes.foldl
    (fun cycs p =>
      let d := p.1 - w.off
      let a := c.byteAddr w.dataInv w.base d
      addLane (a - a % c.lanes) (c.byteLane w.dataInv w.base d) p.1 p.2 write cycs) []).reverse

/-! ### Windows -/

def DWin.covers (w : DWin) (o : Nat) : Bool := decide (w.off ≤ o ∧ o < w.off + w.size)

/-- R221: the open downstream window that covers a BAR-0 offset, with its number. -/
def HearthCfg.down (c : HearthCfg) (o : Nat) : Option DWin :=
  c.dw.toList.findSome? fun w => match w with
    | some w => if w.covers o then some w else none
    | none => none

/-- R221: a request divided at window boundaries; `none` is a miss. -/
def HearthCfg.parts (c : HearthCfg) : Nat → Nat → Nat → Option (List (DWin × Nat × Nat))
  | 0, _, len => if len = 0 then some [] else none
  | fuel + 1, off, len =>
    if len = 0 then some []
    else
      match c.down off with
      | none => none
      | some w =>
        let k := min len (w.off + w.size - off)
        match c.parts fuel (off + k) (len - k) with
        | none => none
        | some rest => some ((w, off, k) :: rest)

/-- R227: the open upstream window that holds a hearth address. -/
def HearthCfg.up (c : HearthCfg) (a : Nat) : Option UWin :=
  c.uw.toList.findSome? fun w => match w with
    | some w => if w.base ≤ a ∧ a < w.base + w.size then some w else none
    | none => none

/-- R228: the crossing base of an upstream window; without an aperture a kind-0 window has none and 0 stands here. -/
def State.crossBase (s : State) (w : UWin) : Nat :=
  if w.kind = 0 then (match s.cfg.aperture with | some (b, _) => b + w.toff | none => w.toff) else w.toff

/-- R229: every byte lies inside the host aperture. -/
def State.inAperture (s : State) (bytes : List Nat) : Bool :=
  match s.cfg.aperture with
  | none => false
  | some (b, sz) => bytes.all fun x => decide (b ≤ x ∧ x < b + sz)

/-- R107, R160: the blocks of a range, cut at 64-byte address boundaries. -/
def splitBlocks : Nat → Nat → Nat → List (Nat × Nat)
  | 0, _, _ => []
  | fuel + 1, off, len =>
    if len = 0 then []
    else
      let k := min len (64 - off % 64)
      (off, k) :: splitBlocks fuel (off + k) (len - k)

/-- The blocks of a range. -/
def blocks (off len : Nat) : List (Nat × Nat) := splitBlocks (len / 64 + 2) off len

/-- The enabled bytes of a request by offset; a read carries 0 in place of data, and a missing enable counts as 1. -/
def enabledBytes (off len : Nat) (be : List Bool) (data : List Byte) : List (Nat × Byte) :=
  (List.range len).filterMap fun i => if be.getD i true then some (off + i, data.getD i 0) else none

/-- The bytes of a list that lie in a range. -/
def bytesIn (l : List (Nat × Byte)) (off len : Nat) : List (Nat × Byte) :=
  l.filter fun c => decide (off ≤ c.1 ∧ c.1 < off + len)

/-- R254, R262: the 8-byte words a piece of the hearthstone touches, ascending. -/
def wordsOf (l : List (Nat × Byte)) : List Nat :=
  l.foldl (fun ws c => if ws.getLast? = some (c.1 / 8) then ws else ws ++ [c.1 / 8]) []

/-! ### Protection -/

/-- R276. -/
def keyMatches (key tag : BitVec 4) : Bool := tag = 0 || key = tag

/-- R277: the used regions that hold a hearthstone byte, ascending, with their colours. -/
def State.regionsAt (s : State) (a : Nat) : List (Nat × BitVec 4) :=
  (List.finRange 32).filterMap fun r =>
    let g := vget s.cfg.regions r
    if g.used ∧ g.base ≤ a ∧ a < g.base + g.size then some (r.val, g.colour) else none

/-- R279: one byte passes the hearthstone unit. -/
def State.stonePasses (s : State) (key : BitVec 4) (a : Nat) : Bool :=
  match s.regionsAt a with
  | [] => true
  | [r] => keyMatches key r.2
  | _ => false

/-- R279, R281: the lowest failing byte of an access given by ascending addresses; `none` when it passes. -/
def State.stoneFault (s : State) (key : BitVec 4) (l : List Nat) : Option Nat :=
  if s.prot.inService then l.find? (fun a => !s.stonePasses key a) else l.head?

/-- R192, R283: a fault entry is written in ring order; count and index change with it. -/
def State.writeFault (s : State) (e : FaultEntry) : State :=
  { s with soot := { s.soot with
      faults := satInc 0xFFFF s.soot.faults
      entries := vset s.soot.entries s.soot.next (some e)
      next := s.soot.next + 1 } }

/-- R283: the fault entry of the hearthstone unit. -/
def State.stoneFaultEntry (s : State) (a : Nat) (key : BitVec 4) (port : PortId) (kind : AccKind) : FaultEntry :=
  let hits := s.regionsAt a
  { addr := BitVec.ofNat 32 a
    first := (hits.map (·.1)).getD 0 0x3F
    second := (hits.map (·.1)).getD 1 0x3F
    key := key
    tag := (hits.map (·.2)).getD 0 0
    port := port, pos := if port.val = 16 then 0 else s.pos, kind := kind, downstream := false, hearth := 0, tally := s.now }

/-- R283: the fault entry of the downstream unit of hearth `m`. -/
def State.downFaultEntry (s : State) (m : HearthId) (a : Nat) (key : BitVec 4) (port : PortId) (pos : Fin 4)
    (kind : AccKind) : FaultEntry :=
  { addr := BitVec.ofNat 32 a, first := 0x3F, second := 0x3F, key := key, tag := (s.hearth m).cfg.ktag, port := port,
    pos := pos, kind := kind, downstream := true, hearth := m, tally := s.now }

end Sys2Proof.Machine
end

