-- ==== Sys2Proof/Machine/Paths.lean ====
section
/-! DEFINITION. The paths of the chimney (R286, R288, R304), and the port a piece or an interrupt change crosses to. -/

namespace Sys2Proof.Machine

open Sys2Proof

/-- R304: what this bridge knows of its own link at flue `f`: 0 unknown, 1 ACTIVE, 2 DEAD with reroute, 3 DEAD with hold. Of a DEAD
link whose far end has never sent an advertisement the own strap alone gives the policy (DESIGN CHOICE, entry 79: R304 needs
both ends' straps). -/
def State.ownKnow (s : State) (f : FlueId) : Nat :=
  let x := s.flue f
  match x.st with
  | .active => 1
  | .dead =>
    let own := match f with | .a => s.cfg.holdA | .b => s.cfg.holdB
    if own || (match x.far with | some a => a.hold | none => false) then 3 else 2
  | _ => 0

/-- The number of the link at a flue end (R286). -/
def State.linkOf (s : State) (f : FlueId) : Nat :=
  match f with
  | .a => s.pos.val
  | .b => (s.pos.val + s.cfg.csize - 1) % s.cfg.csize

/-- R292, R304: what this bridge knows of link `i`: its own ends, else what an ACTIVE flue's far end has told; where the two
flues' far ends differ, Flue A's counts (DESIGN CHOICE, entry 80: R304 does not say which). -/
def State.linkKnow (s : State) (i : Nat) : Nat :=
  if i = s.linkOf .a then s.ownKnow .a
  else if i = s.linkOf .b then s.ownKnow .b
  else
    let told := fun (f : FlueId) => match (s.flue f).st, (s.flue f).far with
      | .active, some a => (a.know.toList.map (·.val)).getD i 0
      | _, _ => 0
    if told .a ≠ 0 then told .a else told .b

/-- R288: the links of the path to position `q` by a flue. -/
def State.pathLinks (s : State) (q : Fin 4) (f : FlueId) : List Nat :=
  let c := s.cfg.csize
  let up := (q.val + c - s.pos.val) % c
  match f with
  | .a => (List.range up).map fun i => (s.pos.val + i) % c
  | .b => (List.range ((c - up) % c)).map fun i => (s.pos.val + c - 1 - i) % c

/-- R304: each link of the path is ACTIVE. -/
def State.pathUsable (s : State) (q : Fin 4) (f : FlueId) : Bool :=
  s.chimney && (s.pathLinks q f).all fun i => s.linkKnow i = 1

/-- R288: the preferred path has fewer links; Flue A when both have the same number. -/
def State.preferred (s : State) (q : Fin 4) : FlueId :=
  if (s.pathLinks q .a).length ≤ (s.pathLinks q .b).length then .a else .b

/-- R304: the path for traffic toward position `q` that keeps no earlier path; `none` holds. -/
def State.freshPath (s : State) (q : Fin 4) : Option FlueId :=
  let f := s.preferred q
  let g := FlueId.other f
  if s.pathUsable q f then some f
  else if s.pathUsable q g ∧ (s.pathLinks q f).all (fun i => s.linkKnow i ≠ 3 ∧ s.linkKnow i ≠ 0) then some g
  else none

/-- R304: traffic of one destination and class keeps its path while one of its pieces is uncovered, unless a DEAD link lies
on it. -/
def State.pathFor (s : State) (q : Fin 4) (cls : Cls) : Option FlueId :=
  match s.chim.store.find? (fun x => x.dst = q ∧ x.piece.cls = cls) with
  | some x =>
    if (s.pathLinks q x.via).any (fun i => s.linkKnow i = 2 ∨ s.linkKnow i = 3) then s.freshPath q
    else if s.pathUsable q x.via then some x.via else none
  | none => s.freshPath q

/-- The flue port pieces for position `q` are switched to. -/
def State.portToward (s : State) (q : Fin 4) (cls : Cls) : PortId :=
  fluePort (match s.pathFor q cls with | some f => f | none => s.preferred q)

/-- R97, R243, R249: the port of this bridge at which a change has its sink, or over which it leaves toward it. -/
def State.changeDst (s : State) (c : Change) : PortId :=
  let e := c.entry.toNat
  match e / 64 with
  | 1 => if c.pos = s.pos ∧ s.mode = .m3 then s.portToward 0 .interrupt else 16
  | 2 => hearthPort (Fin.ofNat 16 (e / 4 % 16))
  | 3 =>
    let q : Fin 4 := Fin.ofNat 4 (e / 16)
    if q = s.pos ∨ c.pos ≠ s.pos then hearthPort (Fin.ofNat 16 e) else s.portToward q .interrupt
  | _ => 16

end Sys2Proof.Machine
end

