-- ==== Sys2Proof/Machine/Flags.lean ====
section
/-! DEFINITION. Error flags and status outputs: AER and Status recording (R310 to R313), the hearth-side events of R311,
FAULT_N (R314), CALSTAT (R143) and READY. Bit positions of the AER and Status registers are those of the PCI Express
specification (PRESUMED, entry 9). -/

namespace Sys2Proof.Machine

open Sys2Proof

/-- R310: uncorrectable errors the bridge detects. -/
inductive UncErr
  | dlp | poisoned | fcp | cplTimeout | cplAbort | unexpectedCpl | rxOverflow | malformed | ur
  deriving DecidableEq, Repr

def UncErr.bit : UncErr → Nat
  | .dlp => 4 | .poisoned => 12 | .fcp => 13 | .cplTimeout => 14 | .cplAbort => 15 | .unexpectedCpl => 16
  | .rxOverflow => 17 | .malformed => 18 | .ur => 20

/-- R310: the errors whose header is logged. -/
def UncErr.logsHeader : UncErr → Bool
  | .malformed => true
  | .poisoned => true
  | .ur => true
  | .cplAbort => true
  | .unexpectedCpl => true
  | _ => false

/-- R310: correctable errors the bridge detects. -/
inductive CorErr
  | receiver | badTlp | badDllp | rollover | replayTimer | advisory | internal
  deriving DecidableEq, Repr

def CorErr.bit : CorErr → Nat
  | .receiver => 0 | .badTlp => 6 | .badDllp => 7 | .rollover => 8 | .replayTimer => 12 | .advisory => 13 | .internal => 14

/-- R185, R310: the uncorrectable mask and severity bits that are writable. -/
def uncWritable : Dword := 0x0017F010
/-- R185, R310: the correctable mask bits that are writable. -/
def corWritable : Dword := 0x000071C1

def bitOf (w : Nat) (i : Nat) : BitVec w := BitVec.twoPow w i

/-- The header words of an error without a logged header. -/
def noHeader : Vector Dword 4 := Vector.replicate 4 0

/-- R310: a correctable error sets its status bit and Correctable Error Detected. -/
def FnCfg.setCor (c : FnCfg) (e : CorErr) : FnCfg :=
  { c with corSta := c.corSta ||| bitOf 32 e.bit, devsta := c.devsta ||| 1 }

/-- R310: the error is reported with a message: unmasked and enabled. -/
def FnCfg.sendsCor (c : FnCfg) (e : CorErr) : Bool := !c.corMask.getLsbD e.bit && c.devctl.getLsbD 0

/-- R310: severity bit 1 is fatal. -/
def FnCfg.fatal (c : FnCfg) (e : UncErr) : Bool := c.uncSev.getLsbD e.bit

/-- R310: the uncorrectable status bit, the header log of the first unmasked error, and the Device Status bits. A case of Advisory
Non-Fatal that is masked sets its correctable bit and no uncorrectable field (entry 23). -/
def FnCfg.setUnc (c : FnCfg) (e : UncErr) (advisory : Bool) (hdr : Vector Dword 4) : FnCfg :=
  let unmasked := !c.uncMask.getLsbD e.bit
  let asAdvisory := advisory && !c.fatal e
  let quiet := asAdvisory && c.corMask.getLsbD CorErr.advisory.bit
  let first := unmasked && !quiet && decide (c.uncSta &&& ~~~c.uncMask = 0)
  let ur : BitVec 4 := if e = .ur then 8 else 0
  let dev : BitVec 4 := if asAdvisory then 1 else if c.fatal e then 4 else 2
  { c with
    uncSta := if quiet then c.uncSta else c.uncSta ||| bitOf 32 e.bit
    corSta := if asAdvisory then c.corSta ||| bitOf 32 CorErr.advisory.bit else c.corSta
    devsta := c.devsta ||| dev ||| ur
    hdrLog := if first && e.logsHeader then hdr else c.hdrLog
    firstErr := if first then BitVec.ofNat 5 e.bit else c.firstErr
    status := if e = .poisoned then c.status ||| bitOf 16 15 else c.status }

/-- R310: the message an uncorrectable error asks for, if any. -/
def FnCfg.uncMessage (c : FnCfg) (e : UncErr) (advisory : Bool) : Option TxKind :=
  let urOk := e != .ur || c.devctl.getLsbD 3
  if c.uncMask.getLsbD e.bit then none
  else if advisory && !c.fatal e then
    (if !c.corMask.getLsbD CorErr.advisory.bit && c.devctl.getLsbD 0 && urOk then some .errCor else none)
  else if c.fatal e then (if (c.devctl.getLsbD 2 && urOk) || c.serr then some .errFatal else none)
  else if (c.devctl.getLsbD 1 && urOk) || c.serr then some .errNonfatal else none

/-- R23, R310: the message leaves as a host-level item in every mode but M7; with SERR# Enable, a NONFATAL or FATAL
message sets Signaled System Error. -/
def State.errMessage (s : State) (f : FnId) (k : Option TxKind) : State :=
  match k with
  | none => s
  | some k =>
    if s.mode = .m7 then s
    else
      let s1 := if k ≠ .errCor ∧ (s.fn f).serr then s.modFn f (fun c => { c with status := c.status ||| bitOf 16 14 }) else s
      s1.presentMessage k f [] Config.costHeader

/-- A correctable error recorded in function `f`, if exposed. -/
def State.recordCor (s : State) (f : FnId) (e : CorErr) : State :=
  if s.exposed f.val then
    let send := (s.fn f).sendsCor e
    (s.modFn f (fun c => c.setCor e)).errMessage f (if send then some .errCor else none)
  else s

/-- An uncorrectable error recorded in function `f`, if exposed. `advisory` marks the cases the PCI Express
specification handles as Advisory Non-Fatal. -/
def State.recordUnc (s : State) (f : FnId) (e : UncErr) (advisory : Bool) (hdr : Vector Dword 4) : State :=
  if s.exposed f.val then
    let msg := (s.fn f).uncMessage e advisory
    (s.modFn f (fun c => c.setUnc e advisory hdr)).errMessage f msg
  else s

/-- The functions 0 to 64. -/
def allFns : List FnId := List.finRange 65

/-- R310: a message about the link is sent by the lowest exposed function whose masks and enables allow it (entry 22). -/
def State.sender (s : State) (allows : FnCfg → Bool) : Option FnId :=
  allFns.find? fun f => s.exposed f.val && allows (s.fn f)

/-- R310: that message leaves, if some function allows it. -/
def State.linkMessage (s : State) (k : TxKind) (f : Option FnId) : State :=
  match f with
  | some f => s.errMessage f (some k)
  | none => s

/-- R310: a link error is recorded in every exposed function; one message is sent (entry 22). -/
def State.linkCor (s : State) (e : CorErr) : State :=
  let s1 := { s with fns := vmap (fun (f : FnId) (c : FnCfg) => if s.exposed f.val then c.setCor e else c) s.fns }
  s1.linkMessage .errCor (s.sender fun c => c.sendsCor e)

/-- R310: an uncorrectable link error: one message of each severity that some function gives it (entry 22). -/
def State.linkUnc (s : State) (e : UncErr) : State :=
  let s1 := { s with fns := vmap (fun (f : FnId) (c : FnCfg) => if s.exposed f.val then c.setUnc e false noHeader else c) s.fns }
  (s1.linkMessage .errFatal (s.sender fun c => c.uncMessage e false = some .errFatal)).linkMessage .errNonfatal
    (s.sender fun c => c.uncMessage e false = some .errNonfatal)

/-- R311: a hearth-side event sets Corrected Internal Error in the function given. -/
def State.logEvent (s : State) (f : FnId) : State := s.recordCor f .internal

/-- R313: bits of the Status register: 11 Signaled Target Abort, 12 Received Target Abort, 13 Received Master Abort,
8 Master Data Parity Error. -/
def State.setStatus (s : State) (f : FnId) (bit : Nat) : State :=
  if s.exposed f.val then s.modFn f (fun c => { c with status := c.status ||| bitOf 16 bit }) else s

/-! ### Outputs -/

/-- R60: region `r`'s ball at global index `i` is ignored: outside M5 and M6, the other three balls of a region whose
size ball reads VALID code 15. -/
def State.ignoredGlobal (s : State) (i : Fin 180) : Bool :=
  if 52 ≤ i.val ∧ !s.mode.tests ∧ (i.val - 52) % 4 ≠ 2 then
    let z := vget s.straps.globals ⟨(52 + 4 * ((i.val - 52) / 4) + 2) % 180, Nat.mod_lt _ (by omega)⟩
    z.own = .valid && z.code = 15
  else false

/-- R314: a global strap has a status other than VALID, an ignored ball excepted. -/
def State.badGlobal (s : State) : Bool :=
  (List.finRange 180).any fun i => (vget s.straps.globals i).shown != .valid && !s.ignoredGlobal i

/-- R314: an exposed function has an unmasked fatal error. -/
def State.fatalError (s : State) : Bool :=
  allFns.any fun f => s.exposed f.val && (s.fn f).uncSta &&& ~~~(s.fn f).uncMask &&& (s.fn f).uncSev != 0

/-- R314, R335: the conditions that hold FAULT_N low. -/
def State.faultCond (s : State) : Bool :=
  s.badGlobal
    || allHearths.any (fun n => (s.hearth n).slot = .strapFault)
    || (!s.mode.tests && !s.prot.inService)
    || (s.chimney && (s.flueA.st = .dead || s.flueB.st = .dead))
    || s.fatalError
    || (s.mode.tests && s.testSeen)

/-- R85, R297, R314, R351: FAULT_N is low; it rises in the tick after the last condition ends. -/
def State.faultLow (s : State) : Bool :=
  if !s.clk.counting || s.island.perstLow || !s.straps.checkedOnce then false
  else s.clk.memberLost || s.faultCond || s.faultPrev

/-- The domain of a bellows lane (R96, R135). -/
def laneDom (l : LaneId) : DomainId :=
  if l.val < 16 then domOf (16 + l.val) else if l.val < 24 then domOf (24 + l.val) else domOf (34 + l.val)

/-- R143: CALSTAT is low. -/
def State.calstatLow (s : State) : Bool :=
  !s.clk.counting || !s.readyOnce ||
    (List.finRange 32).any fun l =>
      (s.dom (laneDom l)).isOn && match (s.lane l).st with
        | .acquiring => true
        | .pinned => true
        | .starved => true
        | _ => false

/-- R85, R87: READY. -/
def State.readyHigh (s : State) : Bool := s.clk.counting && s.clk.live && s.gate

/-- R116: age in refills of a held item. -/
def State.age (s : State) (it : Item) : Nat :=
  match it.heldAt with
  | none => 0
  | some r => s.ledger.refills - r

/-- R116: the oldest held item; the first in admission order among those first held in the same tick. -/
def State.oldestHeld (s : State) : Option Item :=
  (s.waitingItems.filter (fun it => it.heldAt.isSome)).foldl
    (fun best it =>
      match best with
      | none => some it
      | some b => if s.since b.heldTick < s.since it.heldTick then some it else some b) none

/-- R116: ledger state codes. -/
def State.ledgerCode (s : State) : Nat :=
  match s.ledger.st with
  | .closed => 0
  | .off => 5
  | .opened =>
    match s.oldestHeld with
    | none => 1
    | some it => if s.age it ≤ 1 then 2 else if s.age it ≤ 7 then 3 else 4

/-- R116: the LTR field of a ledger state; none when CLOSED. -/
def State.ltrValue (s : State) : Option (BitVec 16) :=
  match s.ledgerCode with
  | 0 => none
  | 1 => some 0x880A
  | 2 => some 0x8814
  | 3 => some 0x8850
  | 4 => some 0x8940
  | _ => some 0x880A

/-- R109: the code of the level an item waits in. -/
def State.levelCode (s : State) (it : Item) : Nat :=
  if s.items.service.any (fun x => x.id = it.id) then 0 else if s.items.host.any (fun x => x.id = it.id) then 1 else 2

/-! ### Work, wherever it is -/

def Work.isPiece (q : Piece → Bool) : Work → Bool
  | .piece p => q p
  | _ => false

/-- Some item, queue, bank slot or job holds a piece that `q` picks. -/
def State.anyPiece (s : State) (q : Piece → Bool) : Bool :=
  (s.waitingItems ++ s.items.admitted).any (fun it => it.work.isPiece q)
    || s.sw.q.toList.any (fun l => l.any q)
    || s.banks.toList.any (fun b => b.slots.toList.any fun o => match o with | some sp => q sp.piece | none => false)
    || s.hearths.toList.any (fun h => h.bus.jobs.any fun j => q j.piece)

/-- R98: hearth `n` has work, a tag, a lock or a place in a queue of its own. -/
def State.hearthOwns (s : State) (n : HearthId) : Bool :=
  let h := s.hearth n
  h.cyc.isSome || h.lock.isSome || h.farLock.isSome || !h.bus.jobs.isEmpty || h.bus.breqLow || !h.posted.isEmpty
    || s.xtags.any (fun t => t.2 = n)
    || (s.tags.any fun t => match t.origin with | .cycle k _ => k = n | _ => false)
    || ((s.flueA.tags ++ s.flueB.tags).any fun t => match t.2.1 with | .cycle k _ => k = n | _ => false)

/-- R98: flue `f` has tags, stored pieces or arrivals that wait, or a lock of a hearth reaches over it. -/
def State.flueOwns (s : State) (f : FlueId) : Bool :=
  !(s.flue f).tags.isEmpty || (s.chim.held.any fun x => x.1 = f) || (s.chim.store.any fun x => x.via = f)
    || allHearths.any fun n =>
      (match (s.hearth n).lock with
        | some l => (match l.scope with | .bus p _ => p ≠ s.pos && s.portToward p .nonPosted = fluePort f | .word _ => false)
        | none => false)
      || (match (s.hearth n).farLock with | some l => s.portToward l.pos .completion = fluePort f | none => false)

/-- R98: the domain holds work, tags, locks or credits, or a wake of a path with it waits or is admitted. -/
def State.domBusy (s : State) (d : DomainId) : Bool :=
  (s.waitingItems ++ s.items.admitted).any (fun it => it.path.contains d)
    || (if d.val = 161 then s.straps.seq.isSome || s.straps.job.isSome || s.straps.asked.isSome else false)
    || (if 140 ≤ d.val ∧ d.val < 156 then
          s.island.clearFrom.isSome
            || (vget s.banks (Fin.ofNat 16 (d.val - 140))).slots.toList.any Option.isSome
            || allHearths.any fun n => match (s.hearth n).lock with
                | some l => (match l.scope with | .word w => (bankOf (8 * w)).val + 140 = d.val | .bus _ _ => false)
                | none => false
        else false)
    || s.anyPiece (fun p => (piecePath p.src p.dst p.addr).contains d)
    || allHearths.any (fun n => (portPath (hearthPort n)).contains d && s.hearthOwns n)
    || (d.val = 139 && allHearths.any fun n => match (s.hearth n).lock with
          | some l => (match l.scope with | .word _ => true | .bus _ _ => false)
          | none => false)
    || (d.val = 136 && (!s.reqs.isEmpty || !s.txq.isEmpty || !s.tags.isEmpty || !s.sampler.queue.isEmpty))
    || (d.val = 137 && s.flueOwns .a)
    || (d.val = 138 && s.flueOwns .b)
    || s.irq.granted.any (fun c => (portPath c.via ++ portPath (s.changeDst c)).contains d)

/-- R98: a domain under the idle rule that has work is in use in every tick. -/
def State.useDom (s : State) (t : Tally) (d : DomainId) (x : DomState) : DomState :=
  match x with
  | .on l => if (Config.idlePeriod d.val).isSome ∧ s.domBusy d then .on t else .on (followTick t l)
  | x => x

/-- R26: a transaction is open, or work is queued or held, the clear of the hearthstone, a strap sequence and a replay among it. -/
def State.working (s : State) : Bool :=
  !s.waitingItems.isEmpty || !s.items.admitted.isEmpty || !s.sampler.queue.isEmpty || !s.reqs.isEmpty || !s.txq.isEmpty
    || !s.tags.isEmpty || !s.irq.granted.isEmpty || !s.chim.held.isEmpty
    || !s.chim.store.isEmpty || !s.chim.owed.isEmpty || !s.straps.resampleQ.isEmpty
    || s.straps.asked.isSome || s.straps.job.isSome || s.straps.seq.isSome || s.island.clearFrom.isSome || !s.dll.resend.isEmpty
    || s.sw.q.toList.any (fun l => !l.isEmpty)
    || s.banks.toList.any (fun b => b.slots.toList.any Option.isSome)
    || allHearths.any fun n =>
        let h := s.hearth n
        h.cyc.isSome || !h.bus.jobs.isEmpty || h.bus.breqLow || !h.posted.isEmpty || h.reload.isSome
          || (match h.drain with | some d => d.rsto.isNone | none => false)

/-- R26: the core runs: something is open, queued or held, or a wake event is pending. -/
def State.coreRuns (s : State) : Bool := s.wake || s.working

/-- R132: the bridge is quiescent, apart from the next alarm. -/
def State.quiet (s : State) : Bool :=
  s.waitingItems.isEmpty && s.items.admitted.isEmpty && s.sampler.queue.isEmpty && s.reqs.isEmpty &&
    s.straps.resampleQ.isEmpty && s.straps.job.isNone &&
    allHearths.all fun n =>
      let h := s.hearth n
      h.cyc.isNone && h.lock.isNone && h.reload.isNone && h.drain.isNone && h.resetFrom.isNone && h.bus.jobs.isEmpty &&
        !h.bus.breqLow && h.posted.isEmpty && h.slot != .removable && h.slot != .strapFault

end Sys2Proof.Machine
end

