-- ==== Sys2Proof/Machine/Tick.lean ====
section
/-! DEFINITION. What a tick does of itself, and how a command named for an event at a fixed tick brings the clock to that
tick (entry 1 of the assumption log). -/

namespace Sys2Proof.Machine

open Sys2Proof

/-- R213, R214: hearth `n` enters SAMPLING and its resample is queued. -/
def State.enterSampling (s : State) (n : HearthId) : State :=
  let s1 := s.modHearth n fun h => { h with slot := .sampling }
  { s1 with wake := true, straps := { s1.straps with
      resampleQ := if s1.straps.resampleQ.contains n then s1.straps.resampleQ else s1.straps.resampleQ ++ [n] } }

/-- R195, R201, R207, R208, R262: in the tick after read data are driven HnACK_N falls, and in the tick after a beat its data
are driven; a response driven high is released, a HnTAP_N pulse ends, and so does the wait before HnBREQ_N may fall; HnBREQ_N rises in the tick after the bus is let go. R10: the ticks of
entry, of a last reload and of a last press are followed. R338: with `quiet` no cycle is acknowledged. -/
def Hearth.tick (quiet : Bool) (t : Tally) (h : Hearth) : Hearth :=
  let pastDue := fun (e : Tally) => decide (ticksSince t e < 2 ^ 47)
  let h1 := { h with
    rising := none
    tapTill := h.tapTill.filter fun e => !pastDue e
    bus := { h.bus with
      breqLow := h.bus.breqLow && h.bus.breqFrom.isNone
      breqFrom := h.bus.breqFrom.filter fun e => !pastDue e }
    blinkFrom := followTick t h.blinkFrom
    sloadLast := h.sloadLast.map (followTick t)
    attnLast := h.attnLast.map (followTick t) }
  match h1.cyc with
  | some c =>
    if c.phase = .driving ∧ !quiet then
      { h1 with cyc := some { c with phase := .answered .ack t }, ackLow := true, waitLow := false,
                lock := h1.lock.map (fun l => if h1.lockSeen then { l with last := some t } else l) }
    else
      match c.fetched with
      | some d => { h1 with hd := some d, cyc := some { c with phase := .driving, rdata := d, fetched := none } }
      | none => h1
  | none => h1

/-- R292, R302: the most blocks the sender lets pass without a FILLER. -/
def State.fillerBound (s : State) : Nat := if s.cfg.fwd then 4096 else 1024

/-- R292: the blocks of a piece: the PIECE block, and a data block unless it is a read or its length is 0. -/
def FlueBlk.blocks : FlueBlk → Nat
  | .piece b => if b.bytes.isEmpty ∨ b.kind = .read ∨ b.kind = .lockedRead then 1 else 2
  | _ => 1

/-- R289, R292, R302: the blocks the end of a link sends for one tick: TRAIN blocks outside ACTIVE; on an ACTIVE end those presented,
with a FILLER when there is none and before as many have passed without one as the bound allows. -/
def Flue.sends (x : Flue) (bound : Nat) : List FlueBlk :=
  match x.st with
  | .disabled => []
  | .active =>
    if x.out.isEmpty then [.filler]
    else if bound ≤ x.sinceFill + (x.out.map FlueBlk.blocks).sum then .filler :: x.out
    else x.out
  | _ => [.train]

/-- R292: the blocks of a tick have left. -/
def Flue.sent (x : Flue) (bound : Nat) : Flue :=
  { x with out := [], sinceFill :=
      if (x.sends bound).contains .filler then (x.out.map FlueBlk.blocks).sum else x.sinceFill + (x.out.map FlueBlk.blocks).sum }

/-- R214: a POWERING hearth whose HnPGOOD is already high enters SAMPLING in the tick after entry. -/
def State.powerOn (s : State) : State :=
  forHearths (fun n s => if (s.hearth n).slot = .powering ∧ (s.hearth n).pgood then s.enterSampling n else s) s

/-- One tick passes, if ticks pass (R78, R133, R297): the tally counts, what lasts one tick ends, and domains with work
are in use (R98). -/
def State.tick (s : State) : State :=
  if s.running then
    let t := tickPlus s.clk.tally 1
    let low := s.anyHeld
    { s with
      clk := { s.clk with tally := t }
      faultPrev := s.faultCond
      wake := false
      upNow := []
      doms := vmap (s.useDom t) s.doms
      link := { s.link with clkreqReleased := s.link.clkreqReleased && s.quiet && !s.wake }
      lockEnds := []
      dll := { s.dll with ackDue := false }
      sampler := { s.sampler with taken := false }
      ledger := { s.ledger with low := low, lowSeen := s.ledger.lowSeen || low }
      flueA := s.flueA.sent s.fillerBound
      flueB := s.flueB.sent s.fillerBound
      straps := { s.straps with free := followTick t s.straps.free }
      chim := { s.chim with reportTick := followTick t s.chim.reportTick, funcTick := followTick t s.chim.funcTick }
      hearths := vmap (fun _ h => h.tick s.scanDrives t) s.hearths : State }.powerOn
  else s

/-- The clock reaches tick `t`: ticks pass, with nothing else in them, until then. What the first of them and the last of
them end has ended. -/
def State.advanceTo (s : State) (t : Tally) : State :=
  if s.reached t then s
  else
    let s1 := s.tick
    if s1.reached t then s1 else ({ s1 with clk := { s1.clk with tally := tickPlus t (2 ^ 48 - 1) } }).tick

/-- The tick `n` ticks after T_S is reached. -/
def State.advanceTS (s : State) (n : Nat) : State := s.advanceTo (tickPlus s.clk.tS n)

end Sys2Proof.Machine
end

