-- ==== Sys2Proof/Machine/Work.lean ====
section
/-! DEFINITION. Open work and how it ends: pieces wherever they wait, the response to a hearth cycle (R199 to R205,
R232), the far-side outcomes (R236), interrupt sinks (R243 to R251), locks (R265 to R267), the sampler (R268 to R273),
paths and the send store of the chimney (R299, R304), and the progress of a host request (R160, R166, R222, R226). -/

namespace Sys2Proof.Machine

open Sys2Proof

/-! ### Pieces wherever they wait -/

/-- A sticky offer stands only while its piece is queued (R254). -/
def keepOffer (l : List Piece) : Option Nat → Option Nat
  | some x => if l.any (fun p => p.id = x) then some x else none
  | none => none

/-- A bank slot whose piece `q` picks is emptied unless its first beat is done. -/
def clearSlot (q : Piece → Bool) : Option SlotPiece → Option SlotPiece
  | some sp => if q sp.piece && !sp.begun then none else some sp
  | none => none

/-- Pieces not yet performed that `q` picks leave the bridge: unpaid items (R112), admitted ones, queued pieces, bank
slots whose first beat is not done, and jobs whose first cycle has not started (R233). -/
def State.removePieces (s : State) (q : Piece → Bool) : State :=
  let s1 := (s.dropItems fun it => it.work.isPiece q).dropAdmitted fun it => it.work.isPiece q
  let queues := vmap (fun (_ : PortId) l => l.filter fun p => !q p) s1.sw.q
  let offers := vmap (fun (i : PortId) o => keepOffer (vget queues i) o) s1.sw.offer
  let banks := vmap (fun (_ : Fin 16) (b : Bank) => { b with slots := vmap (fun (_ : Fin 17) o => clearSlot q o) b.slots }) s1.banks
  let hearths := vmap (fun (_ : HearthId) (h : Hearth) =>
    { h with bus := { h.bus with jobs := h.bus.jobs.filter fun j => !(q j.piece && !j.started) } }) s1.hearths
  { s1 with sw := { s1.sw with q := queues, offer := offers }, banks := banks, hearths := hearths }

/-- Class codes (R255). -/
def Cls.code : Cls → Nat
  | .posted => 0 | .nonPosted => 1 | .completion => 2 | .interrupt => 3

/-- The index 4 * position + class of the end-to-end tables. -/
def e2e (p : Fin 4) (c : Cls) : Fin 16 := ⟨4 * p.val + Cls.code c, by have := p.isLt; cases c <;> simp only [Cls.code] <;> omega⟩

/-- Entries of the store without those that `gone` picks; those behind one of their position and class take its number (R299). -/
def closeGaps (gone : Stored → Bool) : List Stored → List Stored → List Stored
  | _, [] => []
  | out, x :: rest =>
    if gone x then closeGaps gone (x :: out) rest
    else
      { x with num := x.num - BitVec.ofNat 16 (out.filter fun y => y.dst = x.dst && y.piece.cls = x.piece.cls).length } ::
        closeGaps gone out rest

/-- R233, R307: work that has ended leaves no piece in the send store that has never been sent, and no flue tag. One that has been
sent stays until it is covered, for its number is taken (DESIGN CHOICE, entry 81). -/
def State.dropStored (s : State) (q : Origin → Bool) : State :=
  let gone := fun (x : Stored) => !x.sent && q x.piece.origin
  let drop := fun (x : Flue) => { x with tags := x.tags.filter fun t => !q t.2.1 }
  { s with
    flueA := drop s.flueA
    flueB := drop s.flueB
    chim := { s.chim with
      nextNum := vmap (fun i n => n - BitVec.ofNat 16 (s.chim.store.filter fun x => gone x && e2e x.dst x.piece.cls = i).length) s.chim.nextNum
      store := closeGaps gone [] s.chim.store } }

/-- The piece works for hearth `n`'s cycle `serial`. -/
def Piece.forCycle (n : HearthId) (serial : Nat) (p : Piece) : Bool :=
  p.origin = .cycle n serial || p.origin = .posted n serial

/-- R234: crossing tags whose request is gone are released. -/
def State.freeTags (s : State) : State :=
  { s with xtags := s.xtags.filter fun t =>
      s.anyPiece fun p => p.tag = t.1 && (match p.origin with | .cycle n _ => n = t.2 | _ => false) }

/-- R255, R256: a piece joins the queue of its source. -/
def State.push (s : State) (p : Piece) : State :=
  { s with nextId := s.nextId + 1, wake := true,
           sw := { s.sw with q := vmod s.sw.q p.src fun l => l ++ [{ p with id := s.nextId }] } }

/-- The completion piece that answers `p` (R255): class 2, from its destination back to its source. -/
def Piece.reply (p : Piece) (bytes : List (Nat × Byte)) (status : CplStatus) (o : Origin) (t : Tally) : Piece :=
  { p with cls := .completion, kind := .completion, src := p.dst, dst := p.src, srcPos := p.dstPos, dstPos := p.srcPos,
           addr := 0, bytes := bytes, status := status, origin := o, far := p.reqPort, reqPort := p.far, readyAt := t }

/-! ### Responses to a hearth cycle -/

def Phase.isOpen : Phase → Bool
  | .blocked => true
  | .paying => true
  | .inFlight => true
  | _ => false

/-- R199, R202: the bridge asserts a response. -/
def Hearth.respond (h : Hearth) (r : Resp) (t : Tally) : Hearth :=
  { h with
    cyc := h.cyc.map fun c => { c with phase := .answered r t }
    waitLow := false
    waitNoClock := false
    ackLow := r = .ack
    berrLow := r = .berr
    dampLow := r = .damp
    hd := none
    lock := h.lock.map fun l => if h.lockSeen then { l with last := some t } else l }

/-- R247: a posted write of hearth `n` has been performed, ended or backed off. -/
def State.endPosted (s : State) (n : HearthId) (serial : Nat) : State :=
  s.modHearth n fun h => { h with posted := h.posted.filter (· ≠ serial) }

/-- R199, R338: the response to the open cycle of hearth `n`. While an EXTEST instruction is current no cycle is acknowledged: it stays
open, with its work done, until its wait ends. -/
def State.answer (s : State) (n : HearthId) (r : Resp) : State :=
  if r = .ack ∧ s.scanDrives then
    (s.modHearth n fun h => { h with cyc := h.cyc.map fun c => { c with phase := .inFlight } }).woken
  else (s.modHearth n fun h => h.respond r s.now).woken

/-- R204: the open cycle is backed off: it has had no effect. -/
def State.damp (s : State) (n : HearthId) : State :=
  match (s.hearth n).cyc with
  | none => s
  | some c =>
    let s1 := (s.removePieces (Piece.forCycle n c.serial)).freeTags
    (s1.answer n .damp).endPosted n c.serial

/-- The crossing bytes and lanes of an open cycle. -/
def State.cycleLanes (s : State) (n : HearthId) (c : Cycle) : List (Nat × Nat) :=
  (s.hearth n).cfg.upLanes c.win.dataInv c.win.base (s.crossBase c.win) c.addr.toNat c.be

/-- R201: read data are driven in this tick, HnACK_N in the next. -/
def State.driveRead (s : State) (n : HearthId) (got : List (Nat × Byte)) : State :=
  match (s.hearth n).cyc with
  | none => s
  | some c =>
    let d := (s.hearth n).cfg.readData (s.cycleLanes n c) got
    (s.modHearth n fun h => { h with hd := some d, cyc := some { c with phase := .driving, rdata := d, fetched := none } }).woken

/-- R262: the data of a hearthstone beat are available to the open cycle of hearth `n` in the next tick. -/
def State.fetchRead (s : State) (n : HearthId) (serial : Nat) (got : List (Nat × Byte)) : State :=
  match (s.hearth n).cyc with
  | none => s
  | some c =>
    if c.serial = serial ∧ c.phase = .inFlight then
      let d := (s.hearth n).cfg.readData (s.cycleLanes n c) got
      (s.modHearth n fun h => { h with cyc := some { c with fetched := some d } }).woken
    else s

/-- R236, for a hearth master: the open cycle ends under its window's far-side error mode. `ev` says that the event is
itself one of R311. -/
def State.farSide (s : State) (n : HearthId) (ev : Bool) : State :=
  match (s.hearth n).cyc with
  | none => s
  | some c =>
    if c.phase.isOpen then
      let s1 := if ev || !c.read then s.logEvent (fnOf n) else s
      let s2 :=
        if c.win.errResp then s1.answer n .berr
        else if c.read then s1.driveRead n []
        else s1.answer n .ack
      s2.endPosted n c.serial
    else s

/-- R158, R169: unsent TLPs of a read, or of a write whose MWr is unsent, are withdrawn. -/
def State.dropUnsent (s : State) (n : HearthId) (serial : Nat) : State :=
  let o := Origin.cycle n serial
  { s with txq := s.txq.filter fun t => !(t.origin = o && t.kind != .flush) &&
      !(t.origin = o && t.kind = .flush && s.txq.any fun u => u.origin = o && u.kind = .mwr) }

/-- R199, R219: the open cycle of hearth `n` ends without a response. Work of a write already captured goes on; the rest is
discarded whole. -/
def State.endCycle (s : State) (n : HearthId) : State :=
  match (s.hearth n).cyc with
  | none => s
  | some c =>
    let s1 :=
      if c.phase.isOpen ∧ !c.captured then
        ((((s.removePieces (Piece.forCycle n c.serial)).dropUnsent n c.serial).dropStored (· = .cycle n c.serial)).freeTags).endPosted n c.serial
      else s
    s1.modHearth n fun h => { h with cyc := none, waitLow := false, ackLow := false, berrLow := false, dampLow := false, hd := none }

/-- R211, R233: what a cycle whose wait expires leaves undone is dropped, unless it is a posted write already paid for or, where the
expiry releases a lock, a locked write already captured, which is performed whole (R267). -/
def State.dropCycleWork (s : State) (n : HearthId) (c : Cycle) (release : Bool) : State :=
  let kept := fun (p : Piece) => c.captured && (p.cls = .posted || release && p.kind = .lockedWrite)
  (((s.removePieces fun p => p.forCycle n c.serial && !kept p).dropUnsent n c.serial).dropStored (· = .cycle n c.serial)).freeTags

/-- R211, R215, R72: the open cycle ends as a watchdog expiry: work not begun is dropped, and the cycle is answered under
its far-side error mode. R338: where that would acknowledge it under EXTEST, it ends without a response (DESIGN CHOICE, entry 86: R338
ends the wait and acknowledges no cycle, and says no more). -/
def State.expireCycle (s : State) (n : HearthId) (release : Bool) : State :=
  match (s.hearth n).cyc with
  | none => s
  | some c =>
    if s.scanDrives ∧ !c.win.errResp ∧ (c.phase.isOpen ∨ c.phase = .driving) then
      (((s.dropCycleWork n c release).logEvent (fnOf n)).endPosted n c.serial).modHearth n fun h =>
        { h with cyc := none, strobeStuck := true, waitLow := false, hd := none }
    else if c.phase.isOpen then (s.dropCycleWork n c release).farSide n true
    else s

/-- R232, R236: the work of hearth `n`'s cycle `serial` has ended with `status`. A cycle no longer open discards it. -/
def State.completeCycle (s : State) (n : HearthId) (serial : Nat) (got : List (Nat × Byte)) (status : CplStatus) : State :=
  match (s.hearth n).cyc with
  | none => s
  | some c =>
    if c.serial = serial ∧ c.phase = .inFlight then
      if status = .sc then (if c.read then s.driveRead n got else s.answer n .ack) else s.farSide n false
    else s

/-! ### Sampler -/

/-- R268: the sampler is in service. -/
def State.samplerOn (s : State) : Bool := (s.mode = .m1 || s.mode = .m2 || s.mode = .m4) && s.cfg.ring.isSome

/-- R207: HnTAP_N pulses for a hearth port. -/
def State.tapPulse (s : State) (p : PortId) : State :=
  match portHearth p with
  | some n => s.modHearth n fun h => { h with tapTill := some (tickPlus s.now 2) }
  | none => s

/-- R271: the record of a captured frame. The payload is the enabled bytes in order; a read carries none (DESIGN CHOICE,
entry 66: R271 counts "payload bytes in the piece" and says no more). -/
def State.recordOf (s : State) (p : Piece) (c : Nat) : Record :=
  { seq := BitVec.ofNat 32 (c / 2 ^ s.cfg.ratio), tally := s.now, src := p.src, dst := p.dst, cls := p.cls,
    srcPos := p.srcPos, dstPos := p.dstPos,
    len := if p.kind = .read ∨ p.kind = .lockedRead then 0 else p.bytes.length, key := p.key, kind := p.kind,
    skipped := min s.sampler.skipped 0xFFFF, addr := p.addr, tag := p.tag, status := p.status,
    bytes := if p.kind = .read ∨ p.kind = .lockedRead then [] else (p.bytes.map (·.2)).take 32 }

/-- The piece that carries a record to port 16. -/
def samplePiece (fn : FnId) (t : Tally) : Piece :=
  { id := 0, cls := .posted, kind := .postedWrite, src := 16, dst := 16, srcPos := 0, dstPos := 0, key := 0, addr := 0,
    bytes := [], tag := 0x3FF, status := .sc, origin := .sample, fn := fn, wfn := fn, errResp := false, ca := false,
    far := 16, reqPort := 16, readyAt := t, input := 0, code := 0, whole := none }

/-- R269, R270: a frame is counted; a due frame is captured or skipped. -/
def State.countFrame (s : State) (p : Piece) : State :=
  if s.samplerOn ∧ p.origin ≠ .sample then
    let c := s.sampler.counter
    let s1 := { s with sampler := { s.sampler with counter := c + 1 } }
    if c % 2 ^ s.cfg.ratio = 0 then
      if s.sampler.taken ∨ 16 ≤ s.sampler.queue.length ∨ (s.fn 0).bme = false then
        { s1 with sampler := { s1.sampler with skipped := s1.sampler.skipped + 1 } }
      else
        let r := s.recordOf p c
        let s2 := { s1 with sampler := { s1.sampler with taken := true, queue := s1.sampler.queue ++ [r], skipped := 0 } }
        ((s2.tapPulse p.src).tapPulse p.dst).presentSlot samplerSlot 16 (portPath 16) 94 (.piece (samplePiece 0 s.now))
    else s1
  else s

/-! ### Interrupt sinks -/

/-- R244: an INTA wire's count is nonzero. -/
def State.intaCount (s : State) (f : FnId) : Bool := s.irq.asserted.any fun x => x.sink = .inta f

/-- R246: HmIRQO[l]_N is low. -/
def State.irqoLow (s : State) (m : HearthId) (l : Fin 4) : Bool :=
  ((s.hearth m).slot = .ready || (s.hearth m).slot = .inService || (s.hearth m).slot = .draining) &&
    s.irq.asserted.any fun x => x.sink = .irqo m l

/-- R195, R246: what the bridge does with HmIRQO[l]_N: driven by its count in a state with active pads, else
high-impedance. -/
def State.irqoLevel (s : State) (m : HearthId) (l : Fin 4) : Level3 :=
  if (s.hearth m).slot.pads then (if s.irqoLow m l then .low else .high) else .floating

/-- R317: from an FLR's tick to its completion the wire counts as deasserted. -/
def State.wireLevel (s : State) (f : FnId) : Bool := (s.fn f).flr.isNone && s.intaCount f

/-- R245: INTx messages of a function leave the bridge. -/
def State.intxAllowed (s : State) (f : FnId) : Bool :=
  !(s.fn f).intd && (s.fn f).power = .d0 && s.mode != .m7 && s.exposed f.val

/-- R244, R245: a wire whose level changed is told to the host. -/
def State.syncWire (s : State) (f : FnId) : State :=
  let new := s.wireLevel f
  if vget s.irq.wires f = new then s
  else
    let s1 := { s with irq := { s.irq with wires := vset s.irq.wires f new } }
    if s.intxAllowed f then s1.sendTlp (bareTlp (if new then .assertInta else .deassertInta) f) else s1

/-- R244, R245: every wire is compared, by ascending function, in which order the messages of one tick leave (DESIGN CHOICE,
entry 67: R245 gives none). -/
def State.syncWires (s : State) : State := forList allFns (fun f s => s.syncWire f) s

/-- R251: the class-1 entry that names the INTA wire of a chimney hearth's own function; a slot-event source, which has no
entry of its own, goes by it (entry 21). -/
def slotEntry (h : Fin 64) : BitVec 8 := BitVec.ofNat 8 (64 + h.val)

/-- R243, R251: the sink of a change on this bridge; `none` where M0 discards a class-1 change (R287). -/
def State.sinkOf (s : State) (c : Change) : Option Sink :=
  match c.entry.toNat / 64 with
  | 1 => if s.mode = .m0 then none else some (.inta (Fin.ofNat 65 (c.entry.toNat % 64 + 1)))
  | 2 => some (.irqo (Fin.ofNat 16 (c.entry.toNat / 4 % 16)) (Fin.ofNat 4 (c.entry.toNat % 4)))
  | 3 => some (.irqo (Fin.ofNat 16 (c.entry.toNat % 16)) 0)
  | _ => none

/-- R249: the position and port of a change's sink, when it is not on this bridge. -/
def State.changeTarget (s : State) (c : Change) : Option (Fin 4 × PortId) :=
  if c.pos ≠ s.pos then none
  else if c.entry.toNat / 64 = 1 then (if s.mode = .m3 then some (0, 16) else none)
  else
    match routeOf s.pos c.entry with
    | .remote q m => some (q, hearthPort m)
    | _ => none

/-- R271: an interrupt change as a piece: routing entry in bits [7:0] of its address, level in bit 8, and beside them its
source and the code that source records (entry 21). -/
def changePiece (c : Change) (dst far : PortId) (q : Fin 4) (t : Tally) : Piece :=
  { id := 0, cls := .interrupt, kind := .irqChange, src := c.via, dst := dst, srcPos := c.pos, dstPos := q, key := c.key,
    addr := c.entry.toNat + (if c.level then 256 else 0),
    bytes := [], tag := 0x3FF, status := .sc, origin := .change c, fn := fnOf c.hearth, wfn := fnOf c.hearth, errResp := false,
    ca := false, far := far, reqPort := hearthPort c.hearth, readyAt := t, input := c.input, code := c.slotCode.getD 0, whole := none }

/-- The local port of a change's sink. -/
def State.sinkPort (s : State) (c : Change) : PortId :=
  match s.sinkOf c with
  | some (.irqo m _) => hearthPort m
  | _ => 16

/-- R97, R247, R249, R255: an admitted change joins the pieces of its source; one from another position goes on in the tick after
its admission. -/
def State.pushChange (s : State) (c : Change) (t : Tally) : State :=
  let t1 := if c.pos = s.pos then t else tickPlus t 1
  match s.changeTarget c with
  | some (q, far) => s.push (changePiece c (s.portToward q .interrupt) far q t1)
  | none => s.push (changePiece c (s.sinkPort c) (s.sinkPort c) s.pos t1)

/-- R183: a source asserts toward a function outside D0 with PME_En 1. -/
def State.pmeFor (s : State) (k : Sink) : State :=
  match k with
  | .inta f =>
    if (s.fn f).power ≠ .d0 ∧ (s.fn f).pmeEn ∧ s.exposed f.val then
      let s1 := s.modFn f fun c => { c with pmeStatus := true }
      if s.mode = .m7 then s1 else s1.presentMessage .pmPme f [] Config.costHeader
    else s
  | .irqo _ _ => s

/-- R251: the slot-event source of a chimney hearth is set with a code, or cleared. -/
def State.setSlotSource (s : State) (h : Fin 64) (code : Option Nat) : State :=
  { s with irq := { s.irq with slotEvents := vset s.irq.slotEvents h code } }

/-- R251: the clear of a slot-event source that an event has set again since. -/
def State.setAgain (s : State) (c : Change) : Bool :=
  c.input.val = 8 && !c.level && c.slotCode.isNone && (vget s.irq.slotEvents (chimneyOf c.pos c.hearth)).isSome

/-- R244, R251: one applied change moves the count of its sink; a source counts once. A member's slot event sets the source
that position 0 holds for it. -/
def State.applyChange (s : State) (c : Change) : State :=
  match s.sinkOf c with
  | none => s
  | some k =>
    let src : Src := { pos := c.pos, hearth := c.hearth, input := c.input, entry := c.entry, sink := k }
    let h := chimneyOf c.pos c.hearth
    let s1 := match c.slotCode with
      | some code => if c.pos = s.pos then s else s.setSlotSource h (if c.level then some code else none)
      | none => s
    if s.setAgain c then s
    else if c.level then
      if s.irq.asserted.contains src then s1
      else ({ s1 with irq := { s1.irq with asserted := src :: s1.irq.asserted } : State }).pmeFor k
    else { s1 with irq := { s1.irq with asserted := s1.irq.asserted.erase src } }

/-! ### End-to-end delivery -/

/-- R299: bytes a piece takes in a send store or a receive buffer: a block, or two with data. -/
def Piece.stored (p : Piece) : Nat := if p.bytes.isEmpty ∨ p.kind = .read ∨ p.kind = .lockedRead then 64 else 128

/-- R299: bytes held in the send store of a class. -/
def State.storeUsed (s : State) (c : Cls) : Nat :=
  ((s.chim.store.filter fun x => x.piece.cls = c).map fun x => x.piece.stored).sum

/-- R307: non-posted pieces of this bridge in flight on a link. -/
def State.flueNp (s : State) (f : FlueId) : Nat := (s.flue f).tags.length

/-- R307: the lowest free flue tag. -/
def lowestFree (used : List Nat) (base bound : Nat) : Option Nat :=
  ((List.range bound).map (base + ·)).find? fun t => !used.contains t

/-- R290: the PIECE block of a piece. -/
def State.blockOf (p : Piece) (num : BitVec 16) : PieceBlk :=
  { cls := p.cls, srcPos := p.srcPos, dstPos := p.dstPos, locked := p.kind = .lockedRead ∨ p.kind = .lockedWrite,
    srcPort := p.reqPort, kind := p.kind, dstPort := p.far, status := p.status, key := p.key, tag := p.tag, addr := p.addr,
    bytes := p.bytes, num := num, input := p.input, code := p.code, whole := p.whole }

def State.emit (s : State) (f : FlueId) (b : FlueBlk) : State := s.modFlue f fun x => { x with out := x.out ++ [b] }

/-- R298, R299, R304: a piece of the store may leave now: its path carries traffic, and the far end's class is not in XOFF. -/
def State.maySend (s : State) (x : Stored) : Bool :=
  x.due && s.gate && s.pathUsable x.dst x.via && !(s.flue x.via).farXoff.getLsbD (Cls.code x.piece.cls)

/-- R299, R301: the pieces of the store that have still to leave do so, in number order within each class. -/
def State.flushStore (s : State) : State :=
  let s1 := forList (s.chim.store.filter s.maySend) (fun x s => s.emit x.via (.piece (State.blockOf x.piece x.num))) s
  { s1 with chim := { s1.chim with
      store := s.chim.store.map fun x => if s.maySend x then { x with due := false, sent := true } else x } }

/-- R299: a piece leaves for another position: it is numbered, kept, and sent when its path carries traffic. -/
def State.sendOver (s : State) (f : FlueId) (p : Piece) : State :=
  let i := e2e p.dstPos p.cls
  let num := vget s.chim.nextNum i
  let s1 : State := { s with chim := { s.chim with
      nextNum := vset s.chim.nextNum i (num + 1)
      store := s.chim.store ++ [({ dst := p.dstPos, num := num, via := f, piece := p, due := true, sent := false } : Stored)]
      via := vset s.chim.via p.dstPos (some f) } }
  s1.flushStore

/-- R307: the flue tag of a piece whose first link changes to `f` moves there with its count. It keeps its number where that is free,
for the far side may have accepted the piece (DESIGN CHOICE, entry 81: R307 gives the lowest free number of one link and R301 does
not speak of it). -/
def State.moveTag (s : State) (f : FlueId) (x : Stored) : State × Stored :=
  if x.piece.cls = .nonPosted ∧ x.via ≠ f then
    match (s.flue x.via).tags.find? fun t => t.1 = x.piece.tag ∧ t.2.1 = x.piece.origin with
    | some t =>
      let used := (s.flue f).tags.map (·.1)
      let new := if used.contains t.1 then (lowestFree used 0 Config.flueNp).getD t.1 else t.1
      let s1 := s.modFlue x.via fun k => { k with tags := k.tags.erase t }
      (s1.modFlue f fun k => { k with tags := k.tags ++ [(new, t.2)] }, { x with via := f, piece := { x.piece with tag := new } })
    | none => (s, { x with via := f })
  else (s, { x with via := f })

/-- R301, R307: each piece that `q` picks goes over flue `f` from now on, and is due again. -/
def State.moveStore (s : State) (f : FlueId) (q : Stored → Bool) : List Stored → State × List Stored
  | [] => (s, [])
  | x :: rest =>
    if q x then
      let (s1, y) := s.moveTag f x
      let (s2, l) := State.moveStore s1 f q rest
      (s2, { y with due := true } :: l)
    else
      let (s2, l) := State.moveStore s f q rest
      (s2, x :: l)

/-- R301: pieces toward `q` still in the store are sent again, in number order within each class. -/
def State.resend (s : State) (q : Fin 4) (c : Cls) : State :=
  match s.pathFor q c with
  | none => s
  | some f =>
    let (s1, l) := State.moveStore s f (fun x => x.dst = q && x.piece.cls = c) s.chim.store
    let s2 : State := { s1 with chim := { s1.chim with store := l } }
    s2.flushStore

/-- R300, R306: a RECEIPT carries counts, so a later one for the same pair of positions says all that an earlier one does; so
does a FUNC block of the same hearth. -/
def FlueBlk.replaces : FlueBlk → FlueBlk → Bool
  | .receipt a, .receipt b => a.dst = b.dst && a.src = b.src
  | .func a m, .func b k => a = b && m.hearth = k.hearth
  | _, _ => false

/-- R300, R308: a control block for position `q` leaves over the path to it, and waits for one when there is none. -/
def State.control (s : State) (q : Fin 4) (b : FlueBlk) : State :=
  match s.freshPath q with
  | some f => s.emit f b
  | none => { s with chim := { s.chim with owed := (s.chim.owed.filter fun x => !(x.1 = q && b.replaces x.2)) ++ [(q, b)] } }

/-- R300, R308: control blocks that waited for a path leave as there is one. -/
def State.payOwed (s : State) : State :=
  forList s.chim.owed (fun x s => s.control x.1 x.2) { s with chim := { s.chim with owed := [] } }

/-- R240, R308: a request from another position is backed off, with no effect. -/
def State.sendBackoff (s : State) (q : Fin 4) (port : PortId) (tag : Nat) : State := s.control q (.backoff q port tag)

def allPos : List (Fin 4) := [0, 1, 2, 3]
def allCls : List Cls := [.posted, .nonPosted, .completion, .interrupt]

/-- R300: a RECEIPT toward a source position. -/
def State.receipt (s : State) (src : Fin 4) : State :=
  s.control src (.receipt
    { dst := s.pos, src := src, accepted := Vector.ofFn fun c => vget s.chim.expect ⟨4 * src.val + c.val, by omega⟩
      performed := vget s.chim.performed src })

/-- R300: posted pieces performed without a gap, numbers performed early being kept aside. -/
def countPerformed : Nat → List (Fin 4 × BitVec 16) → Fin 4 → BitVec 16 → BitVec 16 × List (Fin 4 × BitVec 16)
  | 0, early, _, n => (n, early)
  | k + 1, early, p, n => if early.contains (p, n) then countPerformed k (early.erase (p, n)) p (n + 1) else (n, early)

/-- R249, R300: a posted piece from another position has been performed. -/
def State.performedFrom (s : State) (p : Fin 4) (num : BitVec 16) : State :=
  let (n, early) := countPerformed (s.chim.doneEarly.length + 1) ((p, num) :: s.chim.doneEarly) p (vget s.chim.performed p)
  ({ s with chim := { s.chim with performed := vset s.chim.performed p n, doneEarly := early } }).receipt p

/-! ### Host requests -/

def State.req (s : State) (id : Nat) : Option HostReq := s.reqs.find? fun r => r.id = id

def State.modReq (s : State) (id : Nat) (f : HostReq → HostReq) : State :=
  { s with reqs := s.reqs.map fun r => if r.id = id then f r else r }

/-- R152: credits of a TLP: one header and one unit per 16 bytes. -/
def dataUnits (bytes : Nat) : Nat := (bytes + 15) / 16

/-- R153: the credits of a received TLP return. -/
def Fc.giveBack (fc : Fc) (posted : Bool) (bytes : Nat) : Fc :=
  if posted then
    { fc with taken := { fc.taken with ph := fc.taken.ph - 1, pd := fc.taken.pd - dataUnits bytes }
              alloc := { fc.alloc with ph := fc.alloc.ph + 1, pd := fc.alloc.pd + dataUnits bytes } }
  else
    { fc with taken := { fc.taken with nph := fc.taken.nph - 1, npd := fc.taken.npd - dataUnits bytes }
              alloc := { fc.alloc with nph := fc.alloc.nph + 1, npd := fc.alloc.npd + dataUnits bytes } }

/-- R152: a received TLP occupies its credits. -/
def Fc.take (fc : Fc) (posted : Bool) (bytes : Nat) : Fc :=
  if posted then { fc with taken := { fc.taken with ph := fc.taken.ph + 1, pd := fc.taken.pd + dataUnits bytes } }
  else { fc with taken := { fc.taken with nph := fc.taken.nph + 1, npd := fc.taken.npd + dataUnits bytes } }

/-- R153: request `id` leaves its receive buffer. -/
def State.releaseCredits (s : State) (id : Nat) : State :=
  match s.req id with
  | none => s
  | some r =>
    if r.credits then
      { (s.modReq id fun r => { r with credits := false }) with fc := s.fc.giveBack (!r.read) (if r.read then 0 else r.dataLen) }
    else s

/-- A completion TLP for a request. -/
def State.sendCpl (s : State) (r : HostReq) (status : CplStatus) (bytes : List (Nat × Byte)) (off len : Nat) : State :=
  let s1 := s.sendTlp { bareTlp (if status = .sc then .cplD else .cpl) r.fn with
    addr := off, bytes := bytes, len := len, tag := r.tag, status := status }
  if status = .ca then s1.setStatus r.fn 11 else s1

/-- The request is over: its credits return and it leaves the pool. -/
def State.closeReq (s : State) (id : Nat) : State :=
  let s1 := s.releaseCredits id
  { s1 with reqs := s1.reqs.filter fun r => r.id ≠ id }

/-- R226, R160: completions of finished 64-byte blocks leave in ascending order. -/
def State.sendBlocks : Nat → State → Nat → State
  | 0, s, _ => s
  | k + 1, s, id =>
    match s.req id with
    | none => s
    | some r =>
      if r.nextOff < r.off + r.len then
        let n := min (64 - r.nextOff % 64) (r.off + r.len - r.nextOff)
        if (bytesIn r.bytes r.nextOff n).all fun c => (byteAt r.got c.1).isSome then
          let s1 := s.sendCpl r .sc (bytesIn r.got r.nextOff n) r.nextOff n
          State.sendBlocks k (s1.modReq id fun r => { r with nextOff := r.nextOff + n }) id
        else s
      else s

/-- A request all of whose pieces are done is over. -/
def State.finishReq (s : State) (id : Nat) : State :=
  match s.req id with
  | none => s
  | some r => if r.openPieces = 0 ∧ (!r.read ∨ r.off + r.len ≤ r.nextOff) then s.closeReq id else s

/-- R226: bytes of a request arrive, or pieces of a write are done; `pieces` of them. -/
def State.hostDone (s : State) (id : Nat) (got : List (Nat × Byte)) (pieces : Nat) : State :=
  match s.req id with
  | none => s
  | some r =>
    let s1 := s.modReq id fun r => { r with got := r.got ++ got, openPieces := r.openPieces - pieces }
    ((if r.read then State.sendBlocks 66 s1 id else s1)).finishReq id

/-- R222, R282: a request ends at once with one completion (a read) or is dropped (a write), and the error is recorded
against its function. -/
def State.refuseReq (s : State) (r : HostReq) (status : CplStatus) (e : Option UncErr) : State :=
  let s1 := match e with
    | some e => s.recordUnc r.fn e r.read r.hdr
    | none => s
  if r.read then s1.sendCpl r status [] r.nextOff 0 else s1

/-- The pieces of request `id` wherever they are, jobs and bank slots among them. -/
def State.piecesOf (s : State) (id : Nat) : List Piece :=
  let q := fun (p : Piece) => p.origin = .host id
  ((s.waitingItems ++ s.items.admitted).filterMap fun it => match it.work with
      | .piece p => if q p then some p else none
      | _ => none)
    ++ s.sw.q.toList.flatMap (fun l => l.filter q)
    ++ s.banks.toList.flatMap (fun b => b.slots.toList.filterMap fun o => match o with
        | some x => if q x.piece then some x.piece else none
        | none => none)
    ++ s.hearths.toList.flatMap (fun h => (h.bus.jobs.map (·.piece)).filter q)

/-- R166: bytes of request `id` already read by cycles that stand, not yet with the request. -/
def State.bytesRead (s : State) (id : Nat) : List (Nat × Byte) :=
  let q := fun (p : Piece) => p.origin = .host id
  (s.hearths.toList.flatMap fun h => (h.bus.jobs.filter fun j => q j.piece).flatMap (·.got))
    ++ (s.sw.q.toList.flatMap fun l => (l.filter fun p => q p && p.cls = .completion).flatMap (·.bytes))

/-- R166: the hearth cycles of a request not yet driven are dropped; the one that is open ends by itself. -/
def Bus.dropRest (b : Bus) (q : Piece → Bool) : Bus :=
  match b.jobs with
  | j :: rest =>
    { b with jobs :=
        (if !q j.piece then [j]
         else if b.strobe.isSome then [{ j with cycles := j.cycles.take 1, piece := { j.piece with origin := .none } }]
         else []) ++ rest.filter fun x => !q x.piece }
  | [] => b

def State.dropReqWork (s : State) (id : Nat) : State :=
  let q := fun (p : Piece) => p.origin = .host id
  let s1 := { s with hearths := vmap (fun (_ : HearthId) (h : Hearth) => { h with bus := h.bus.dropRest q }) s.hearths }
  s1.removePieces q

/-- R221, R236: the part of a request in which its first byte not yet read lies. -/
def HostReq.failing (r : HostReq) : Option ReqPart :=
  r.parts.find? fun p => (bytesIn r.bytes p.off p.len).any fun c => (byteAt r.got c.1).isNone

/-- R166, R236: what is left of a read: parts in all-ones mode return ones, up to the first unread part in
error-response mode, which ends the request with its status. -/
def State.endRead : Nat → State → HostReq → State
  | 0, s, _ => s
  | k + 1, s, r =>
    match r.failing with
    | none =>
      let ones := (r.bytes.filter fun c => (byteAt r.got c.1).isNone).map fun c => (c.1, (0xFF : Byte))
      State.sendBlocks 66 (s.modReq r.id fun x => { x with got := r.got ++ ones }) r.id
    | some p =>
      if p.errResp then
        let s1 := State.sendBlocks 66 (s.modReq r.id fun x => { x with got := r.got }) r.id
        match s1.req r.id with
        | some x => s1.refuseReq x (if p.ca then .ca else .ur) (some (if p.ca then .cplAbort else .ur))
        | none => s1
      else
        let ones := ((bytesIn r.bytes p.off p.len).filter fun c => (byteAt r.got c.1).isNone).map fun c => (c.1, (0xFF : Byte))
        State.endRead k s { r with got := r.got ++ ones }

/-- R236: what is left of a write is dropped; each mode that governs some of it is recorded once. -/
def State.endWrite (s : State) (r : HostReq) (modes : List (Bool × Bool)) (ev : Bool) : State :=
  forList modes.eraseDups (fun m s =>
    if m.1 then s.recordUnc r.fn (if m.2 then .cplAbort else .ur) false r.hdr
    else if ev then s else s.logEvent r.fn) s

/-- R226: completions put to the host port from TLP `id` on leave in the next tick. -/
def State.nextTick (s : State) (id : Nat) : State :=
  { s with txq := s.txq.map fun t => if id ≤ t.id then { t with readyAt := tickPlus s.now 1 } else t }

/-- R166, R221, R226, R236: the rest of request `id` ends, each part under its window's far-side error mode. `ev` says that the
event is one of R311; `struck` is the mode of the piece that failed, when one did. -/
def State.endReq (s : State) (id : Nat) (ev : Bool) (struck : Option (Bool × Bool)) : State :=
  match s.req id with
  | none => s
  | some r =>
    let left := if r.st = .issued then (s.piecesOf id).map fun p => (p.errResp, p.ca) else r.parts.map fun p => (p.errResp, p.ca)
    let modes := (match struck with | some m => [m] | none => []) ++ left
    let got := r.got ++ s.bytesRead id
    let s0 := (s.dropReqWork id).dropStored (· = .host id)
    let s1 := if ev then s0.logEvent r.fn else s0
    let s2 := if r.read then State.endRead 9 s1 { r with got := got } else s1.endWrite r modes ev
    (s2.closeReq id).nextTick s.nextId

/-- R222: a miss. -/
def State.missReq (s : State) (id : Nat) : State :=
  match s.req id with
  | none => s
  | some r => (s.refuseReq r .ur (some .ur)).closeReq id

/-! ### A crossing that ends badly -/

/-- R165, R275, R290: the completion of a request that arrived over a flue; it carries its requester's key. -/
def State.replyPiece (s : State) (src : PortId) (q : Fin 4) (port : PortId) (tag : Nat) (key : BitVec 4)
    (got : List (Nat × Byte)) (status : CplStatus) : Piece :=
  { id := 0, cls := .completion, kind := .completion, src := src, dst := s.portToward q .completion, srcPos := s.pos,
           dstPos := q, key := key, addr := 0, bytes := got, tag := tag, status := status, origin := .none, fn := 0, wfn := 0,
           errResp := false, ca := false, far := port, reqPort := src, readyAt := tickPlus s.now 1, input := 0, code := 0,
           whole := none }

/-- It goes back to its source. -/
def State.remoteReply (s : State) (src : PortId) (q : Fin 4) (port : PortId) (tag : Nat) (key : BitVec 4)
    (got : List (Nat × Byte)) (status : CplStatus) : State := s.push (s.replyPiece src q port tag key got status)

/-- R236, R290: the status that ends a request from another position: a host read under its window's mode, hearth work as
a far-side error, for which UR stands (entry 43). -/
def Piece.farStatus (p : Piece) : CplStatus :=
  if p.reqPort.val = 16 then (if !p.errResp then .sc else if p.ca then .ca else .ur) else .ur

/-- R235, R236: the crossing of piece `p` ends with a far-side error at its destination, `got` having been read. -/
def State.failPiece (s : State) (p : Piece) (ev : Bool) (got : List (Nat × Byte) := []) : State :=
  match p.origin with
  | .cycle n serial =>
    match (s.hearth n).cyc with
    | some c => if c.serial = serial then s.farSide n ev else s
    | none => s
  | .posted n serial =>
    let waits : Bool := match (s.hearth n).cyc with | some c => c.serial = serial && c.phase.isOpen | none => false
    if waits then s.farSide n ev else (s.logEvent p.wfn).endPosted n serial
  | .host id => (s.modReq id fun r => { r with got := r.got ++ got }).endReq id ev (some (p.errResp, p.ca))
  | .remote q port tag _ =>
    let ones := p.bytes.map fun c => (c.1, (byteAt got c.1).getD 0xFF)
    (if ev then s.logEvent p.wfn else s).remoteReply p.dst q port tag p.key (if p.farStatus = .sc then ones else []) p.farStatus
  | .remotePosted q num => (s.logEvent p.wfn).performedFrom q num
  | .none => s
  | .sample => s
  | .change _ => s

/-- R232, R247: the crossing of piece `p` has been performed; `got` are the bytes read. -/
def State.donePiece (s : State) (p : Piece) (got : List (Nat × Byte)) : State :=
  match p.origin with
  | .cycle n serial =>
    if p.dst.val = 19 ∧ (p.kind = .read ∨ p.kind = .lockedRead) then
      (s.fetchRead n serial got).push (p.reply got .sc .none (tickPlus s.now 1))
    else (s.completeCycle n serial got .sc).push (p.reply got .sc .none s.now)
  | .posted n serial => s.endPosted n serial
  | .host id =>
    match s.req id with
    | some r => if r.read then s.push (p.reply got .sc p.origin (tickPlus s.now 1)) else s.hostDone id [] 1
    | none => s
  | .remote q port tag _ => s.remoteReply p.dst q port tag p.key got .sc
  | .remotePosted q num => s.performedFrom q num
  | .none => s
  | .sample => s
  | .change _ => s

/-! ### Locks -/

/-- R265: the lock another hearth holds on a scope. -/
def State.lockedBy (s : State) (sc : LockScope) : Option HearthId :=
  allHearths.find? fun n => match (s.hearth n).lock with | some l => l.scope = sc | none => false

/-- R266, R267: the lock of hearth `n` ends. Unless HnLOCK_N rose, the line counts as high until it rises and falls
again. -/
def State.endLock (s : State) (n : HearthId) (rose : Bool) : State :=
  match (s.hearth n).lock with
  | none => s
  | some l =>
    let s1 := s.modHearth n fun h => { h with lock := none, lockMasked := !rose }
    { s1 with wake := true, lockEnds := l.scope :: s1.lockEnds }

/-- R266: a host or flue piece starts to wait on a scope. -/
def State.contest (s : State) (sc : LockScope) : State :=
  match s.lockedBy sc with
  | none => s
  | some n => s.modHearth n fun h => { h with lock := h.lock.map fun l => { l with contested := true } }

/-- R265, R266: the bus of hearth `m` is free for piece `p` as far as locks held over a flue go. -/
def State.farOk (s : State) (m : HearthId) (p : Piece) : Bool :=
  match (s.hearth m).farLock with
  | none => true
  | some l => p.srcPos ≠ s.pos && p.srcPos = l.pos && p.reqPort = hearthPort l.hearth

/-- R266, R267: a lock held over a flue on hearth `m`'s bus ends. With `mask`, its holder's HnLOCK_N counts as high here until a
piece of it that is not locked has come. -/
def State.endFarLock (s : State) (m : HearthId) (mask : Bool) : State :=
  match (s.hearth m).farLock with
  | none => s
  | some l =>
    let s1 := s.modHearth m fun h => { h with
      farLock := none, farMasked := if mask then (l.pos, l.hearth) :: h.farMasked else h.farMasked }
    { s1 with wake := true, lockEnds := .bus s.pos m :: s1.lockEnds }

/-- R210, R265, R266: a piece from another position and the lock on hearth `m`'s bus. A locked one of a hearth takes the lock,
or renews its holder's, when it arrives or, if the bus was locked then, when it is granted; one that is not locked ends its
holder's. The spec gives no block that tells of a release (DESIGN CHOICE, entry 29). -/
def State.takeFarLock (s : State) (p : Piece) (m : HearthId) : State :=
  match portHearth p.reqPort with
  | none => s
  | some k =>
    let mine : Bool := match (s.hearth m).farLock with | some l => l.pos = p.srcPos && l.hearth = k | none => false
    if p.srcPos = s.pos then s
    else if p.kind = .lockedRead ∨ p.kind = .lockedWrite then
      if mine then s.modHearth m fun h => { h with farLock := h.farLock.map fun l => { l with last := s.now } }
      else if (s.hearth m).farLock.isNone ∧ (s.lockedBy (.bus s.pos m)).isNone ∧ !(s.hearth m).farMasked.contains (p.srcPos, k) then
        s.modHearth m fun h => { h with farLock := some { pos := p.srcPos, hearth := k, last := s.now, contested := false } }
      else s
    else
      (if mine then s.endFarLock m false else s).modHearth m fun h =>
        { h with farMasked := h.farMasked.filter fun x => x ≠ (p.srcPos, k) }

/-- R266: no piece of `src` may be granted on the scope in this tick. -/
def State.scopeShut (s : State) (sc : LockScope) (src : PortId) : Bool :=
  s.lockEnds.contains sc || (match s.lockedBy sc with | some n => hearthPort n != src | none => false)

/-- R265, R266: piece `p` may not use hearth `m`'s bus in this tick. -/
def State.busShut (s : State) (m : HearthId) (p : Piece) : Bool := s.scopeShut (.bus s.pos m) p.src || !s.farOk m p

/-- R266: a host or flue piece waits for hearth `m`'s bus, which a lock covers. -/
def State.contestBus (m : HearthId) (s : State) : State :=
  if s.anyPiece fun p => p.forBus m && decide (16 ≤ p.src.val) && s.busShut m p then
    (s.contest (.bus s.pos m)).modHearth m fun h => { h with farLock := h.farLock.map fun l => { l with contested := true } }
  else s

end Sys2Proof.Machine
end

