-- ==== Sys2Proof/Machine/Ledger.lean ====
section
/-! DEFINITION. The ember ledger (chapter 05) and the power domains (R95 to R101): payment and start of admission items,
and the six commands of this family. -/

namespace Sys2Proof.Machine

open Sys2Proof

/-! ### Payment -/

/-- R106: what an item costs now: its work, and a wake for each domain of its path that is OFF or RETAINED. -/
def State.itemCost (s : State) (it : Item) : Nat :=
  it.cost + ((it.path.eraseDups.filter fun d => (s.dom d).asleep).map fun d => Config.wakeCost d.val).sum

/-- R106, R119, R359: embers are charged to a requester port. -/
def Ledger.charge (l : Ledger) (port : PortId) (n : Nat) : Ledger :=
  { l with
    balance := l.balance - n
    charged := l.charged + n
    perPort := vmod l.perPort port fun x => x + n
    windowSum := l.windowSum + n
    maxWindow := max l.maxWindow (l.windowSum + n) }

/-- R97: every domain of a path is ON. -/
def State.pathOn (s : State) (path : List DomainId) : Bool := path.all fun d => (s.dom d).isOn

/-- R96, R97: the domains of an admitted path are woken or used. -/
def State.wakePath (s : State) (path : List DomainId) : State :=
  forList path
    (fun d s => match s.dom d with
      | .off => s.setDom d (.waking (tickPlus s.now (s.latency d)))
      | .retained => s.setDom d (.waking (tickPlus s.now (s.latency d)))
      | .on _ => s.setDom d (.on s.now)
      | _ => s) s

/-- R240: a request from another position that waits for hearth `n`'s bus and whose source number is the higher one. -/
def State.yields (s : State) (n : HearthId) (p : Piece) : Bool :=
  p.dst = hearthPort n && p.srcPos ≠ s.pos && p.cls = .nonPosted &&
    (match portHearth p.reqPort with
     | some k => decide ((chimneyOf s.pos n).val < (chimneyOf p.srcPos k).val)
     | none => false)

/-- R240: hearth `n`'s own kind-3 cycle comes IN_FLIGHT: such requests that have not started are backed off. -/
def State.yieldWaiting (s : State) (n : HearthId) : State :=
  let ps := ((s.waitingItems ++ s.items.admitted).filterMap fun it => match it.work with
      | .piece p => if s.yields n p then some p else none
      | _ => none)
    ++ s.sw.q.toList.flatMap (fun l => l.filter (s.yields n))
    ++ ((s.hearth n).bus.jobs.filter fun j => s.yields n j.piece && !j.started).map (·.piece)
  forList ps (fun p s => match p.origin with
    | .remote q port tag _ => s.sendBackoff q port tag
    | _ => s) (s.removePieces (s.yields n))

/-- R203, R232: what admission does to the cycle a piece works for: a posted write is captured and acknowledged, any other
cycle is IN_FLIGHT, and a non-posted write is captured. -/
def State.admitCycle (s : State) (p : Piece) : State :=
  match p.origin with
  | .posted n serial =>
    match (s.hearth n).cyc with
    | some c =>
      if c.serial = serial ∧ c.phase = .paying then
        (s.modHearth n fun h => { h with cyc := h.cyc.map fun c => { c with captured := true } }).answer n .ack
      else s
    | none => s
  | .cycle n serial =>
    match (s.hearth n).cyc with
    | some c =>
      if c.serial = serial ∧ c.phase = .paying then
        let s1 := s.modHearth n fun h => { h with cyc := some { c with phase := .inFlight, captured := !c.read } }
        if c.win.kind = 3 then s1.yieldWaiting n else s1
      else s
    | none => s
  | _ => s

/-- R97: work whose path is ON starts in tick `t`. -/
def State.startWork (s : State) (w : Work) (t : Tally) : State :=
  match w with
  | .laneWake => s
  | .padWake _ => s
  | .clear => { s with island := { s.island with clearFrom := some t } }
  | .resample _ _ => { s with straps := { s.straps with paid := some t } }
  | .piece p => s.push { p with readyAt := t }
  | .change c => s.pushChange c t
  | .message m => s.sendTlp m

/-- R121, R168, R256: work that waits for a domain and that later work of the same source may not pass. -/
def Work.keepsBack : Work → Work → Bool
  | .piece p, .piece q => p.src = q.src && p.dst = q.dst && (p.cls = q.cls || (p.cls = .posted && q.cls ≠ .posted))
  | .piece p, .change c => p.cls = .posted && p.src = c.via
  | .change c, .change d => c.via = d.via
  | _, _ => false

/-- R97, R121: the work of an admitted item starts: its path is ON, and no earlier item keeps it back. -/
def State.mayStart (s : State) (it : Item) : Bool :=
  s.pathOn it.path &&
    (s.items.admitted.takeWhile fun x => x.id ≠ it.id).all fun x => s.pathOn x.path || !x.work.keepsBack it.work

/-- R97: the first tick of work whose path is ON: this one, or the next where a domain of the path has come ON in this tick. -/
def State.startTick (s : State) (path : List DomainId) : Tally :=
  if path.any fun d => s.upNow.contains d then tickPlus s.now 1 else s.now

/-- R97: the work of a paid item starts, or waits for its path. -/
def State.startOrWait (s : State) (it : Item) : State :=
  if s.mayStart it then s.startWork it.work (s.startTick it.path)
  else { s with items := { s.items with admitted := s.items.admitted ++ [it] } }

/-- R232: the hearth cycle of a paid piece is no longer waiting for embers. -/
def State.cyclePaid (s : State) : Work → State
  | .piece p => s.admitCycle p
  | _ => s

/-- R106: an item's cost is charged. -/
def State.chargeItem (s : State) (it : Item) : State :=
  { s with ledger := s.ledger.charge it.port (s.itemCost it) }

/-- R106, R110: an item is paid and admitted. -/
def State.admitOne (s : State) (it : Item) : State :=
  (((s.chargeItem it).wakePath it.path).cyclePaid it.work).startOrWait it

/-- R100, R110: why admission ends at an item. -/
inductive Bar
  | falling
  | short
  deriving DecidableEq, Repr

def State.barred (s : State) (it : Item) : Option Bar :=
  if it.path.any fun d => (s.dom d).falling then some .falling
  else if s.ledger.st = .off then none
  else if s.ledger.st = .opened ∧ s.itemCost it ≤ s.ledger.balance then none
  else some .short

def State.holdItem (r : Nat) (t : Tally) (it : Item) : Item :=
  if it.heldAt.isNone then { it with heldAt := some r, heldTick := t } else it

/-- R110, R116, R117: the item that cannot be paid and everything behind it are held, and LEDGER_N is low. -/
def State.hold (s : State) : State :=
  let f := State.holdItem s.ledger.refills s.now
  { s with
    items := { s.items with
      service := s.items.service.map f, host := s.items.host.map f, slots := vmap (fun _ q => q.map f) s.items.slots }
    ledger := { s.ledger with low := true, lowSeen := true } }

/-- Admission ends, for want of embers or behind a domain that is going down. -/
def State.stopAt (s : State) : Bar → State
  | .falling => s
  | .short => s.hold

/-- R110: the service level; the flag says that admission has ended. -/
def State.admitService : Nat → State → State × Bool
  | 0, s => (s, false)
  | k + 1, s =>
    match s.items.service with
    | [] => (s, false)
    | it :: rest =>
      match s.barred it with
      | some b => (s.stopAt b, true)
      | none => State.admitService k ({ s with items := { s.items with service := rest } }.admitOne it)

/-- R110: the host level. -/
def State.admitHost : Nat → State → State × Bool
  | 0, s => (s, false)
  | k + 1, s =>
    match s.items.host with
    | [] => (s, false)
    | it :: rest =>
      match s.barred it with
      | some b => (s.stopAt b, true)
      | none => State.admitHost k ({ s with items := { s.items with host := rest } }.admitOne it)

/-- The first slot with a waiting item, from the rotation pointer. -/
def State.nextSlot (s : State) : Option (Fin 19) :=
  ((List.range 19).map fun i => Fin.ofNat 19 (s.ledger.pointer.val + i)).find? fun k => !(vget s.items.slots k).isEmpty

/-- R110: the hearth level, round-robin from the pointer. -/
def State.admitSlots : Nat → State → State × Bool
  | 0, s => (s, false)
  | k + 1, s =>
    match s.nextSlot with
    | none => (s, false)
    | some i =>
      match vget s.items.slots i with
      | [] => (s, false)
      | it :: rest =>
        match s.barred it with
        | some b => (s.stopAt b, true)
        | none =>
          let s1 := { s with items := { s.items with slots := vset s.items.slots i rest }
                             ledger := { s.ledger with pointer := i + 1 } }
          State.admitSlots k (s1.admitOne it)

/-- R104: a refill that fell due while the core was frozen, before any admission. -/
def State.refillIfDue (s : State) : State :=
  if s.ledger.refillDue then
    { s with ledger := { s.ledger with refillDue := false, refills := s.ledger.refills + 1, balance := s.ledger.budget } }
  else s

/-- R110: one tick's admission of the levels above the tap level; the flag says that admission has ended in this tick.
Nothing is admitted while the ledger is CLOSED (R105). -/
def State.admitTick (s : State) : State × Bool :=
  if s.ledger.st = .closed then (s, true)
  else
    let s0 := s.refillIfDue
    let k := s0.waitingItems.length
    let (s1, e1) := s0.admitService k
    if e1 then (s1, true)
    else
      let (s2, e2) := s1.admitHost k
      if e2 then (s2, true) else s2.admitSlots k

/-- R110: one tick's admission. -/
def State.admitAll (s : State) : State := s.admitTick.1

/-! ### The strap reader's work -/

/-- R72, R215: hearth `n` has an open or queued cycle in either direction: its own, one of another hearth toward it, a piece
or job for it, or a host request that has been decoded. -/
def State.hearthBusy (s : State) (n : HearthId) : Bool :=
  (match (s.hearth n).cyc with | some c => c.phase.isOpen || c.phase = .driving | none => false)
    || !(s.hearth n).bus.jobs.isEmpty
    || (s.anyPiece (Piece.forBus n))
    || (s.reqs.any fun r => s.reqFor n r && (r.st = .waiting || r.st = .issued))
    || allHearths.any fun k => match (s.hearth k).cyc with
        | some c => c.win.kind = 2 && c.win.m = n && c.phase.isOpen
        | none => false

/-- R91: the hearth whose resample, or whose reload sampling, is due next; resamples in ascending order, and every one of
them before any reload (DESIGN CHOICE, entry 60: R72, R73 and R91 do not order the two). R72: sampling waits until the
hearth has no open work and HnLOCK_N is high. -/
def State.readerNext (s : State) : Option (HearthId × Bool) :=
  match allHearths.find? fun n => s.straps.resampleQ.contains n with
  | some n => some (n, false)
  | none =>
    (allHearths.find? fun n => match (s.hearth n).reload with
      | some r => !r.sampling && !s.hearthBusy n && !(s.hearth n).lockSeen
      | none => false).map fun n => (n, true)

/-- R91, R109: once the strap reader is free of what it sampled before, the service item of the next resample or reload is presented. -/
def State.askReader (s : State) : State :=
  if s.straps.asked.isNone ∧ s.straps.job.isNone ∧ s.straps.seqDone ∧ s.slotPower ∧ s.reached s.straps.free then
    match s.readerNext with
    | some (n, r) =>
      let s1 := { s with straps := { s.straps with asked := some { hearth := n, isReload := r, start := s.now, half := false }, paid := none } }
      s1.presentService (hearthPort n) [domOf 161] Config.costResample (.resample n r)
    | none => s
  else s

/-! ### Commands -/

/-- R105: the ledger may open: a sequence of this T_S has finished group 0. -/
def State.pastGroup0 (s : State) : Bool := !s.island.perstLow && s.straps.seq != some 0

/-- R118: an LTR message at a window start, or later when the link is not in L0. -/
def State.ltrAtWindow (s : State) : State :=
  if (s.mode = .m1 ∨ s.mode = .m2 ∨ s.mode = .m4) ∧ (s.fn 0).ltr then
    match s.ltrValue with
    | some v =>
      if s.ledger.lastLtr ≠ some v ∨ s.ledger.ltrAsked then
        if s.link.st = .l0 then
          ({ s with ledger := { s.ledger with lastLtr := some v, ltrAsked := false, ltrPending := false } }).sendTlp
            { bareTlp .ltr 0 with value := v }
        else { s with ledger := { s.ledger with ltrPending := true } }
      else s
    | none => s
  else s

/-- R87, R88, R102: the ledger opens with its first window, and the hearthstone clear is presented if it is due. -/
def State.openLedger (s : State) : State :=
  let off := s.cfg.budgetCode = 15
  let b := if off then 0 else (s.cfg.budgetCode.toNat + 1) * Config.budgetStep
  let s1 := { s with ledger := { s.ledger with
      st := if off then .off else .opened, budget := b, balance := b, refills := 1, windows := 1, refillDue := false } }
  if s1.island.clearMark ∧ s1.mode.serves then
    s1.presentService 19 ((List.range 16).map fun i => domOf (140 + i)) 0 .clear
  else s1

/-- R103, R104: a later window starts: the balance is set to B, or the refill falls due while the core is frozen. -/
def State.nextWindow (s : State) : State :=
  let l := s.ledger
  let l1 := { l with
    windows := l.windows + 1, windowSum := 0, lowWindows := l.lowWindows + (if l.lowSeen then 1 else 0), lowSeen := l.low }
  { s with ledger :=
      if s.coreRuns then { l1 with refills := l1.refills + 1, balance := l1.budget, refillDue := false }
      else { l1 with refillDue := true } }

/-- R119, R120: the Ember Report at the end of an admission tick. -/
def State.emberNow (s : State) : EmberShown :=
  { code := s.ledgerCode
    budgetCode := s.cfg.budgetCode
    held := min (s.waitingItems.filter fun it => it.heldAt.isSome).length 0xFFFF
    budget := s.ledger.budget
    balance := s.ledger.balance
    refills := s.ledger.refills
    lowWindows := s.ledger.lowWindows + (if s.ledger.lowSeen then 1 else 0)
    oldest := s.oldestHeld.map fun it => (it.port, s.levelCode it, s.age it, s.itemCost it)
    charged := s.ledger.charged
    perPort := s.ledger.perPort
    maxWindow := s.ledger.maxWindow }

/-- R120: the Ember Report changes at the end of an admission tick. -/
def State.snapshot (s : State) : State := { s with ledger := { s.ledger with shown := s.emberNow } }

/-- LEDGER_WINDOW_START (R103, R104, R118): window k starts at T_S + 2,500 + 1,024k; in that tick the core's admission
follows the refill, and the LTR value is taken after both. -/
def execLedgerWindowStart (s : State) : Host.Outcome State Fault Refusal :=
  if s.running ∧ s.pastGroup0 then
    let s1 := s.advanceTS (Config.ledgerOpens + Config.window * s.ledger.windows)
    let s2 := if s1.ledger.st = .closed then s1.openLedger else s1.nextWindow
    let s3 := if s2.ledger.refillDue then s2 else s2.admitAll.snapshot
    .next s3.ltrAtWindow
  else .next s

/-- R97, R121: admitted items whose path is now ON start in the next tick, in their order. -/
def State.startReady (s : State) : State :=
  let ready := s.items.admitted.filter s.mayStart
  let s1 := { s with items := { s.items with admitted := s.items.admitted.filter fun it => !s.mayStart it } }
  forList ready (fun it s => s.startWork it.work (tickPlus s.now 1)) s1

/-- The bellows lane of a receive domain (R96, R135). -/
def rxLane (d : DomainId) : Option LaneId :=
  if 16 ≤ d.val ∧ d.val < 32 then some (Fin.ofNat 32 (d.val - 16))
  else if 40 ≤ d.val ∧ d.val < 48 then some (Fin.ofNat 32 (d.val - 24))
  else if 58 ≤ d.val ∧ d.val < 66 then some (Fin.ofNat 32 (d.val - 34))
  else none

/-- R131: the settings kept for a host lane at a rate. -/
def State.keptAt (s : State) (l : LaneId) (r : Rate) : Option Taps :=
  if h : l.val < 16 then vget (vget s.link.kept ⟨l.val, h⟩) (rateIdx r) else none

/-- A lane that calls for no move. -/
def Lane.noTargets (x : Lane) : Lane :=
  { x with phaseDue := false, thrT := none, dfeT := none, pendingFrom := none, quiet := 0, pinned := false, restored := false }

/-- R131: kept settings are put back. -/
def Lane.restore (x : Lane) (k : Taps) : Lane :=
  { x.noTargets with phase := k.phase, phaseT := k.phase, thr := k.thr, dfe := k.dfe, ctle := k.ctle }

/-- R329, R331: a near-end parallel test lane gathers no frames and reads TRACKING. -/
def State.parallelTest (s : State) (l : LaneId) : Bool := s.mode = .m5 && (s.test l).underTest s.mode && (s.test l).loop = 2

/-- R95, R96: the bellows engine wakes with the first receiver lane. -/
def State.wakeBellows (s : State) : State :=
  match s.dom (domOf 160) with
  | .off => s.setDom (domOf 160) (.waking (tickPlus s.now (Config.wakeLatency 160)))
  | _ => s

/-- R126, R330: the CTLE setting and the DFE of a lane before any training: 4 and 0 for a host lane at 2.5 and 5.0 GT/s, CTLE 8 for a
host lane under test at a faster rate. -/
def State.untrained (s : State) (l : LaneId) (x : Lane) : Lane :=
  if 16 ≤ l.val then x
  else if (s.test l).underTest s.mode then { x with ctle := if fastRate s.cfg.hrate then 8 else 4 }
  else if fastRate s.link.rate then x
  else { x with ctle := 4, dfe := 0 }

/-- R131, R135, R138: a receiver lane whose domain is ON acquires; settings it has tracked with at this rate are put back,
and with them it tracks from the end of Recovery. A test lane has no Recovery and acquires (R331). -/
def State.laneOn (s : State) (l : LaneId) : State :=
  let s1 := s.wakeBellows
  let fresh := fun (x : Lane) => s1.untrained l x.noTargets
  if s1.parallelTest l then s1.modLane l fun x => { fresh x with st := .tracking }
  else if (s1.test l).underTest s1.mode then s1.modLane l fun x => { fresh x with st := .acquiring }
  else
    match s1.keptAt l s1.link.rate with
    | some k => s1.modLane l fun x => { x.restore k with st := .acquiring, restored := k.tracked }
    | none => s1.modLane l fun x => { fresh x with st := .acquiring }

/-- R328: the domains a test lane needs. -/
def testDomains (m : Mode) (l : LaneId) (t : TestLane) : List DomainId :=
  let far := m = .m5 && t.loop = 3
  let near := m = .m5 && (t.loop = 1 || t.loop = 2)
  let checkOnly := m = .m6 && t.loop = 2
  let genOnly := m = .m6 && t.loop = 1
  let transmits := far || near || (t.pattern != 0 && !checkOnly)
  let receives := far || near || (t.pattern != 0 && !genOnly)
  let tx := if l.val < 16 then domOf l.val else if l.val < 24 then domOf (16 + l.val) else domOf (26 + l.val)
  let clkOut := if l.val < 24 then domOf 48 else domOf 66
  let clkIn := if l.val < 24 then domOf 49 else domOf 67
  (if transmits then [tx] else []) ++ (if receives then [laneDom l] else []) ++
    (if 16 ≤ l.val ∧ transmits then [clkOut] else []) ++ (if 16 ≤ l.val ∧ receives ∧ !near then [clkIn] else [])

/-- R328, R332: lanes under test whose domains are all ON begin: E is the next tick. -/
def State.startTests (s : State) : State :=
  { s with tests := vmap (fun (l : LaneId) (t : TestLane) =>
      if t.underTest s.mode ∧ t.since = none ∧ s.gate ∧ s.pathOn (testDomains s.mode l t) then
        { t with since := some (tickPlus s.now 1)
                 checker := if !t.checks s.mode then .off
                            else if (s.lane l).st = .tracking ∨ (s.lane l).st = .pinned then .seeking
                            else .waiting }
      else t) s.tests }

/-- R97: the domain is ON, and work whose path is complete starts in the next tick. -/
def State.domainUp (s : State) (d : DomainId) : State :=
  let s1 := { (s.setDom d (.on s.now)).woken with upNow := d :: s.upNow }
  let s2 := match rxLane d with | some l => s1.laneOn l | none => s1
  s2.startReady.startTests

/-- HEARTHSTONE_CLEAR_COMPLETE (R88): at the end of its 4,096th tick the contents are 0 and the mark is removed. -/
def execHearthstoneClearComplete (s : State) : Host.Outcome State Fault Refusal :=
  match s.island.clearFrom with
  | some t =>
    if s.running then
      let s1 := s.advanceTo (tickPlus t (Config.clearTicks - 1))
      .next { s1 with stone := [], island := { s1.island with clearMark := false, clearFrom := none } }.woken
    else .next s
  | none => .next s

/-- DOMAIN_IDLE_EXPIRY (R98, R99): a domain under the idle rule that owns nothing enters GOING_DOWN at the end of the tick in
which its idle period has run. That tick is over when the command acts, so an arrival in it has come first. -/
def execDomainIdleExpiry (d : DomainId) (s : State) : Host.Outcome State Fault Refusal :=
  match s.dom d, Config.idlePeriod d.val with
  | .on last, some p =>
    if s.running ∧ !s.domBusy d then
      let s1 := s.advanceTo (tickPlus last (p + 1))
      .next (if s1.dom d = .on last ∧ !s1.domBusy d then
        s1.setDom d (.goingDown (tickPlus s1.now Config.goingDownTicks)) else s1)
    else .next s
  | _, _ => .next s

/-- R88, R101: a bank goes OFF, with the clear mark set, only while the mode keeps it off; otherwise to RETAINED. -/
def State.domDown (s : State) (d : DomainId) : State :=
  if 140 ≤ d.val ∧ d.val < 156 then
    if s.mode.usable d.val then s.setDom d .retained
    else
      let s1 := s.setDom d .off
      { s1 with island := { s1.island with clearMark := true } }
  else s.setDom d .off

/-- R96: the bellows engine wakes again for a receiver lane that came ON while it went down. -/
def State.bellowsNeed (s : State) : State :=
  if (List.finRange 32).any fun l => (s.dom (laneDom l)).isOn then s.wakeBellows else s

/-- GOING_DOWN_END (R95, R100): after 8 ticks the domain is OFF or RETAINED; arrivals that wait ask for its wake. -/
def execGoingDownEnd (d : DomainId) (s : State) : Host.Outcome State Fault Refusal :=
  match s.dom d with
  | .goingDown done =>
    if s.running then
      let s1 := (s.advanceTo done).domDown d
      .next (if d.val = 160 then s1.bellowsNeed else s1).woken
    else .next s
  | _ => .next s

end Sys2Proof.Machine
end

