-- ==== Sys2Proof/Machine/Arrivals.lean ====
section
/-! DEFINITION. Pieces that arrive over a flue (R290, R300): what each costs here and where it goes (R106, R109, R240, R248,
R282, R284, R287, R320). -/

namespace Sys2Proof.Machine

open Sys2Proof

/-- R174, R284: a reload, a resample or a queued resample of the hearth is in progress, or a full sequence that has not ended its
groups. -/
def State.rereading (s : State) (n : HearthId) : Bool :=
  (s.hearth n).slot = .sampling || (s.hearth n).slot = .parked || (s.hearth n).reload.isSome

/-- The hearth a block comes from, for one that does not come from the host. -/
def blkHearth (b : PieceBlk) : HearthId := Fin.ofNat 16 b.srcPort.val

/-- The lowest crossing address of a block. -/
def blkFirst (b : PieceBlk) : Nat := (b.bytes.head?.map (·.1)).getD b.addr

/-- R311: the function an arrival is recorded against: that of its hearth, or of the hearth a host request addresses. -/
def State.arrivalFn (s : State) (b : PieceBlk) : FnId :=
  if b.srcPort.val < 16 then fnOfChimney (chimneyOf b.srcPos (blkHearth b))
  else fnOfChimney (chimneyOf s.pos (Fin.ofNat 16 b.dstPort.val))

/-- The block is a read. -/
def blkReads (b : PieceBlk) : Bool := b.kind = .read || b.kind = .lockedRead

/-- Whose answer the piece of a block carries. -/
def blkOrigin (b : PieceBlk) : Origin :=
  if b.cls = .nonPosted then .remote b.srcPos b.srcPort b.tag b.key else .remotePosted b.srcPos b.num

/-- The piece of a block on this bridge's switch. -/
def State.landed (s : State) (f : FlueId) (b : PieceBlk) (dst : PortId) : Piece :=
  { id := 0, cls := b.cls, kind := b.kind, src := fluePort f, dst := dst, srcPos := b.srcPos, dstPos := b.dstPos, key := b.key,
    addr := b.addr, bytes := b.bytes, tag := b.tag, status := b.status, origin := blkOrigin b, fn := s.arrivalFn b,
    wfn := s.arrivalFn b, errResp := true, ca := true, far := b.dstPort, reqPort := b.srcPort, readyAt := s.now,
    input := b.input, code := b.code, whole := b.whole }

/-- The block is a piece of a host request, or completes one. -/
def blkHost (b : PieceBlk) : Bool := if b.cls = .completion then b.dstPort.val = 16 else b.srcPort.val = 16

/-- R109: host-originated arrivals are of the host level, the rest enter their flue's slot. -/
def State.presentArrival (s : State) (f : FlueId) (b : PieceBlk) (path : List DomainId) (cost : Nat) (w : Work) : State :=
  if blkHost b then s.presentHost (fluePort f) path cost w
  else s.presentSlot (flueSlot f) (fluePort f) path cost w

/-- R275: the requester's key of an arrival: a host request carries that of the hearth it addresses. -/
def State.arrivalKey (s : State) (b : PieceBlk) : BitVec 4 :=
  if b.srcPort.val = 16 then (match portHearth b.dstPort with | some m => (s.hearth m).cfg.hkey | none => b.key) else b.key

/-- R106, R289: the flue blocks of the completion an arrival asks for. -/
def replyCost (b : PieceBlk) : Nat :=
  if b.cls ≠ .nonPosted then 0 else if blkReads b ∧ !b.bytes.isEmpty then 2 * Config.costFlueBlock else Config.costFlueBlock

/-- An arrival that ends without being performed: a request is answered with `st`, a posted write counts as done. -/
def State.refuseArrival (s : State) (b : PieceBlk) (st : CplStatus) : State :=
  if b.cls = .nonPosted then s.remoteReply b.dstPort b.srcPos b.srcPort b.tag (s.arrivalKey b) [] st
  else s.performedFrom b.srcPos b.num

/-- R106, R235, R236: an arrival meets a far-side error; a hearth's posted write is logged. The PIECE block of the answer
is paid for. -/
def State.farArrival (s : State) (f : FlueId) (b : PieceBlk) : State :=
  if b.cls = .nonPosted then
    let p := s.replyPiece b.dstPort b.srcPos b.srcPort b.tag (s.arrivalKey b) [] .ur
    s.presentArrival f b (piecePath p.src p.dst 0) Config.costFlueBlock (.piece p)
  else if b.cls = .posted ∧ b.srcPort.val < 16 then (s.logEvent (s.arrivalFn b)).refuseArrival b .ur
  else s.refuseArrival b .ur

/-- R240, R308: a request is backed off over the flue, with no effect. -/
def State.backOff (s : State) (b : PieceBlk) : State := s.sendBackoff b.srcPos b.srcPort b.tag

/-- R240: hearth `m` has an IN_FLIGHT kind-3 cycle of its own, and the source's chimney number is the higher one. -/
def State.mustYield (s : State) (b : PieceBlk) (m : HearthId) : Bool :=
  match (s.hearth m).cyc with
  | some c => c.phase = .inFlight && c.win.kind = 3 && decide ((chimneyOf s.pos m).val < (chimneyOf b.srcPos (blkHearth b)).val)
  | none => false

/-- R283: the access kind of an arrival: a host write is a posted write, however it crosses. -/
def accessKind (b : PieceBlk) : AccKind := if b.srcPort.val = 16 ∧ !blkReads b then .postedWrite else b.kind

/-- R282, R283: a faulted arrival takes a fault entry and is answered with CA, or dropped; a host request takes one entry, with
its first piece. -/
def State.faultArrival (s : State) (b : PieceBlk) (m : HearthId) (a : Nat) (key : BitVec 4) : State :=
  let e := s.downFaultEntry m a key b.srcPort (if b.srcPort.val = 16 then 0 else b.srcPos) (accessKind b)
  let s1 := if (match b.whole with | some w => w.lead | none => true) then s.writeFault e else s
  (if b.srcPort.val < 16 then s1.logEvent (s.arrivalFn b) else s1).refuseArrival b .ca

/-- R221, R279: the access an arrival is, or is part of: its first byte checked, and whether all its bytes lie in open windows. -/
def HearthCfg.access (cfg : HearthCfg) (b : PieceBlk) : Option Nat × Bool :=
  match b.whole with
  | some w => (w.first, (cfg.parts 8 w.off w.len).isSome)
  | none => (b.bytes.head?.map (·.1), true)

/-- R221, R223, R275, R279, R280, R282: an arrival is decoded in hearth `m`'s downstream windows and checked there, before any
back-off. In a window that mirrors bytes the fault entry holds the hearth address of the lowest crossing byte (DESIGN
CHOICE, entry 68: R283 says "the lowest failing byte" and not in which order). A posted kind-3 write of a higher-numbered
source, acknowledged at its source, is not backed off and waits for hearth `m`'s bus (DESIGN CHOICE, entry 44). -/
def State.decodeArrival (s : State) (f : FlueId) (b : PieceBlk) (m : HearthId) : State :=
  let cfg := (s.hearth m).cfg
  let host := b.srcPort.val = 16
  let addrOf := fun (x : Nat) => match cfg.down x with | some w => cfg.byteAddr w.dataInv w.base (x - w.off) | none => x
  let (first, inside) := cfg.access b
  match cfg.down (blkFirst b), inside with
  | some w, true =>
    let key := s.arrivalKey b
    match if keyMatches key cfg.ktag then none else first with
    | some x => s.faultArrival b m (addrOf x) key
    | none =>
      if !host ∧ b.cls = .nonPosted ∧ s.mustYield b m then s.backOff b
      else
        let p := { s.landed f b (hearthPort m) with key := key, addr := addrOf (blkFirst b), errResp := w.errResp, ca := w.ca }
        let cost := Config.costCrossing + Config.costHandshake * (cfg.downCycles w (!blkReads b) b.bytes).length + replyCost b
        (s.takeFarLock p m).presentArrival f b (piecePath (fluePort f) (hearthPort m) 0) cost (.piece p)
  | _, _ => s.farArrival f b

/-- R174, R235, R240, R284: an arrival for hearth `m` of this bridge. One that would fail the check while hearth `m` is
neither READY nor IN_SERVICE ends as the far-side error of R235, with no check (DESIGN CHOICE, entry 69: R280 and R235 do
not order the two). -/
def State.landHearth (s : State) (f : FlueId) (b : PieceBlk) (m : HearthId) : State :=
  let host := b.srcPort.val = 16
  let live := (s.hearth m).slot = .inService || (!host && (s.hearth m).slot = .ready)
  if s.rereading m then
    if !host ∧ b.cls = .nonPosted then s.backOff b
    else { s with chim := { s.chim with held := s.chim.held ++ [(f, b)] } }
  else if !live then s.farArrival f b
  else s.decodeArrival f b m

/-- R106, R107: the cost of kind-0 work at position 0. -/
def kind0Cost (b : PieceBlk) : Nat :=
  let k := b.bytes.length
  Config.costCrossing + replyCost b +
    (if blkReads b then Config.costHeader + Config.costHeader + k
     else if b.cls = .nonPosted then Config.costHeader + k + 2 * Config.costHeader
     else Config.costHeader + k)

/-- R161: the tag range in use: lowest tag and number of tags. -/
def State.tagRange (s : State) : Nat × Nat :=
  if (s.fn 0).tenBit then (0x100, 512) else if (s.fn 0).devctl.getLsbD 8 then (0, 256) else (0, 32)

/-- R172: tags in use, and those that requests already on their way to the host will take. -/
def State.tagsSpoken (s : State) : Nat :=
  let q := fun (p : Piece) => p.dst.val = 16 && p.cls = .nonPosted
  s.tags.length + (s.txq.filter fun t => t.kind = .mrd || t.kind = .flush).length
    + ((s.waitingItems ++ s.items.admitted).filter fun it => it.work.isPiece q).length
    + ((s.sw.q.toList.map fun l => (l.filter q).length).sum)

/-- R172: a request for the host waits at its flue port: no tag is free, or an earlier one waits. -/
def State.tagWait (s : State) : Bool :=
  decide (s.tagRange.2 ≤ s.tagsSpoken) || s.chim.held.any fun x => x.2.dstPort.val = 16

/-- R172, R237, R287, R320: kind-0 work of a member hearth at the host's position. An M0 bridge has no host; during an FLR of the
hearth's function the work is discarded; without Bus Master Enable it ends under R237. Outside D0 (R183) a request is backed off and a write, already acknowledged,
ends as under R237 (DESIGN CHOICE, entry 28). -/
def State.landHost (s : State) (f : FlueId) (b : PieceBlk) : State :=
  let fn := s.arrivalFn b
  if s.mode ≠ .m2 ∨ !s.exposed fn.val then s.farArrival f b
  else if (s.fn fn).flr.isSome then (if b.cls = .nonPosted then s else s.performedFrom b.srcPos b.num)
  else if !(s.fn fn).bme then s.farArrival f b
  else if (s.fn fn).power ≠ .d0 then (if b.cls = .nonPosted then s.backOff b else s.farArrival f b)
  else if b.cls = .nonPosted ∧ s.tagWait then { s with chim := { s.chim with held := s.chim.held ++ [(f, b)] } }
  else s.presentArrival f b (piecePath (fluePort f) 16 0) (kind0Cost b) (.piece (s.landed f b 16))

/-- R172, R307: requests that wait for a tag are admitted in arrival order as tags come free. Before the gate all arrivals
wait (R87). -/
def State.landWaiting (s : State) : State :=
  let mine := s.chim.held.filter fun x => x.2.dstPort.val = 16
  if mine.isEmpty ∨ !s.gate then s
  else
    forList mine (fun x s => s.landHost x.1 x.2)
      { s with chim := { s.chim with held := s.chim.held.filter fun x => x.2.dstPort.val ≠ 16 } }

/-- R271: the change an interrupt block carries. -/
def blkChange (b : PieceBlk) (f : FlueId) : Change :=
  { hearth := blkHearth b, pos := b.srcPos, input := b.input, entry := BitVec.ofNat 8 b.addr,
    slotCode := if b.input = 8 then some b.code else none, level := b.addr.testBit 8, via := fluePort f,
    key := b.key, waitFor := [] }

/-- R244, R248, R287: an interrupt change for a sink on this bridge. -/
def State.landChange (s : State) (f : FlueId) (b : PieceBlk) : State :=
  let c := blkChange b f
  match s.sinkOf c with
  | none => s
  | some k =>
    let (port, cost) : PortId × Nat := match k with
      | .inta _ => (16, Config.costCrossing + Config.costHeader)
      | .irqo m _ => (hearthPort m, Config.costCrossing)
    s.presentSlot (flueSlot f) (fluePort f) (portPath (fluePort f) ++ portPath port) cost (.change c)

/-- A flue tag in flight that a completion answers: its own flue's first. -/
def State.findTag (s : State) (f : FlueId) (port : PortId) (tag : Nat) : Option (FlueId × Origin) :=
  let mine := fun (o : Origin) => match o with
    | .cycle n _ => port = hearthPort n
    | .posted n _ => port = hearthPort n
    | .host _ => port.val = 16
    | _ => false
  let look := fun (g : FlueId) => ((s.flue g).tags.find? fun t => t.1 = tag && mine t.2.1).map fun t => (g, t.2.1)
  match look f with
  | some x => some x
  | none => look (FlueId.other f)

/-- R307: a flue tag is released. -/
def State.dropTag (s : State) (g : FlueId) (tag : Nat) (o : Origin) : State :=
  s.modFlue g fun x => { x with tags := x.tags.filter fun t => !(t.1 = tag && t.2.1 = o) }

/-- R232, R307: a completion for a request of this bridge crosses to its requester; one whose request is gone is
discarded. -/
def State.landCompletion (s : State) (f : FlueId) (b : PieceBlk) : State :=
  match s.findTag f b.dstPort b.tag with
  | none => s
  | some (g, o) => (s.dropTag g b.tag o).push { s.landed f b b.dstPort with addr := 0, origin := o }

/-- R106, R288: a piece for another position goes on over the other flue. One that comes when that link has dropped waits for it
(DESIGN CHOICE, entry 89: R299 discards the pieces bound for a link that drops, and does not speak of later ones). -/
def State.landTransit (s : State) (f : FlueId) (b : PieceBlk) : State :=
  let g := FlueId.other f
  let cost := Config.costCrossing + (if b.bytes.isEmpty ∨ blkReads b then 1 else 2) * Config.costFlueBlock
  s.presentArrival f b (piecePath (fluePort f) (fluePort g) 0) cost
    (.piece { s.landed f b (fluePort g) with origin := .remotePosted b.srcPos b.num })

/-- R290: an accepted piece goes where its header says. -/
def State.land (s : State) (f : FlueId) (b : PieceBlk) : State :=
  match b.cls with
  | .completion => s.landCompletion f b
  | .interrupt => s.landChange f b
  | _ =>
    match portHearth b.dstPort with
    | some m => s.landHearth f b m
    | none => if b.dstPort.val = 16 then s.landHost f b else s.farArrival f b

/-- R284: arrivals held for hearth `n` are decoded, from the gate on (R87). -/
def State.releaseArrivals (s : State) (n : HearthId) : State :=
  if s.gate then
    let mine := s.chim.held.filter fun x => x.2.dstPort = hearthPort n
    forList mine (fun x s => s.landHearth x.1 x.2 n)
      { s with chim := { s.chim with held := s.chim.held.filter fun x => x.2.dstPort ≠ hearthPort n } }
  else s

/-- R87, R309: an accepted piece, or one of another position that passes through, waits for the gate and then goes its way. -/
def State.landGated (s : State) (f : FlueId) (b : PieceBlk) : State :=
  if !s.gate then { s with chim := { s.chim with held := s.chim.held ++ [(f, b)] } }
  else if b.dstPos = s.pos then s.land f b
  else s.landTransit f b

/-- R87: at the gate the arrivals that wait go on, in order of arrival. -/
def State.landAll (s : State) : State :=
  forList s.chim.held (fun x s => s.landGated x.1 x.2) { s with chim := { s.chim with held := [] } }

end Sys2Proof.Machine
end

