-- ==== Sys2Proof/Machine/Downstream.lean ====
section
/-! DEFINITION. Host memory requests: BAR-0 of a hearth function (R166, R170, R171, R174, R221 to R226), BAR-2 of function 0
(R261), and their six commands. -/

namespace Sys2Proof.Machine

open Sys2Proof

/-- R106, R107: the cost of one piece of a host request, its crossing included; `far` is the cost at the destination. -/
def hostPieceCost (read : Bool) (first : Bool) (len far : Nat) : Nat :=
  (if first then Config.costHeader else 0) + (if read then Config.costHeader + len else len) + Config.costCrossing + far

/-- A piece of a host request. R271, R290: one that is posted has no host tag (DESIGN CHOICE, entry 87: a posted TLP waits for no
completion, and neither rule says whether its tag field counts). -/
def hostPiece (r : HostReq) (dst : PortId) (dstPos : Fin 4) (far : PortId) (key : BitVec 4) (addr : Nat)
    (bytes : List (Nat × Byte)) (nonPosted errResp ca : Bool) : Piece :=
  { id := 0, cls := if r.read ∨ nonPosted then .nonPosted else .posted,
    kind := if r.read then .read else if nonPosted then .nonPostedWrite else .postedWrite,
    src := 16, dst := dst, srcPos := 0, dstPos := dstPos, key := key, addr := addr, bytes := bytes,
    tag := if r.read ∨ nonPosted then r.tag else 0x3FF, status := .sc, origin := .host r.id, fn := r.fn, wfn := r.fn, errResp := errResp, ca := ca, far := far, reqPort := 16, readyAt := 0,
    input := 0, code := 0, whole := none }

/-- R107, R221, R223: the pieces of a BAR-0 request to hearth `n` on this bridge, with their costs less the header. -/
def State.bar0Pieces (s : State) (r : HostReq) (n : HearthId) (ps : List (DWin × Nat × Nat)) (nonPosted : Bool) :
    List (Piece × Nat) :=
  ps.flatMap fun part => (blocks part.2.1 part.2.2).map fun b =>
    let bytes := bytesIn r.bytes b.1 b.2
    let cfg := (s.hearth n).cfg
    let cyc := (cfg.downCycles part.1 (!r.read) bytes).length
    let a := cfg.byteAddr part.1.dataInv part.1.base (((bytes.head?.map (·.1)).getD b.1) - part.1.off)
    (hostPiece r (hearthPort n) s.pos (hearthPort n) cfg.hkey a bytes nonPosted part.1.errResp part.1.ca,
      hostPieceCost r.read false b.2 (Config.costHandshake * cyc))

/-- R261, R262: the pieces of a BAR-2 request. -/
def State.bar2Pieces (_s : State) (r : HostReq) : List (Piece × Nat) :=
  (blocks r.off r.len).map fun b =>
    let bytes := bytesIn r.bytes b.1 b.2
    (hostPiece r 19 0 19 15 b.1 bytes false true true,
      hostPieceCost r.read false b.2 (Config.costBeat * (wordsOf bytes).length))

/-! ### What position 0 knows of its members' hearths -/

/-- R189, R193: the Strap Mirror byte at body offset `o` in the copy of position `p`. -/
def State.copyByte (s : State) (p : Fin 4) (o : Nat) : Option Nat :=
  ((vget s.chim.copies p).dwords.find? fun d => d.1 = o / 4).map fun d => d.2.toNat / 2 ^ (8 * (o % 4)) % 256

/-- R189: the ball a Strap Mirror byte shows. -/
def ballOfByte (b : Nat) : Ball :=
  let st : BallStatus := match b / 16 % 8 with | 0 => .valid | 1 => .gap | 2 => .driven | 3 => .unassigned | _ => .conflict
  { code := BitVec.ofNat 4 b, own := st, shown := st }

/-- R189, R193, R305: the settings of a member's hearth as the copy of its Strap Mirror last showed them; `none` before the copy has
come (DESIGN CHOICE, entry 64: R305 takes the watchdog from there; the write modes, error modes and keys that R225, R236 and
R275 need at position 0 are taken from the same copy). -/
def State.memberCfg (s : State) (h : Fin 64) : Option HearthCfg :=
  let ball := fun (k : Nat) => (s.copyByte (posOf h) (0xC4 + 69 * (hearthOf h).val + k)).map ballOfByte
  if (List.range 69).all fun k => (ball k).isSome then
    some (hearthCfgOf (posOf h) (Vector.ofFn fun k : Fin 69 => (ball k.val).getD Ball.reset))
  else none

/-- R221, R275, R279, R287, R289: the pieces of a request to a hearth at another position, with a PIECE block and a data block each;
each says of which request it is part. -/
def State.flueReqPieces (s : State) (r : HostReq) : List (Piece × Nat) :=
  let q := posOf r.chimneyHearth
  let m := hearthOf r.chimneyHearth
  let dst := s.portToward q (if r.read ∨ r.nonPosted then .nonPosted else .posted)
  let key : BitVec 4 := match s.memberCfg r.chimneyHearth with | some c => c.hkey | none => 0
  let parts := if r.parts.isEmpty then [{ off := r.off, len := r.len, errResp := false, ca := false : ReqPart }] else r.parts
  let whole := fun (o : Nat) => some { off := r.off, len := r.len, first := r.bytes.head?.map (·.1), lead := o = r.off : Whole }
  parts.flatMap fun part => (blocks part.off part.len).map fun b =>
    let bytes := bytesIn r.bytes b.1 b.2
    ({ hostPiece r dst q (hearthPort m) key b.1 bytes r.nonPosted part.errResp part.ca with whole := whole b.1 },
      hostPieceCost r.read false b.2 (if r.read then Config.costFlueBlock else 2 * Config.costFlueBlock))

/-- R107, R109: the pieces are presented; the first one carries the header. -/
def State.presentPieces (s : State) (l : List (Piece × Nat)) : State :=
  (forList l.zipIdx
    (fun p s =>
      let extra := if p.2 = 0 then Config.costHeader else 0
      s.presentHost 16 (piecePath 16 p.1.1.dst p.1.1.addr) (p.1.2 + extra) (.piece p.1.1)) s)

/-- The request is issued with its pieces (R171). -/
def State.issueWith (s : State) (id : Nat) (l : List (Piece × Nat)) : State :=
  (s.modReq id fun r => { r with st := .issued, left := l.length, openPieces := l.length }).presentPieces l

/-- R170: requests issued from the pool to hearths of this bridge. -/
def State.poolUsed (s : State) : Nat := (s.reqs.filter fun r => r.st = .issued && r.pooled).length

def State.poolOf (s : State) (h : Fin 64) : Nat :=
  (s.reqs.filter fun r => r.st = .issued && r.pooled && r.chimneyHearth = h).length

/-- R168, R170, R171, R225: request `r` may be issued now; `before` are the requests received earlier. -/
def State.mayIssue (s : State) (r : HostReq) (before : List HostReq) : Bool :=
  let same := before.filter fun x => !x.stone && x.chimneyHearth = r.chimneyHearth
  let blockedByWrite := same.any fun x => !x.read && x.nonPosted
  let blockedByWait := same.any fun x => x.st = .waiting && (r.pooled || !x.pooled)
  let poolOk := !r.pooled || (s.poolUsed < Config.poolNp && s.poolOf r.chimneyHearth < Config.poolPerHearth)
  !blockedByWrite && !blockedByWait && poolOk

/-- R170: room for a request toward another position. -/
def State.mayCross (s : State) (r : HostReq) : Bool :=
  let q := posOf r.chimneyHearth
  let f := if s.portToward q .nonPosted = 17 then FlueId.a else .b
  if r.read ∨ r.nonPosted then s.flueNp f < Config.flueNp else s.storeUsed .posted + 128 ≤ Config.sendStore

/-- R216, R318: within 1,000 ticks of the release of HnRSTO_N; the 4 ticks after a bus release (R208) are no such wait. -/
def State.holdoff (s : State) (n : HearthId) : Bool :=
  match (s.hearth n).bus.breqFrom with
  | some t => (s.hearth n).bus.breqHold && !s.reached t
  | none => false

/-- The requests before `id`, in order of receipt. -/
def State.earlier (s : State) (id : Nat) : List HostReq := s.reqs.takeWhile fun r => r.id ≠ id

/-- R171: a decoded request that waits is issued when its bounds allow. -/
def State.tryIssue (s : State) (id : Nat) : State :=
  match s.req id with
  | none => s
  | some r =>
    if r.st = .waiting then
      let n := hearthOf r.chimneyHearth
      if s.isLocal r then
        if s.mayIssue r (s.earlier id) ∧ !s.holdoff n then
          match (s.hearth n).cfg.parts 8 r.off r.len with
          | some ps => s.issueWith id (s.bar0Pieces r n ps r.nonPosted)
          | none => s.missReq id
        else s
      else if s.mayIssue r (s.earlier id) ∧ s.mayCross r then s.issueWith id (s.flueReqPieces r) else s
    else s

/-- R171: waiting requests are tried in order of receipt. -/
def State.issueWaiting (s : State) : State := forList (s.reqs.map (·.id)) (fun id s => s.tryIssue id) s

/-- R221, R225: a decoded request waits to be issued: each part keeps its window's mode, and a write with a part in a
non-posted window is non-posted as a whole. R216: its watchdog does not run in the hold-off. -/
def State.decoded (s : State) (id : Nat) (ps : List (DWin × Nat × Nat)) (pooled : Bool) (from' : Tally) : State :=
  (s.modReq id fun r =>
    let np := !r.read && ps.any fun p => p.1.nonPosted
    { r with
      st := .waiting, nonPosted := np, pooled := pooled && (r.read || np), wdStart := from'
      parts := ps.map fun p => { off := p.2.1, len := p.2.2, errResp := p.1.errResp, ca := p.1.ca } }).tryIssue id

/-- R216: the tick from which the watchdog of a request to hearth `n` runs. -/
def State.watchFrom (s : State) (n : HearthId) : Tally :=
  match (s.hearth n).bus.breqFrom with
  | some t => if s.holdoff n then t else s.now
  | none => s.now

/-- R279, R283: the lowest byte of a request, by BAR-0 offset, that the downstream unit checks: a byte requested, or an
enabled byte of a write. In a window that mirrors bytes it stands for the lowest failing byte (DESIGN CHOICE, entry 68). -/
def checkedByte (cfg : HearthCfg) (r : HostReq) (ps : List (DWin × Nat × Nat)) : Option Nat :=
  match r.bytes with
  | [] => none
  | c :: _ => (ps.find? fun p => decide (p.2.1 ≤ c.1 ∧ c.1 < p.2.1 + p.2.2)).map fun p =>
      cfg.byteAddr p.1.dataInv p.1.base (c.1 - p.1.off)

/-- R221, R222, R274, R280, R282: a request is decoded and checked; it misses, faults, or waits to be issued. -/
def State.decodeReq (s : State) (id : Nat) : State :=
  match s.req id with
  | none => s
  | some r =>
    let n := hearthOf r.chimneyHearth
    let cfg := (s.hearth n).cfg
    match cfg.parts 8 r.off r.len with
    | none => s.missReq id
    | some ps =>
      match if keyMatches cfg.hkey cfg.ktag then none else checkedByte cfg r ps with
      | none => s.decoded id ps true (s.watchFrom n)
      | some a =>
        let e := s.downFaultEntry n a cfg.hkey 16 0 (if r.read then .read else .postedWrite)
        (((s.writeFault e).refuseReq r .ca (some .cplAbort))).closeReq id

/-- R215: a request received before the press tick of a drain whose windows are still open. -/
def State.beforePress (s : State) (id : Nat) (n : HearthId) : Bool :=
  match s.req id, (s.hearth n).drain with
  | some r, some d => d.rsto.isNone && decide (s.since d.press < s.since r.receipt)
  | _, _ => false

/-- R174, R215: what becomes of a request to a hearth of this bridge in its present state. -/
def State.placeReq (s : State) (id : Nat) (n : HearthId) : State :=
  match (s.hearth n).slot with
  | .inService => if s.rereading n then s else s.decodeReq id
  | .draining => if s.beforePress id n then (if s.rereading n then s else s.decodeReq id) else s.missReq id
  | .sampling => s
  | _ => s.missReq id

/-- R174, R284: requests held for hearth `n`, and arrivals held for it, are decoded, or handled as misses, in order of
arrival. -/
def State.releaseHeld (s : State) (n : HearthId) : State :=
  (forList ((s.reqs.filter fun r => r.st = .held && !r.stone && s.isLocal r && hearthOf r.chimneyHearth = n).map (·.id))
    (fun id s => s.placeReq id n) s).releaseArrivals n

/-- A request as received (R153). -/
def State.newReq (s : State) (fn : FnId) (stone read : Bool) (q : MemReq) : HostReq :=
  { id := s.nextId, fn := fn, stone := stone, read := read, off := q.off, len := q.len,
    bytes := enabledBytes q.off q.len q.be q.data, dataLen := q.len, tag := q.tag, hdr := q.hdr, receipt := s.now,
    wdStart := s.now, st := .held, nonPosted := false, pooled := false, credits := true, left := 0, openPieces := 0,
    nextOff := q.off, got := [], parts := [] }

/-- R215, R323: hearth `n` drains. -/
def State.draining (s : State) (n : HearthId) : Bool := (s.hearth n).slot = .draining

/-- R323: function `fn` is that of a hearth of this bridge in a drain. -/
def State.drainsFor (s : State) (fn : FnId) : Bool :=
  let h : Fin 64 := Fin.ofNat 64 (fn.val - 1)
  fn.val ≠ 0 && posOf h = s.pos && s.draining (hearthOf h)

/-- R23, R179, R183, R317, R319, R323, R327: why a memory request is an Unsupported Request whatever it addresses; the flag says
that the error is recorded, as for a miss (R222) in a drain. -/
def State.turnedAway (s : State) (fn : FnId) : Option Bool :=
  if (s.fn fn).flr.isSome then some (s.drainsFor fn)
  else if s.mode.tests || s.mode = .m7 || !(s.fn fn).mse || (s.fn fn).power ≠ .d0 then some true
  else none

/-- R147: the Max_Payload_Size in use of a function. -/
def FnCfg.mps (c : FnCfg) : Nat := 128 * 2 ^ min 2 (c.devctl.toNat / 32 % 8)

/-- A memory request arrives: it takes credits, and is dropped as malformed (R160), turned away, dropped as poisoned (R310)
or kept. -/
def State.arrive (s : State) (fn : FnId) (stone read : Bool) (q : MemReq) (serve : Nat → State → State) : State :=
  let r := s.newReq fn stone read q
  let id := r.id
  let s1 := { s with nextId := s.nextId + 1, wake := true, reqs := s.reqs ++ [r],
                     fc := s.fc.take (!read) (if read then 0 else q.len) }
  if !read ∧ (s.fn fn).mps < q.len then (s1.recordUnc fn .malformed false q.hdr).closeReq id
  else match s.turnedAway fn with
  | some logged => (s1.refuseReq r .ur (if logged then some .ur else none)).closeReq id
  | none =>
    if q.poisoned ∧ !read then ((s1.recordUnc fn .poisoned false q.hdr)).closeReq id
    else serve id s1

/-- BAR-0 of chimney hearth `h`. A hearth at another position is reached over a flue (R287), and its bridge decodes the request; a
write takes its mode from the copy of the member's straps (R225, entry 64). -/
def State.serveBar0 (h : Fin 64) (id : Nat) (s : State) : State :=
  if posOf h = s.pos then s.placeReq id (hearthOf h)
  else if s.mode = .m2 then
    match s.memberCfg h, s.req id with
    | some cfg, some r =>
      match cfg.parts 8 r.off r.len with
      | some ps => s.decoded id ps (!r.read) s.now
      | none => s.decoded id [] false s.now
    | _, _ => s.decoded id [] false s.now
  else s.missReq id

/-- R261, R279, R282: BAR-2 of function 0: the check covers every byte requested. -/
def State.serveBar2 (id : Nat) (s : State) : State :=
  match s.req id with
  | none => s
  | some r =>
    if 1048576 < r.off + r.len then s.missReq id
    else
      match s.stoneFault 15 (if r.read then (List.range r.len).map (r.off + ·) else r.bytes.map (·.1)) with
      | some a =>
        let e := s.stoneFaultEntry a 15 16 (if r.read then .read else .postedWrite)
        (((s.writeFault e).refuseReq r .ca (some .cplAbort))).closeReq id
      | none =>
        let ps := s.bar2Pieces r
        if ps.isEmpty then s.closeReq id else s.issueWith id ps

/-- A request to a function the mode does not expose: an Unsupported Request recorded in function 0 (R156). -/
def State.noFunction (s : State) (read : Bool) (q : MemReq) : State :=
  let r := s.newReq 0 false read q
  let s1 := { s with nextId := s.nextId + 1, wake := true, reqs := s.reqs ++ [r],
                     fc := s.fc.take (!read) (if read then 0 else q.len) }
  (s1.refuseReq r .ur (some .ur)).closeReq r.id

/-- R17, R63, R90: a host link exists in this mode, and the gate is open, so TLPs can arrive. -/
def State.hostLinkUp (s : State) : Bool := s.running && s.mode.exposes && !s.island.perstLow && s.gate

def State.bar0 (s : State) (h : Fin 64) (read : Bool) (q : MemReq) : State :=
  if s.hostLinkUp then
    if s.exposed (fnOfChimney h).val then s.arrive (fnOfChimney h) false read q (State.serveBar0 h) else s.noFunction read q
  else s

/-- MEMORY_READ_BAR0 (R174, R221, R226). -/
def execMemoryReadBar0 (h : Fin 64) (req : MemReq) (s : State) : Host.Outcome State Fault Refusal :=
  .next (s.bar0 h true req)

/-- MEMORY_WRITE_BAR0 (R174, R221, R225). -/
def execMemoryWriteBar0 (h : Fin 64) (req : MemReq) (s : State) : Host.Outcome State Fault Refusal :=
  .next (s.bar0 h false req)

def State.bar2 (s : State) (read : Bool) (q : MemReq) : State :=
  if s.hostLinkUp then s.arrive 0 true read q (fun id s => s.serveBar2 id) else s

/-- MEMORY_READ_BAR2 (R261). -/
def execMemoryReadBar2 (req : MemReq) (s : State) : Host.Outcome State Fault Refusal := .next (s.bar2 true req)

/-- MEMORY_WRITE_BAR2 (R261). -/
def execMemoryWriteBar2 (req : MemReq) (s : State) : Host.Outcome State Fault Refusal := .next (s.bar2 false req)

/-- R166, R211: the watchdog of a request in ticks. For a member's hearth position 0 takes it from the Strap Mirror copy
(R305), offset 0xC4 + 69n + 3. -/
def State.reqWatchdog (s : State) (r : HostReq) : Nat :=
  if s.isLocal r then (s.hearth (hearthOf r.chimneyHearth)).cfg.wdog
  else
    match s.copyByte (posOf r.chimneyHearth) (0xC4 + 69 * (hearthOf r.chimneyHearth).val + 3) with
    | some b => Config.watchdogTicks (b % 16)
    | none => Config.watchdogTicks 15

/-- R166: the tick at which a BAR-0 request ends: the deadline, or its watchdog, which does not run while it is held. Of a request
that has gone to a member, whose cycles position 0 does not see, it keeps the deadline only, and the waits of the member's hearth (R211)
bound its cycles (DESIGN CHOICE, entry 88). -/
def State.reqDue (s : State) (r : HostReq) : Tally :=
  let w := s.reqWatchdog r
  if r.st = .held ∨ !s.isLocal r ∨ Config.requestDeadline ≤ ticksSince r.wdStart r.receipt + w then
    tickPlus r.receipt Config.requestDeadline
  else tickPlus r.wdStart w

/-- HOST_REQUEST_DEADLINE (R166, R174): the rest of a BAR-0 request ends under its window's far-side error mode; one still
held ends as a miss. -/
def execHostRequestDeadline (id : Nat) (s : State) : Host.Outcome State Fault Refusal :=
  match s.req id with
  | none => .next s
  | some r =>
    if s.running ∧ !r.stone then
      let s1 := s.advanceTo (s.reqDue r)
      let s2 := if r.st = .held then s1.missReq id else s1.endReq id true none
      .next s2.issueWaiting
    else .next s

/-- FLUE_HOLD_EXPIRY (R305): a host non-posted request held for want of a path to its position ends when its target hearth's watchdog expires,
counted from receipt. -/
def execFlueHoldExpiry (id : Nat) (s : State) : Host.Outcome State Fault Refusal :=
  match s.req id with
  | none => .next s
  | some r =>
    if s.running ∧ !r.stone ∧ (r.read ∨ r.nonPosted) ∧ !s.isLocal r ∧ (s.pathFor (posOf r.chimneyHearth) .nonPosted).isNone then
      let s1 := s.advanceTo (tickPlus r.receipt (s.reqWatchdog r))
      .next ((s1.endReq id true none).issueWaiting)
    else .next s

end Sys2Proof.Machine
end

