-- ==== Sys2Proof/Machine/Slots.lean ====
section
/-! DEFINITION. Hearth slots: interrupt sources (R241, R242, R251), entry to and exit from service (R213 to R217), supply
collapse (R218, R219), hearth reset (R318), the drain (R215), reload (R72) and resample (R73, R91), with their commands. -/

namespace Sys2Proof.Machine

open Sys2Proof

/-! ### Interrupt sources -/

/-- R248: the cost of a change on this bridge: a crossing, a message header for class 1 and slot events, and a flue block
when it leaves. -/
def State.changeCost (s : State) (r : Route) : Nat :=
  match r with
  | .inta _ => Config.costCrossing + Config.costHeader + (if s.mode = .m3 then Config.costFlueBlock else 0)
  | .remote _ _ => Config.costCrossing + Config.costFlueBlock
  | _ => Config.costCrossing

/-- R97, R248: the port a change crosses to. -/
def State.changePort (s : State) (r : Route) : PortId :=
  match r with
  | .inta _ => if s.mode = .m3 then s.portToward 0 .interrupt else 16
  | .irqo m _ => hearthPort m
  | .remote q _ => s.portToward q .interrupt
  | .unused => 16

/-- R247: a source change enters the hearth's slot behind its earlier pieces; input 8 is the slot-event source. -/
def State.presentChange (s : State) (n : HearthId) (r : Route) (input : Fin 9) (entry : BitVec 8) (code : Option Nat)
    (level : Bool) : State :=
  if r = .unused then s
  else
    s.presentSlot (hearthSlot n) (hearthPort n) (portPath (hearthPort n) ++ portPath (s.changePort r)) (s.changeCost r)
      (.change { hearth := n, pos := s.pos, input := input, entry := entry, slotCode := code, level := level,
                 via := hearthPort n, key := (s.hearth n).cfg.ktag, waitFor := (s.hearth n).posted })

/-- R248, R251: a level change of the slot-event source of hearth `n`, routed to the INTA wire of the hearth's function. -/
def State.presentSlotChange (s : State) (n : HearthId) (code : Option Nat) (level : Bool) : State :=
  s.presentChange n (.inta (fnOfChimney (chimneyOf s.pos n))) 8 (slotEntry (chimneyOf s.pos n)) code level

/-- R251, R253: a slot event of R217 sets the slot-event source when SHnBSIZE[3] is 1; a source that is set costs nothing
after its one change. A member sends each event, and position 0 holds the source. -/
def State.slotEvent (s : State) (n : HearthId) (x : Slot) : State :=
  if (s.hearth n).cfg.slotRoute then
    if s.mode = .m3 then s.presentSlotChange n (some x.code) true
    else
      let h := chimneyOf s.pos n
      let s1 := s.setSlotSource h (some x.code)
      if (vget s.irq.slotEvents h).isNone then s1.presentSlotChange n none true else s1
  else s

/-- R247, R248, R251: a slot-event source that this bridge holds is cleared, which is an item like every change. The item of
a member's source enters the arrival slot of the flue toward that member (DESIGN CHOICE, entry 70: the spec names no slot
for it). -/
def State.clearSlotEvent (s : State) (h : Fin 64) : State :=
  if (vget s.irq.slotEvents h).isNone then s
  else
    let s1 := s.setSlotSource h none
    if posOf h = s.pos then s1.presentSlotChange (hearthOf h) none false
    else
      let via := s.portToward (posOf h) .interrupt
      s1.presentSlot (if via = 17 then flueSlot .a else flueSlot .b) via (portPath via ++ portPath 16)
        (Config.costCrossing + Config.costHeader)
        (.change { hearth := hearthOf h, pos := posOf h, input := 8, entry := slotEntry h, slotCode := none, level := false,
                   via := via, key := 0, waitFor := [] })

/-- R241: the slot states in which an input is a source. -/
def Slot.sources : Slot → Bool
  | .inService => true
  | .draining => true
  | _ => false

/-- The input of a change as a source input. -/
def inputOf (q : Fin 8) : Fin 9 := ⟨q.val, by omega⟩

/-- R242: every input of hearth `n` that is low asserts at entry to service. -/
def State.contribute (s : State) (n : HearthId) : State :=
  forList (List.finRange 8)
    (fun q s =>
      if (s.hearth n).irqLow.getLsbD q.val then
        s.presentChange n (vget (s.hearth n).cfg.irq q) (inputOf q) (vget (s.hearth n).cfg.entries q) none true
      else s) s

/-- The work is a change of a source of hearth `n`. -/
def Work.changeOf (n : HearthId) : Work → Option Change
  | .change c => if c.via = hearthPort n then some c else none
  | _ => none

/-- R112, R218, R242: hearth `n` leaves service. Its change items held in the ledger end unpaid, and every input that counts
as low, or whose item has ended so, deasserts. A slot-event source stays as it is (R252), so its change is presented anew
(entry 31). -/
def State.deassertInputs (s : State) (n : HearthId) : State :=
  let h := s.hearth n
  let lost := s.waitingItems.filterMap fun it => it.work.changeOf n
  let low := if h.slot.sources then
      (List.finRange 8).filterMap fun q => if h.irqLow.getLsbD q.val ∧ vget h.cfg.irq q ≠ .unused then some (inputOf q, vget h.cfg.entries q) else none
    else []
  let gone := lost.filterMap fun c => if c.input = 8 then none else some (c.input, c.entry)
  let s1 := s.dropItems fun it => (it.work.changeOf n).isSome
  let s2 := forList (low ++ gone).eraseDups (fun x s => s.presentChange n (routeOf s.pos x.2) x.1 x.2 none false) s1
  forList (lost.filter fun c => c.input = 8) (fun c s => s.presentChange n (routeOf s.pos c.entry) 8 c.entry c.slotCode c.level) s2

/-! ### Leaving service -/

/-- R195, R318: hearth pads powered for READY, IN_SERVICE and DRAINING: their wake is a service item (R109). -/
def State.padsOn (s : State) (n : HearthId) : State :=
  if (s.dom (padDom n)).isOn then s else s.presentService (hearthPort n) [padDom n] 0 (.padWake n)

/-- R95, R112, R218: the hearth's pads go down, and an item that asks for their wake ends. -/
def State.padsOff (s : State) (n : HearthId) : State :=
  let s1 := (s.dropItems fun it => it.work = .padWake n).dropAdmitted fun it => it.work = .padWake n
  s1.setDom (padDom n) ((s1.dom (padDom n)).fall s1.now)

/-- Pieces on their way to hearth `n`'s bus, each with the bytes that its cycles have read so far. -/
def State.piecesFor (s : State) (n : HearthId) : List (Piece × List (Nat × Byte)) :=
  let q := Piece.forBus n
  (((s.waitingItems ++ s.items.admitted).filterMap fun it => match it.work with
      | .piece p => if q p then some p else none
      | _ => none)
    ++ s.sw.q.toList.flatMap (fun l => l.filter q)).map (fun p => (p, [])) ++ (s.hearth n).bus.jobs.map fun j => (j.piece, j.got)

/-- R219: everything the bridge still has to do on hearth `n`'s bus ends under its windows' far-side error modes; bytes
already read stand. -/
def State.failBus (s : State) (n : HearthId) (ev : Bool) : State :=
  let mine := s.reqs.filter fun r => s.reqFor n r && (r.st = .waiting || r.st = .issued)
  let s1 := forList mine (fun r s => s.endReq r.id ev none) s
  let ps := s1.piecesFor n
  let s2 := (s1.removePieces (Piece.forBus n)).modHearth n fun h =>
    { h with bus := { h.bus with jobs := [], strobe := none } }
  (forList ps (fun p s => s.failPiece p.1 ev p.2) s2).freeTags

/-- R208: the bridge lets go of the hearth bus: HnBREQ_N rises in the next tick, and may fall again from tick `t`. -/
def Bus.let_go (b : Bus) (t : Tally) : Bus :=
  { b with granted := false, grantGone := false, count := 0, strobe := none, breqFrom := some t, breqHold := false }

/-- R235: cycles of other hearths BLOCKED toward hearth `n` meet a far-side error. -/
def State.failBlocked (s : State) (n : HearthId) : State :=
  forHearths
    (fun k s => match (s.hearth k).cyc with
      | some c => if c.win.kind = 2 ∧ c.win.m = n ∧ c.phase = .blocked then s.farSide k false else s
      | none => s) s

/-- R91: the strap reader is free again in the next tick. -/
def State.readerFree (s : State) : State := { s with straps := { s.straps with job := none, free := tickPlus s.now 1 } }

/-- A reload or resample of hearth `n` under way is given up. -/
def State.dropReading (s0 : State) (n : HearthId) : State :=
  let s := match s0.straps.job with
    | some j => if j.hearth = n then s0.readerFree else s0
    | none => s0
  let mine := fun (j : Option ReadJob) => match j with | some j => if j.hearth = n then none else some j | none => none
  let s1 := (s.dropItems fun it => match it.work with | .resample k _ => k = n | _ => false).dropAdmitted fun it =>
    match it.work with | .resample k _ => k = n | _ => false
  { (s1.modHearth n fun h => { h with reload := none }) with
    straps := { s1.straps with resampleQ := s1.straps.resampleQ.filter (· ≠ n), asked := mine s1.straps.asked } }

/-- R218, R219, R318: open and queued work of hearth `n`, in both directions, ends, and its lock is released. -/
def State.endHearthWork (s : State) (n : HearthId) : State := ((s.endCycle n).failBus n false).endLock n false

/-- R218: the collapse actions. The hearth's sources deassert, its work ends, its pads go to high impedance. -/
def State.collapseActions (s : State) (n : HearthId) : State :=
  let s2 := (((s.deassertInputs n).endHearthWork n).failBlocked n).dropReading n
  (s2.modHearth n fun h => { h with
    drain := none, strobeStuck := false, tapTill := none, irqLow := 0, waitLow := false,
    waitNoClock := false, rising := none, bus := { Bus.reset with breqFrom := some (tickPlus s2.now 5) } }).padsOff n

/-- Entry to a slot state, with its slot event where R217 names one. -/
def State.enter (s : State) (n : HearthId) (x : Slot) (event : Bool) : State :=
  let s1 := s.modHearth n fun h => { h with slot := x, blinkFrom := s.now, blinkOn := x = .removable || x = .strapFault }
  let s2 := if event then s1.slotEvent n x else s1
  s2.woken

/-- R213, R217: entry to STRAP_FAULT. -/
def State.strapFault (s : State) (n : HearthId) : State :=
  (s.enter n .strapFault true).modHearth n fun h => { h with goodNew := false, fell := false }

/-- R216, R318: the tick from which HnBREQ_N may fall after an entry to service: 1,000 ticks after the release of HnRSTO_N, which comes
at once, or at the end of a hearth reset. -/
def State.breqAfter (s : State) (n : HearthId) : Tally :=
  match (s.hearth n).resetFrom with
  | some h => tickPlus h (Config.flrTicks + Config.breqHoldoff)
  | none => tickPlus s.now Config.breqHoldoff

/-- R216, R217, R220, R242: entry to IN_SERVICE, with HnRSTO_N released in the same tick. -/
def State.enterService (s : State) (n : HearthId) : State :=
  let s1 := (s.enter n .inService true).padsOn n
  (s1.modHearth n fun h => { h with bus := { h.bus with breqFrom := some (s1.breqAfter n), breqHold := true } }).contribute n

/-- R86, R267, R315: hearth `n` is PARKED; its straps, counts of inputs and reloads stand, and so do the marks that HnLOCK_N,
HnSLOAD_N and HnATTN_N must rise before they count again. -/
def Hearth.park (h : Hearth) : Hearth :=
  { Hearth.reset with
    slot := .parked, balls := h.balls, cfg := h.cfg, barCode := h.barCode, barFallback := h.barFallback,
    reloads := h.reloads, presBall := h.presBall, presLow := h.presLow, pgoodBall := h.pgoodBall, pgood := h.pgood,
    sloadLast := h.sloadLast, attnLast := h.attnLast, lockLow := h.lockLow, lockMasked := h.lockMasked || h.lock.isSome }

/-! ### Hot plug commands -/

/-- R214: slot states a collapse of the supply ends. -/
def Slot.powered : Slot → Bool
  | .sampling => true
  | .ready => true
  | .inService => true
  | .draining => true
  | _ => false

/-- R212, R214, R218: HnPGOOD falls, or its bank becomes invalid. -/
def State.supplyFall (s : State) (n : HearthId) : State :=
  let s0 := s.modHearth n fun h => { h with pgood := false, goodAtGroup := false, goodNew := false, fell := h.fell || h.pgood }
  if (s0.hearth n).slot.powered then ((s0.collapseActions n).enter n .collapsed true).releaseHeld n else s0.woken

/-- The clock of the island's filters runs (R212). -/
def State.islandRuns (s : State) : Bool := s.running

/-- PGOOD_FALL (R212, R214): counted at once. -/
def execPgoodFall (n : HearthId) (s : State) : Host.Outcome State Fault Refusal :=
  .next ((s.modHearth n fun h => { h with pgoodBall := false }).supplyFall n)

/-- R76: the island senses the voltage of a VHEARTH bank. -/
def State.senseBank (s : State) (b : Fin 14) (mv : Nat) : State :=
  { s with island := { s.island with banks := vmod s.island.banks b (senseSupply Config.vhearth mv) } }

/-- VHEARTH_BANK_INVALID (R45, R76, R218): below the falling threshold each of the bank's hearths is treated as if its HnPGOOD
had fallen. -/
def execVhearthBankInvalid (level : BankLevel) (s : State) : Host.Outcome State Fault Refusal :=
  let b := level.bank
  let s1 := s.senseBank b level.mv
  .next (if vget s.island.banks b ∧ !vget s1.island.banks b then forList (bankHearths b) (fun n s => s.supplyFall n) s1 else s1)

/-- VHEARTH_BANK_VALID (R76, R82, R212): above the rising threshold the counted HnPGOOD of its hearths is low until a rise is
counted. -/
def execVhearthBankValid (level : BankLevel) (s : State) : Host.Outcome State Fault Refusal :=
  let b := level.bank
  let s1 := s.senseBank b level.mv
  .next (if !vget s.island.banks b ∧ vget s1.island.banks b then
    forList (bankHearths b) (fun n s => s.modHearth n fun h => { h with pgood := false }) s1 else s1)

/-- R27: an edge on a slot input of a hearth in service wakes the core, counted or not. -/
def State.slotEdge (s : State) (n : HearthId) : State := if (s.hearth n).slot.pads then s.woken else s

/-- R91, R214: a counted rise during the hearth's groups counts as after their start; in STRAP_FAULT a rise counts after a
fall in that state. -/
def State.goodRise (s : State) (n : HearthId) : State :=
  let s1 := s.modHearth n fun h => { h with pgood := true, goodNew := true }
  match (s.hearth n).slot with
  | .powering => s1.enterSampling n
  | .collapsed => s1.enterSampling n
  | .strapFault => if (s.hearth n).fell then s1.enterSampling n else s1.woken
  | _ => s1.woken

/-- PGOOD_RISE (R212, R214): counted at the 1,000th consecutive high tick, with the bank valid. -/
def execPgoodRise (n : HearthId) (held : Nat) (s : State) : Host.Outcome State Fault Refusal :=
  let s1 := s.modHearth n fun h => { h with pgoodBall := true }
  if s.islandRuns ∧ Config.pgoodFilter ≤ held ∧ vget s.island.banks (hearthBank n) ∧ !(s.hearth n).pgood then
    .next (s1.goodRise n)
  else .next (s1.slotEdge n)

/-- R214: a counted HnPRES_N fall. -/
def State.presenceLow (s : State) (n : HearthId) : State :=
  let s1 := s.modHearth n fun h => { h with presLow := true }
  if (s.hearth n).slot = .empty then
    if (s.hearth n).cfg.ok then s1.enter n .powering false else s1.strapFault n
  else s1.woken

/-- PRESENCE_FALL (R212, R214): counted after 2^20 ticks without a high of 4 or more ticks. -/
def execPresenceFall (n : HearthId) (held : Nat) (s : State) : Host.Outcome State Fault Refusal :=
  let s1 := s.modHearth n fun h => { h with presBall := true }
  if s.islandRuns ∧ Config.presenceFilter ≤ held ∧ !(s.hearth n).presLow then .next (s1.presenceLow n) else .next (s1.slotEdge n)

/-- R214: a counted HnPRES_N rise: EMPTY with the collapse actions, from any state but EMPTY and PARKED. -/
def State.presenceHigh (s : State) (n : HearthId) : State :=
  let s1 := s.modHearth n fun h => { h with presLow := false }
  if (s.hearth n).slot ≠ .empty ∧ (s.hearth n).slot ≠ .parked then
    ((s1.collapseActions n).enter n .empty true).releaseHeld n
  else s1.woken

/-- PRESENCE_RISE (R212, R214): counted at the 4th consecutive high tick. -/
def execPresenceRise (n : HearthId) (held : Nat) (s : State) : Host.Outcome State Fault Refusal :=
  let s1 := s.modHearth n fun h => { h with presBall := false }
  if s.islandRuns ∧ Config.removalFilter ≤ held ∧ (s.hearth n).presLow then .next (s1.presenceHigh n) else .next (s1.slotEdge n)

/-- R215: the requests for hearth `n` received in this very tick, which its order (R259) put before the press, are misses. -/
def State.missSameTick (s : State) (n : HearthId) : State :=
  forList (s.reqs.filter fun r => s.reqFor n r && r.receipt = s.now) (fun r s => (s.dropReqWork r.id).missReq r.id) s

/-- R214, R215, R217: a counted press starts a drain in IN_SERVICE and powers a REMOVABLE hearth. -/
def State.press (s : State) (n : HearthId) : State :=
  match (s.hearth n).slot with
  | .inService =>
    ((((s.modHearth n fun h => { h with slot := .draining, drain := some { press := s.now, rsto := none } }).slotEvent n
      .draining)).missSameTick n).woken
  | .removable => (s.enter n .powering false).slotEvent n .powering
  | _ => s.woken

/-- ATTN_PRESS (R212, R214): counted at the 65,536th consecutive low tick; a further press needs 65,536 high ticks between. -/
def execAttnPress (n : HearthId) (held : HeldTicks) (s : State) : Host.Outcome State Fault Refusal :=
  if s.islandRuns ∧ Config.pressFilter ≤ held.low ∧ armed (s.hearth n).attnLast s.now held.low held.high Config.pressFilter then
    .next ((s.modHearth n fun h => { h with attnLast := some s.now }).press n)
  else .next (s.slotEdge n)

/-- R215: the windows close and HnRSTO_N goes low. -/
def State.drainClose (s : State) (n : HearthId) : State :=
  (s.modHearth n fun h => { h with
    drain := h.drain.map fun d => { d with rsto := some s.now }
    cfg := { h.cfg with dw := Vector.replicate 4 none, uw := Vector.replicate 4 none } }).woken

/-- DRAIN_WORK_DONE (R215): no open or queued cycle in either direction, no reload, and HnLOCK_N high. -/
def execDrainWorkDone (n : HearthId) (s : State) : Host.Outcome State Fault Refusal :=
  match (s.hearth n).drain with
  | some d =>
    if d.rsto.isNone ∧ !s.hearthBusy n ∧ !(s.hearth n).lockSeen ∧ (s.hearth n).reload.isNone then .next (s.drainClose n)
    else .next s
  | none => .next s

/-- R72, R215, R267: open work ends as a watchdog expiry, and the lock is released as for a hearth reset: a line that stays
low counts as high. -/
def State.expireWork (s : State) (n : HearthId) : State :=
  ((((s.expireCycle n true).failBus n true).failBlocked n).endLock n false).modHearth n fun h =>
    { h with lockMasked := h.lockMasked || h.lockLow }

/-- DRAIN_EXPIRY (R174, R215): W_n after the press the remaining work ends under its error modes; a reload is abandoned, and
requests held for it are misses. -/
def execDrainExpiry (n : HearthId) (s : State) : Host.Outcome State Fault Refusal :=
  match (s.hearth n).drain with
  | some d =>
    if s.running ∧ d.rsto.isNone then
      let s1 := s.advanceTo (tickPlus d.press (s.hearth n).cfg.wdog)
      .next ((((s1.expireWork n).dropReading n).drainClose n).releaseHeld n)
    else .next s
  | none => .next s

/-- DRAIN_REMOVABLE (R215, R242): 1,000 ticks after HnRSTO_N falls the pads go to high impedance and the hearth is
REMOVABLE. -/
def execDrainRemovable (n : HearthId) (s : State) : Host.Outcome State Fault Refusal :=
  match (s.hearth n).drain with
  | some d =>
    match d.rsto with
    | some t =>
      if s.running then
        let s1 := (s.advanceTo (tickPlus t Config.removeTicks)).collapseActions n
        .next (((s1.modHearth n fun h => { h with drain := none }).enter n .removable true).releaseHeld n)
      else .next s
    | none => .next s
  | none => .next s

/-- INDICATOR_BLINK (R27, R213): HnIND is on in the first half of each period from entry to the state. -/
def execIndicatorBlink (n : HearthId) (s : State) : Host.Outcome State Fault Refusal :=
  let half := if (s.hearth n).slot = .removable then some (Config.blinkRemovable / 2)
    else if (s.hearth n).slot = .strapFault then some (Config.blinkStrapFault / 2) else none
  match half with
  | some k =>
    if s.running then
      let s1 := s.advanceTo (tickPlus (s.hearth n).blinkFrom k)
      .next (s1.modHearth n fun h => { h with blinkOn := !h.blinkOn, blinkFrom := tickPlus h.blinkFrom k }).woken
    else .next s
  | none => .next s

/-! ### Reload and resample -/

/-- R204, R231: cycles of other hearths BLOCKED toward hearth `n`, which is re-read, are backed off. -/
def State.dampBlocked (s : State) (n : HearthId) : State :=
  forHearths
    (fun k s => match (s.hearth k).cyc with
      | some c => if c.win.kind = 2 ∧ c.win.m = n ∧ c.phase = .blocked then s.damp k else s
      | none => s) s

/-- R46, R72: the ticks for which HnSLOAD_N of hearth `n` can have been seen low: those since its entry to IN_SERVICE with its pads
ON. -/
def State.sloadSeen (s : State) (n : HearthId) : Nat :=
  match s.dom (padDom n) with
  | .on t => min (s.since (s.hearth n).blinkFrom) (s.since t) + 1
  | _ => 0

/-- RELOAD_REQUEST (R72): HnSLOAD_N low for 100 ticks in IN_SERVICE, after READY and after 100 high ticks, starts a reload; one that is
counted while a reload of the hearth still runs starts none (DESIGN CHOICE, entry 90: R72 does not say whether a second follows). The
hearth's BLOCKED cycle is backed off; one whose item is held in the ledger is open work, which is paid and performed before
the sampling (DESIGN CHOICE, entry 59: R72 says "assert HnDAMP_N to each" and "no open transaction" and does not say which of
the two a held cycle is). -/
def execReloadRequest (n : HearthId) (held : HeldTicks) (s : State) : Host.Outcome State Fault Refusal :=
  if s.running ∧ s.readyHigh ∧ Config.reloadFilter ≤ min held.low (s.sloadSeen n) ∧ (s.hearth n).slot = .inService ∧ (s.hearth n).reload.isNone ∧
      armed (s.hearth n).sloadLast s.now held.low held.high Config.reloadFilter then
    let s1 := s.modHearth n fun h => { h with reload := some { start := s.now, sampling := false }, sloadLast := some s.now }
    let s2 := match (s.hearth n).cyc with
      | some c => if c.phase = Phase.blocked then s1.damp n else s1
      | none => s1
    .next (s2.dampBlocked n).woken
  else .next (s.slotEdge n)

/-- RELOAD_SAMPLING_START (R72, R91): the hearth has no open work and HnLOCK_N is high, the service item is paid and D161 is
ON. -/
def execReloadSamplingStart (n : HearthId) (s : State) : Host.Outcome State Fault Refusal :=
  match s.straps.asked, s.straps.paid with
  | some j, some t =>
    if s.running ∧ j.hearth = n ∧ j.isReload ∧ (s.dom (domOf 161)).isOn ∧ s.straps.job.isNone ∧
        !s.hearthBusy n ∧ !(s.hearth n).lockSeen ∧ (s.hearth n).reload.isSome then
      let s1 := s.advanceTo t
      .next { (s1.modHearth n fun h => { h with reload := h.reload.map fun r => { r with sampling := true } }) with
        straps := { s1.straps with asked := none, paid := none, job := some { j with start := s1.now, half := false } } }
    else .next s
  | _, _ => .next s

/-- RELOAD_DRAIN_EXPIRY (R72): W_n after the start, open work ends as a watchdog expiry and the lock is released. -/
def execReloadDrainExpiry (n : HearthId) (s : State) : Host.Outcome State Fault Refusal :=
  match (s.hearth n).reload with
  | some r =>
    if s.running ∧ !r.sampling then
      let s1 := s.advanceTo (tickPlus r.start (s.hearth n).cfg.wdog)
      .next (s1.expireWork n)
    else .next s
  | none => .next s

/-- R61: the groups of hearth `n`: 35 balls in the first, 34 in the second. -/
def firstGroup (n : HearthId) : Fin 48 := ⟨16 + 2 * n.val, by have := n.isLt; omega⟩
def secondGroup (n : HearthId) : Fin 48 := ⟨17 + 2 * n.val, by have := n.isLt; omega⟩

/-- R61, R75: the readings of one of hearth `n`'s groups are taken at the end of its convert phase. -/
def State.sampleHearthGroup (s : State) (n : HearthId) (second : Bool) (readings : List Reading) : State :=
  let g := if second then secondGroup n else firstGroup n
  ({ s with straps := { s.straps with groupTally := vset s.straps.groupTally g s.now, lastGroup := g.val } }).modHearth n fun h =>
    { h with balls := sampleBalls assignedHearth (if second then 35 else 0) (if second then 34 else 35) readings h.balls }

/-- R75, R91: the first group of a reload or resample ends, 2,500 ticks before the second. -/
def State.halfRead (s : State) (readings : List Reading) : State :=
  match s.straps.job with
  | some j =>
    if s.running ∧ !j.half then
      let s1 := s.advanceTo (tickPlus j.start (Config.groupTicks - 1))
      ({ s1 with straps := { s1.straps with job := some { j with half := true } } }).sampleHearthGroup j.hearth false readings
    else s
  | none => s

/-- R67, R75, R181: the second group of a hearth ends: the fields are checked against the BAR-0 size in effect, and shown. -/
def State.readHearth (s : State) (n : HearthId) (readings : List Reading) : State :=
  let s1 := s.sampleHearthGroup n true readings
  let h := s1.hearth n
  let bar := if h.barFallback then barSize 0 else barSize h.barCode
  s1.modHearth n fun h => { h with balls := finishHearth s.strapMode s.cfg n bar h.balls }

/-- R242, R252: the sources of hearth `n` move from the old entries to the new ones; a source whose entry stands is left. A
member tells position 0 that the slot-event source is cleared. -/
def State.moveSources (s : State) (n : HearthId) (new : HearthCfg) : State :=
  let old := (s.hearth n).cfg
  let s1 := forList (List.finRange 8)
    (fun q s =>
      if (s.hearth n).irqLow.getLsbD q.val ∧ (vget old.irq q, vget old.entries q) ≠ (vget new.irq q, vget new.entries q) then
        let s1 := s.presentChange n (vget old.irq q) (inputOf q) (vget old.entries q) none false
        s1.presentChange n (vget new.irq q) (inputOf q) (vget new.entries q) none true
      else s) s
  if old.slotRoute ∧ !new.slotRoute then
    if s.mode = .m3 then s1.presentSlotChange n (some 0) false else s1.clearSlotEvent (chimneyOf s.pos n)
  else s1

/-- RELOAD_APPLY (R72, R75, R214): 5,000 ticks of sampling end: fields are checked, and every new value is applied in one
tick; with a setting that is not VALID the hearth enters STRAP_FAULT. -/
def execReloadApply (n : HearthId) (readings : List Reading) (s : State) : Host.Outcome State Fault Refusal :=
  match s.straps.job with
  | some j =>
    if s.running ∧ j.hearth = n ∧ j.isReload ∧ j.half then
      let s1 := s.advanceTo (tickPlus j.start (Config.resampleTicks - 1))
      let s2 := s1.readerFree.readHearth n readings
      let cfg := hearthCfgOf s2.pos (s2.hearth n).balls
      let s3 := if (s2.hearth n).slot.sources then s2.moveSources n cfg else s2
      let s4 := s3.modHearth n fun h => { h with cfg := cfg, reload := none, reloads := h.reloads + 1 }
      if cfg.ok then .next (s4.releaseHeld n)
      else .next (((s4.collapseActions n).strapFault n).releaseHeld n)
    else .next s
  | none => .next s

/-- RESAMPLE_START (R91): a queued resample begins, once its item is paid and D161 is ON. -/
def execResampleStart (s : State) : Host.Outcome State Fault Refusal :=
  match s.straps.asked, s.straps.paid with
  | some j, some t =>
    if s.running ∧ !j.isReload ∧ (s.dom (domOf 161)).isOn ∧ s.straps.job.isNone then
      let s1 := s.advanceTo t
      .next { s1 with straps := { s1.straps with
        asked := none, paid := none, job := some { j with start := s1.now, half := false }
        resampleQ := s1.straps.resampleQ.filter (· ≠ j.hearth) } }
    else .next s
  | _, _ => .next s

/-- R89, R91, R214: a resampled hearth is READY before the gate and IN_SERVICE from it. -/
def State.putReady (s : State) (n : HearthId) : State :=
  if s.gate then s.enterService n else (s.enter n .ready false).padsOn n

/-- RESAMPLE_END (R91, R214): 5,000 ticks after its start. -/
def execResampleEnd (readings : List Reading) (s : State) : Host.Outcome State Fault Refusal :=
  match s.straps.job with
  | some j =>
    if s.running ∧ !j.isReload ∧ j.half then
      let n := j.hearth
      let s1 := s.advanceTo (tickPlus j.start (Config.resampleTicks - 1))
      let s2 := s1.readerFree.readHearth n readings
      let cfg := hearthCfgOf s2.pos (s2.hearth n).balls
      let s3 := s2.modHearth n fun h => { h with cfg := cfg, goodNew := false, irqLow := 0 }
      if cfg.ok then .next ((s3.putReady n).releaseHeld n)
      else .next ((s3.strapFault n).releaseHeld n)
    else .next s
  | none => .next s

/-! ### Hearth reset -/

/-- R318: a hearth reset of hearth `n` begins, in any slot state: its work ends, and so do cycles BLOCKED toward it. The slot state and
the interrupt inputs stand. -/
def State.hearthReset (s : State) (n : HearthId) : State :=
  ((s.endHearthWork n).failBlocked n).modHearth n fun h => { h with
    resetFrom := some s.now, strobeStuck := false
    bus := { Bus.reset with breqFrom := some (tickPlus s.now (Config.flrTicks + Config.breqHoldoff)), breqHold := true } }

/-- HEARTH_RESET_RELEASE (R318): at h + 10,000 HnRSTO_N is released; HnBREQ_N stays high until h + 11,000. -/
def execHearthResetRelease (n : HearthId) (s : State) : Host.Outcome State Fault Refusal :=
  match (s.hearth n).resetFrom with
  | some h =>
    if s.running then
      .next (((s.advanceTo (tickPlus h Config.flrTicks)).modHearth n fun x => { x with resetFrom := none })).woken
    else .next s
  | none => .next s

end Sys2Proof.Machine
end

