-- ==== Sys2Proof/Machine/HearthBus.lean ====
section
/-! DEFINITION. Hearth cycles: the bridge as target (R199 to R206, R227 to R239) and as master (R208, R223, R225), locks
(R210, R265 to R267) and the watchdog (R211), with their commands. -/

namespace Sys2Proof.Machine

open Sys2Proof

/-! ### The bridge as target -/

/-- R265: the scope a lock through a window covers. -/
def State.lockScope (s : State) (w : UWin) (x : Nat) : LockScope :=
  if w.kind = 1 then .word (x / 8) else .bus (if w.kind = 2 then s.pos else w.pos) w.m

/-- R265: a cycle with HnLOCK_N low is locked when it takes the lock or stays on the locked word or bus. -/
def State.isLocked (s : State) (n : HearthId) (w : UWin) (x : Nat) : Bool :=
  (s.hearth n).lockSeen && w.kind != 0 &&
    (match (s.hearth n).lock with | some l => l.scope = s.lockScope w x | none => true)

/-- R271: access kind of a hearth cycle. -/
def cycleKind (read locked nonPosted : Bool) : AccKind :=
  if read then (if locked then .lockedRead else .read)
  else if locked then .lockedWrite
  else if nonPosted then .nonPostedWrite
  else .postedWrite

/-- R92, R183, R306: the kind-0 cycles of hearth `n` may reach the host. A member goes by what position 0 has told it of the hearth's
function (entry 28). -/
def State.busMaster (s : State) (n : HearthId) : Bool :=
  if s.mode = .m3 then s.chim.memberBme.getLsbD n.val && s.chim.memberD0.getLsbD n.val else (s.fn (fnOf n)).bme && (s.fn (fnOf n)).power = .d0

/-- R170, R172: host-bound non-posted requests of hearth `n`. -/
def State.hearthTags (s : State) (n : HearthId) : Nat :=
  if s.mode = .m3 then
    ((s.flueA.tags ++ s.flueB.tags).filter fun t => t.2.2 = 16 && (match t.2.1 with | .cycle k _ => k = n | _ => false)).length
  else (s.tags.filter fun t => t.hearth = some (chimneyOf s.pos n)).length

/-- R170, R172: a bound on host-bound non-posted requests is reached; it holds back every new kind-0 cycle. The tags of the
whole chimney are position 0's. -/
def State.hostBound (s : State) (n : HearthId) : Bool :=
  Config.perHearthNp ≤ s.hearthTags n || (s.mode ≠ .m3 && s.tagRange.2 ≤ s.tags.length)

/-- R299, R307: a bound toward another position is reached; that of R307 holds back every new cycle toward the link. -/
def State.flueBound (s : State) (q : Fin 4) (cls : Cls) : Bool :=
  let f := if s.portToward q cls = 17 then FlueId.a else .b
  Config.sendStore < s.storeUsed cls + 128 || Config.flueNp ≤ s.flueNp f

/-- R255: the switch class of a hearth cycle. A locked write is of class 1, whatever its window's write mode. -/
def Cycle.cls (c : Cycle) : Cls := if c.read || c.win.nonPosted || c.locked then .nonPosted else .posted

/-- The cycle reaches the host through the chimney. -/
def State.viaChimney (s : State) : Bool := s.mode = .m3

/-- R106, R107, R248, R289: work cost of a hearth cycle, `k` its enabled bytes and `t` the target cycles of kind 2. -/
def State.cycleCost (s : State) (kind : Fin 4) (read nonPosted : Bool) (k t : Nat) : Nat :=
  let flue := if read then Config.costFlueBlock else 2 * Config.costFlueBlock
  Config.costHandshake + Config.costCrossing +
    (if kind = 0 then
      (if s.viaChimney then flue
       else if read then Config.costHeader + Config.costHeader + k
       else if nonPosted then Config.costHeader + k + 2 * Config.costHeader
       else Config.costHeader + k)
     else if kind = 1 then Config.costBeat
     else if kind = 2 then Config.costHandshake * t
     else flue)

/-- The port a hearth cycle crosses to. -/
def State.cyclePort (s : State) (w : UWin) (cls : Cls) : PortId :=
  if w.kind = 0 then (if s.viaChimney then s.portToward 0 cls else 16)
  else if w.kind = 1 then 19
  else if w.kind = 2 then hearthPort w.m
  else s.portToward w.pos cls

/-- The piece of an open cycle (R107, R233, R271, R275). -/
def State.cyclePiece (s : State) (n : HearthId) (c : Cycle) : Piece :=
  let np := c.read || c.win.nonPosted
  let kind := cycleKind c.read c.locked c.win.nonPosted
  let cls := c.cls
  let x0 := (c.bytes.head?.map (·.1)).getD 0
  let addr :=
    if c.win.kind = 2 then
      match (s.hearth c.win.m).cfg.down x0 with
      | some d => (s.hearth c.win.m).cfg.byteAddr d.dataInv d.base (x0 - d.off)
      | none => x0
    else x0
  { id := 0, cls := cls, kind := kind, src := hearthPort n, dst := s.cyclePort c.win cls, srcPos := s.pos,
    dstPos := if c.win.kind = 3 then c.win.pos else if c.win.kind = 0 then 0 else s.pos,
    key := (s.hearth n).cfg.ktag, addr := addr, bytes := c.bytes,
    tag := if c.win.kind = 2 ∧ np then (lowestFree (s.xtags.map (·.1)) 0 Config.crossingTags).getD 0x3FF else 0x3FF,
    status := .sc, origin := if np then .cycle n c.serial else .posted n c.serial, fn := fnOf n, wfn := fnOf n,
    errResp := c.win.errResp, ca := true,
    far := if c.win.kind = 3 then hearthPort c.win.m else if c.win.kind = 0 then 16 else s.cyclePort c.win cls,
    reqPort := hearthPort n, readyAt := s.now, input := 0, code := 0, whole := none }

/-- R231: the cycle is PAYING: its item enters the hearth's slot (R206, R234). -/
def State.pay (s : State) (n : HearthId) : State :=
  match (s.hearth n).cyc with
  | none => s
  | some c =>
    let p := s.cyclePiece n c
    let t := if c.win.kind = 2 then
        match (s.hearth c.win.m).cfg.down ((c.bytes.head?.map (·.1)).getD 0) with
        | some d => ((s.hearth c.win.m).cfg.downCycles d (!c.read) c.bytes).length
        | none => 0
      else 0
    let s1 := if p.tag ≠ 0x3FF then { s with xtags := s.xtags ++ [(p.tag, n)] } else s
    let s2 := s1.modHearth n fun h => { h with cyc := some { c with phase := .paying } }
    s2.presentSlot (hearthSlot n) (hearthPort n) (piecePath (hearthPort n) p.dst p.addr)
      (s2.cycleCost c.win.kind c.read c.win.nonPosted c.bytes.length t) (.piece p)

/-- R239: the hearth a BLOCKED cycle waits for. A cycle that needs a lock of another hearth does not wait: R266 backs it off. -/
def State.waitsFor (s : State) (n : HearthId) : Option HearthId :=
  match (s.hearth n).cyc with
  | some c => if c.phase = .blocked ∧ c.win.kind = 2 then some c.win.m else none
  | none => none

/-- R239: the chain of waits from hearth `n`, `k` links at most; `none` when it does not return to `n`. -/
def State.chain (s : State) (n : HearthId) : Nat → HearthId → Option (List HearthId)
  | 0, _ => none
  | k + 1, x =>
    match s.waitsFor x with
    | none => none
    | some y => if y = n then some [x] else (s.chain n k y).map (x :: ·)

/-- R239: the member of a loop that is backed off: the latest arrival, then the highest number. -/
def State.pickVictim (s : State) (l : List HearthId) : Option HearthId :=
  let ticks := fun (n : HearthId) => match (s.hearth n).cyc with | some c => s.since c.arrival | none => 0
  l.foldl (fun best n =>
    match best with
    | none => some n
    | some b => if ticks n < ticks b ∨ (ticks n = ticks b ∧ b < n) then some n else some b) none

/-- R239: a loop through hearth `n` is broken. -/
def State.breakLoop (s : State) (n : HearthId) : State :=
  match s.chain n 16 n with
  | none => s
  | some l =>
    match s.pickVictim (l.filter fun k => (s.hearth k).lock.isNone) with
    | some v => s.damp v
    | none =>
      match s.pickVictim l with
      | some v => ((s.endLock v false).logEvent (fnOf v)).damp v
      | none => s

/-- A cycle is latched (R199); a posted write counts from here for R247. -/
def State.latch (s : State) (n : HearthId) (c : Cycle) : State :=
  { (s.modHearth n fun h => { h with
      cyc := some c
      waitNoClock := false
      posted := if !c.read && !c.win.nonPosted then h.posted ++ [c.serial] else h.posted }) with nextId := s.nextId + 1 }.woken

/-- A window stands in a protocol error, which no window covers. -/
def noWindow : UWin :=
  { base := 0, size := 0, kind := 0, nonPosted := true, errResp := true, dataInv := false, toff := 0, m := 0, pos := 0 }

/-- R204, R209: the back-off causes that do not depend on the window. -/
def State.hearthCause (s : State) (n : HearthId) : Bool :=
  let h := s.hearth n
  h.slot = .ready || h.slot = .draining || h.reload.isSome || (h.bus.breqLow && h.lock.isNone)

/-- R274, R279, R280, R283: the protection check of a hearth cycle: the fault entry when it fails. It comes before the slot
state of hearth m is looked at (entry 69); in a window that mirrors bytes the entry holds the hearth address of the lowest
crossing byte (entry 68). -/
def State.cycleFault (s : State) (n : HearthId) (c : Cycle) : Option FaultEntry :=
  let kind := cycleKind c.read c.locked c.win.nonPosted
  let key := (s.hearth n).cfg.ktag
  if c.win.kind = 1 then
    (s.stoneFault key (c.bytes.map (·.1))).map fun a => s.stoneFaultEntry a key (hearthPort n) kind
  else if c.win.kind = 2 ∧ !s.rereading c.win.m then
    match (s.hearth c.win.m).cfg.down ((c.bytes.head?.map (·.1)).getD 0) with
    | some d =>
      if keyMatches key (s.hearth c.win.m).cfg.ktag then none
      else some (s.downFaultEntry c.win.m
        ((s.hearth c.win.m).cfg.byteAddr d.dataInv d.base (((c.bytes.head?.map (·.1)).getD 0) - d.off)) key (hearthPort n) s.pos kind)
    | none => none
  else none

/-- What the path check of R231 finds. -/
inductive Verdict
  | back       -- HnDAMP_N (R204)
  | far        -- a far-side error (R235)
  | wait       -- the path is only busy: BLOCKED
  | clear
  deriving DecidableEq, Repr

/-- R204, R229, R231, R234, R235, R266: the path check by kind. -/
def State.pathCheck (s : State) (n : HearthId) (c : Cycle) : Verdict :=
  let np := c.read || c.win.nonPosted
  let x0 := (c.bytes.head?.map (·.1)).getD 0
  let held : Bool := (match s.lockedBy (s.lockScope c.win x0) with | some k => k != n | none => false)
    || (c.win.kind = 2 && (s.hearth c.win.m).farLock.isSome)
  if c.win.kind = 0 then
    if s.mode = .m0 ∨ !s.inAperture (c.bytes.map (·.1)) then .far
    else if !s.busMaster n then .back
    else if s.hostBound n then .back
    else if s.viaChimney && s.flueBound 0 c.cls then .back
    else .clear
  else if c.win.kind = 1 then (if held then .back else .clear)
  else if c.win.kind = 2 then
    let m := c.win.m
    if s.rereading m then .back
    else if (s.hearth m).slot ≠ .ready ∧ (s.hearth m).slot ≠ .inService then .far
    else if ((s.hearth m).cfg.down x0).isNone then .far
    else if np ∧ (Config.crossingTags ≤ s.xtags.length ∨ Config.crossingPerHearth ≤ (s.xtags.filter fun t => t.2 = n).length) then .back
    else if held then .back
    else if (s.hearth m).bus.granted && !(s.hearth m).bus.grantGone then .clear
    else .wait
  else
    if s.flueBound c.win.pos c.cls then .back
    else if held then .back
    else .clear

/-- R265, R266: the first cycle with HnLOCK_N low takes the lock. -/
def State.takeLock (s : State) (n : HearthId) (c : Cycle) : State :=
  if c.locked ∧ (s.hearth n).lock.isNone then
    let sc := s.lockScope c.win ((c.bytes.head?.map (·.1)).getD 0)
    s.modHearth n fun h => { h with lock := some { scope := sc, last := none, contested := false } }
  else s

/-- R198, R231: a latched cycle goes through protection, path check and admission. One without an enabled byte crosses
nothing and is acknowledged, but in the cases in which its hearth is backed off. -/
def State.runCycle (s : State) (n : HearthId) (c : Cycle) : State :=
  if c.bytes.isEmpty then
    if s.hearthCause n then s.damp n else ((if c.read then s.driveRead n [] else s.answer n .ack)).endPosted n c.serial
  else match s.cycleFault n c with
  | some e => (((s.writeFault e).logEvent (fnOf n)).answer n .berr).endPosted n c.serial
  | none =>
    if s.hearthCause n then s.damp n
    else
      match s.pathCheck n c with
      | .back => s.damp n
      | .far => s.farSide n (c.win.kind = 0)
      | v =>
        let s1 := s.takeLock n c
        if v = .wait then s1.breakLoop n else s1.pay n

/-- R231: a cycle BLOCKED toward hearth `m` may not use its bus in this tick. -/
def State.blockedShut (s : State) (m k : HearthId) : Bool :=
  s.scopeShut (.bus s.pos m) (hearthPort k) || (s.hearth m).farLock.isSome

/-- R195, R318, R338: a strobe of hearth `n` reaches the bridge. -/
def State.hears (s : State) (n : HearthId) : Bool :=
  s.padsActive n && !s.scanHides n 1 && !(s.hearth n).strobeStuck && (s.hearth n).cyc.isNone && !(s.hearth n).bus.granted

/-- The cycle of a strobe through window `w`. -/
def State.newCycle (s : State) (n : HearthId) (st : Strobe) (w : UWin) : Cycle :=
  let cfg := (s.hearth n).cfg
  let bytes := cfg.upBytes w.dataInv w.base (s.crossBase w) st.addr.toNat st.be st.data
  { serial := s.nextId, arrival := s.now, read := st.rd, addr := st.addr, be := st.be, lockLow := st.lock,
    locked := s.isLocked n w ((bytes.head?.map (·.1)).getD 0), win := w, bytes := bytes, rdata := 0, fetched := none, phase := .blocked,
    captured := false }

/-- The level of HnLOCK_N at a strobe. -/
def State.lockLevel (s : State) (n : HearthId) (low : Bool) : State :=
  if low then s.modHearth n fun h => { h with lockLow := true }
  else (s.endLock n true).modHearth n fun h => { h with lockLow := false, lockMasked := false }

/-- R134, R202: an HnWAIT_N that was held for a strobe without a clock is released: the bridge is not its target. -/
def State.dropWait (s : State) (n : HearthId) : State :=
  s.modHearth n fun h => if h.waitNoClock then { h with waitNoClock := false, waitLow := false } else h

/-- HEARTH_CYCLE_START (R199, R227, R231): a data strobe falls with HnAS_N low. A cycle of which the bridge is not the target
is the machine's own, whatever its strobes. -/
def execHearthCycleStart (n : HearthId) (st : Strobe) (s : State) : Host.Outcome State Fault Refusal :=
  if s.running ∧ s.hears n ∧ (st.rd ∨ st.wr) then
    let s0 := s.lockLevel n st.lock
    match (s0.hearth n).cfg.up (st.addr.toNat - st.addr.toNat % (s0.hearth n).cfg.lanes) with
    | none => .next (s0.dropWait n).woken
    | some w =>
      if st.rd ∧ st.wr ∧ !(s0.hearth n).cfg.combined then
        let c := { s0.newCycle n st noWindow with bytes := [], locked := false }
        .next ((((s0.latch n c).logEvent (fnOf n)).answer n .berr).endPosted n c.serial)
      else
        let c := s0.newCycle n st w
        .next ((s0.latch n c).runCycle n c)
  else .next s

/-- HEARTH_CYCLE_WITHDRAW (R199): the strobe rises before any response. -/
def execHearthCycleWithdraw (n : HearthId) (s : State) : Host.Outcome State Fault Refusal :=
  match (s.hearth n).cyc with
  | some c =>
    if (c.phase.isOpen ∨ c.phase = .driving) ∧ !s.scanHides n 1 then .next ((s.endCycle n).logEvent (fnOf n)).woken else .next s
  | none => .next s

/-- R195: the line of a response that ends, driven high for one tick. -/
def Hearth.endsHigh (h : Hearth) : Option Resp := if h.ackLow then some .ack else if h.berrLow then some .berr else none

/-- HEARTH_STROBE_RELEASE (R27, R134, R195, R201, R211): the bridge releases its response at the first tick boundary after the rise.
The rise of a strobe that it has not latched ends the HnWAIT_N given for it without a clock. -/
def execHearthStrobeRelease (n : HearthId) (s : State) : Host.Outcome State Fault Refusal :=
  if s.scanHides n 1 then .next s
  else
    match (s.hearth n).cyc with
    | some c =>
      match c.phase with
      | .answered _ _ => .next (s.modHearth n fun h => { h with
          cyc := none, rising := h.endsHigh, ackLow := false, berrLow := false, dampLow := false, hd := none, strobeStuck := false }).woken
      | _ => .next s
    | none => .next ((s.dropWait n).modHearth n fun h => { h with strobeStuck := false }).woken

/-- R202: no response is asserted yet, read data being driven included. -/
def Phase.unanswered : Phase → Bool
  | .answered _ _ => false
  | _ => true

/-- WAIT_ASSERT (R202, R134): no response by the second tick after the fall. -/
def execWaitAssert (n : HearthId) (s : State) : Host.Outcome State Fault Refusal :=
  match (s.hearth n).cyc with
  | some c =>
    if c.phase.unanswered then
      let s1 := if s.running then s.advanceTo (tickPlus c.arrival 2) else s
      .next (s1.modHearth n fun h => { h with
        waitLow := h.waitLow || match h.cyc with | some c => c.phase.unanswered | none => false })
    else .next s
  | none => .next s

/-- WATCHDOG_TARGET_RESPONSE (R211, R112, R338): W_n after the strobe fall the cycle ends under its far-side error mode; so does, under
EXTEST, a read whose data are driven and which is not acknowledged. -/
def execWatchdogTargetResponse (n : HearthId) (s : State) : Host.Outcome State Fault Refusal :=
  match (s.hearth n).cyc with
  | some c =>
    if s.running ∧ (c.phase.isOpen ∨ (c.phase = .driving ∧ s.scanDrives)) then
      .next ((s.advanceTo (tickPlus c.arrival (s.hearth n).cfg.wdog)).expireCycle n false).woken
    else .next s
  | none => .next s

/-- WATCHDOG_STROBE_RELEASE (R211): the strobe does not rise within W_n of the response. -/
def execWatchdogStrobeRelease (n : HearthId) (s : State) : Host.Outcome State Fault Refusal :=
  match (s.hearth n).cyc with
  | some c =>
    match c.phase with
    | .answered _ t =>
      if s.running then
        let s1 := s.advanceTo (tickPlus t (s.hearth n).cfg.wdog)
        .next ((s1.modHearth n fun h => { h with
          cyc := none, rising := h.endsHigh, ackLow := false, berrLow := false, dampLow := false, hd := none, strobeStuck := true }).logEvent (fnOf n)).woken
      else .next s
    | _ => .next s
  | none => .next s

/-- LOCK_IDLE_EXPIRY (R211, R267): a lock idle for W_n from its last response is released and a lock timeout is recorded. A
lock held over a flue on hearth `n`'s bus is idle likewise, by the watchdog of hearth `n`, and is recorded in the function of its
holder (DESIGN CHOICE, entry 29). -/
def execLockIdleExpiry (n : HearthId) (s : State) : Host.Outcome State Fault Refusal :=
  match (s.hearth n).lock, (s.hearth n).farLock with
  | some l, _ =>
    match l.last with
    | some t =>
      if s.running then
        .next (((s.advanceTo (tickPlus t (s.hearth n).cfg.wdog)).endLock n false).logEvent (fnOf n))
      else .next s
    | none => .next s
  | none, some l =>
    if s.running then
      .next (((s.advanceTo (tickPlus l.last (s.hearth n).cfg.wdog)).endFarLock n true).logEvent (fnOfChimney (chimneyOf l.pos l.hearth)))
    else .next s
  | none, none => .next s

/-- LOCK_RELEASE (R210, R267, R318): HnLOCK_N rises, in a hearth reset too, whose receivers stay on. -/
def execLockRelease (n : HearthId) (s : State) : Host.Outcome State Fault Refusal :=
  if s.receiversOn n then .next (s.lockLevel n false).woken else .next s

/-! ### The bridge as master -/

/-- R208: the bridge has a cycle for hearth `n`: a piece on its way there, or a BLOCKED cycle toward it. -/
def State.wantsBus (s : State) (n : HearthId) : Bool :=
  s.anyPiece (Piece.forBus n) || allHearths.any fun k => s.waitsFor k = some n

/-- R238: a host request, or one that arrived over a flue, needs the bus. -/
def State.hostWants (s : State) (n : HearthId) : Bool :=
  s.anyPiece fun p => p.forBus n && 16 ≤ p.src.val

/-- R265: the job may be driven while a lock covers the bus. -/
def State.jobAllowed (s : State) (n : HearthId) (j : Job) : Bool := !s.busShut n j.piece

/-- R265: a lock covers hearth `n`'s bus, which the bridge keeps granted for its holder. -/
def State.busLocked (s : State) (n : HearthId) : Bool :=
  (s.lockedBy (.bus s.pos n)).isSome || (s.hearth n).farLock.isSome

/-- R223, R257: the next cycle is driven in the next tick: the first job that a lock allows, jobs in grant order. -/
def State.driveNext (s : State) (n : HearthId) : State :=
  let b := (s.hearth n).bus
  if b.granted ∧ !b.grantGone ∧ b.strobe = none ∧ !b.waitRelease ∧ (b.count < Config.tenureCycles ∨ s.busLocked n) then
    match b.jobs.find? (s.jobAllowed n) with
    | some j =>
      s.modHearth n fun h => { h with bus := { h.bus with
        strobe := some (tickPlus s.now 1), jobs := { j with started := true } :: h.bus.jobs.erase j } }
    | none => s
  else s

/-- BUS_REQUEST (R208, R216, R238): HnBREQ_N falls, no sooner than it may; a BLOCKED cycle of the hearth makes way for a
host or flue request. -/
def execBusRequest (n : HearthId) (s : State) : Host.Outcome State Fault Refusal :=
  let h := s.hearth n
  if s.running ∧ (h.slot = .inService ∨ h.slot = .draining) ∧ h.resetFrom.isNone ∧ (!h.bus.breqLow ∨ h.bus.breqFrom.isSome) then
    let s1 := match h.bus.breqFrom with | some t => s.advanceTo t | none => s
    let s2 := (s1.modHearth n fun h => { h with bus := { h.bus with breqFrom := none } }).issueWaiting
    if s2.wantsBus n then
      let s3 := s2.modHearth n fun h => { h with bus := { h.bus with breqLow := true, breqSince := s2.now } }
      match (s3.hearth n).cyc with
      | some c => if c.phase = Phase.blocked ∧ s3.hostWants n then .next (s3.damp n).woken else .next s3.woken
      | none => .next s3.woken
    else .next s2
  else .next s

/-- R231: cycles BLOCKED toward a bus now granted present their items. -/
def State.unblock (s : State) (m : HearthId) : State :=
  forHearths (fun k s => if s.waitsFor k = some m ∧ !s.blockedShut m k then s.pay k else s) s

/-- BUS_GRANT (R208, R209): the grant is recognized with the lines high and HnBGNT_N low, once the hearth holds no lock. -/
def execBusGrant (n : HearthId) (lines : GrantLines) (s : State) : Host.Outcome State Fault Refusal :=
  let h := s.hearth n
  if s.running ∧ h.bus.breqLow ∧ h.bus.breqFrom.isNone ∧ !h.bus.granted ∧ h.lock.isNone ∧ lines.asHigh ∧ lines.strobesHigh ∧ lines.ackHigh ∧
      lines.berrHigh ∧ lines.bgntLow ∧ !s.scanHides n 1 ∧ !s.scanHides n 2 then
    let s1 := s.modHearth n fun h => { h with bus := { h.bus with granted := true, grantGone := false, count := 0, waitRelease := false } }
    .next ((s1.unblock n).driveNext n).woken
  else .next s

/-- The first job leaves the bus. -/
def State.popJob (s : State) (n : HearthId) : State :=
  s.modHearth n fun h => { h with bus := { h.bus with jobs := h.bus.jobs.tail } }

/-- R266: the answered write was the locked write of a lock held over a flue, and someone waits. -/
def State.farWriteDone (s : State) (m : HearthId) (p : Piece) : State :=
  match (s.hearth m).farLock with
  | some l =>
    if p.kind = .lockedWrite ∧ l.contested ∧ p.srcPos ≠ s.pos ∧ s.farOk m p then s.endFarLock m true else s
  | none => s

/-- R266: the answered write was the holder's locked write, and someone waits. -/
def State.lockedWriteDone (s : State) (sc : LockScope) (p : Piece) : State :=
  if p.kind = .lockedWrite then
    match s.lockedBy sc with
    | some n =>
      let contested : Bool := match (s.hearth n).lock with | some l => l.contested | none => false
      if hearthPort n = p.src ∧ contested then s.endLock n false else s
    | none => s
  else s

/-- R166: a request's watchdog restarts at each acknowledged cycle. -/
def State.restartWatch (s : State) (o : Origin) : State :=
  match o with
  | .host id => s.modReq id fun r => { r with wdStart := s.now }
  | _ => s

/-- R205, R223: HnACK_N ends the open cycle of the first job. -/
def State.jobAck (s : State) (n : HearthId) (data : BitVec 32) : State :=
  match (s.hearth n).bus.jobs with
  | [] => s
  | j :: rest =>
    match j.cycles with
    | [] => s
    | c :: cs =>
      let got := if j.read then j.got ++ c.lanes.map (fun p => (p.2, laneByte data p.1)) else j.got
      let s1 := s.restartWatch j.piece.origin
      if cs.isEmpty then (((s1.popJob n).donePiece j.piece got).lockedWriteDone (.bus s.pos n) j.piece).farWriteDone n j.piece
      else s1.modHearth n fun h => { h with bus := { h.bus with jobs := { j with cycles := cs, got := got } :: rest } }

/-- R255, R269: the completion of a piece that ended badly crosses the switch like any other; it carries the mode's status. -/
def State.errorReply (s : State) (p : Piece) : State :=
  let st : CplStatus := if !p.errResp then .sc else if p.ca ∧ p.reqPort.val = 16 then .ca else .ur
  match p.origin with
  | .cycle _ _ => s.push (p.reply [] st .none s.now)
  | .host _ => if p.cls = .nonPosted then s.push (p.reply [] st .none s.now) else s
  | _ => s

/-- R205, R236: the first job ends under the far-side error mode that governs it. -/
def State.jobFail (s : State) (n : HearthId) (ev : Bool) : State :=
  match (s.hearth n).bus.jobs with
  | [] => s
  | j :: _ => (((s.popJob n).failPiece j.piece ev j.got).errorReply j.piece).freeTags

/-- TARGET_RESPONSE (R205, R208): the hearth target answers; both lines low count as HnBERR_N. -/
def execTargetResponse (n : HearthId) (ack berr : Bool) (data : BitVec 32) (s : State) : Host.Outcome State Fault Refusal :=
  let b := (s.hearth n).bus
  if s.running ∧ b.granted ∧ b.strobe.isSome ∧ (ack ∨ berr) ∧ !s.scanHides n 2 then
    let s1 := s.modHearth n fun h => { h with bus := { h.bus with strobe := none, waitRelease := true, count := h.bus.count + 1 } }
    let s2 := if berr then s1.jobFail n false else s1.jobAck n data
    .next (s2.freeTags.issueWaiting).woken
  else .next s

/-- R208, R265: the bridge keeps the bus while it has cycles, up to 64, and for as long as a lock covers it. -/
def State.goOn (s : State) (n : HearthId) : State :=
  let b := (s.hearth n).bus
  if b.grantGone ∨ (!s.busLocked n ∧ (Config.tenureCycles ≤ b.count ∨ !s.wantsBus n)) then
    s.modHearth n fun h => { h with bus := h.bus.let_go (tickPlus s.now 5) }
  else s.driveNext n

/-- TARGET_RESPONSE_RELEASE (R208): the target's response is high again. -/
def execTargetResponseRelease (n : HearthId) (s : State) : Host.Outcome State Fault Refusal :=
  if s.running ∧ (s.hearth n).bus.waitRelease ∧ !s.scanHides n 2 then
    .next ((s.modHearth n fun h => { h with bus := { h.bus with waitRelease := false } }).goOn n).woken
  else .next s

/-- GRANT_WITHDRAWN (R208): the open cycle is finished, the bus released, and requested again for the rest. -/
def execGrantWithdrawn (n : HearthId) (s : State) : Host.Outcome State Fault Refusal :=
  let b := (s.hearth n).bus
  if s.running ∧ b.granted then
    if b.strobe.isSome ∨ b.waitRelease then .next (s.modHearth n fun h => { h with bus := { h.bus with grantGone := true } }).woken
    else .next (s.modHearth n fun h => { h with bus := h.bus.let_go (tickPlus s.now 5) }).woken
  else .next s

/-- R211: the request the bus was asked for: its first job, the first piece on its way, or a BLOCKED cycle. -/
def State.failFirst (s : State) (n : HearthId) : State :=
  if !(s.hearth n).bus.jobs.isEmpty then s.jobFail n true
  else
    match s.piecesFor n with
    | (p, _) :: _ => ((s.removePieces fun q => q.origin = p.origin && q.dst = p.dst).failPiece p true).freeTags
    | [] =>
      match allHearths.find? fun k => s.waitsFor k = some n with
      | some k => s.farSide k true
      | none => s

/-- WATCHDOG_GRANT (R211): no grant within W_n: the request ends under its error mode and HnBREQ_N rises. -/
def execWatchdogGrant (n : HearthId) (s : State) : Host.Outcome State Fault Refusal :=
  let b := (s.hearth n).bus
  if s.running ∧ b.breqLow ∧ b.breqFrom.isNone ∧ !b.granted then
    let s1 := s.advanceTo (tickPlus b.breqSince (s.hearth n).cfg.wdog)
    let s2 := s1.failFirst n
    .next ((s2.modHearth n fun h => { h with bus := h.bus.let_go (tickPlus s2.now 5) }).issueWaiting).woken
  else .next s

/-- WATCHDOG_MASTER_RESPONSE (R211): no response within W_n: the strobe rises and the rest of the request ends. -/
def execWatchdogMasterResponse (n : HearthId) (s : State) : Host.Outcome State Fault Refusal :=
  let b := (s.hearth n).bus
  match b.strobe with
  | some t =>
    if s.running ∧ b.granted then
      let s1 := s.advanceTo (tickPlus t (s.hearth n).cfg.wdog)
      let s2 := s1.modHearth n fun h => { h with bus := { h.bus with strobe := none, waitRelease := true, count := h.bus.count + 1 } }
      .next ((s2.jobFail n true).issueWaiting).woken
    else .next s
  | none => .next s

/-! ### Interrupt inputs -/

/-- IRQ_INPUT_CHANGE (R27, R241, R242, R247): a level held 4 ticks counts while the receivers are on; in IN_SERVICE and
DRAINING it is a source change. A shorter pulse wakes the core. -/
def execIrqInputChange (n : HearthId) (input : Fin 8) (low : Bool) (held : Nat) (s : State) :
    Host.Outcome State Fault Refusal :=
  let h := s.hearth n
  if s.running ∧ h.slot.pads ∧ (held < Config.irqFilter ∨ h.irqLow.getLsbD input.val = low) then .next s.woken
  else if s.running ∧ h.slot.pads then
    let bit := BitVec.twoPow 8 input.val
    let s1 := s.modHearth n fun h => { h with irqLow := if low then h.irqLow ||| bit else h.irqLow &&& ~~~bit }
    if h.slot.sources then .next (s1.presentChange n (vget h.cfg.irq input) (inputOf input) (vget h.cfg.entries input) none low) else .next s1.woken
  else .next s

/-! ### Every tick of the core -/

/-- R231, R235, R238, R266: a BLOCKED cycle is taken through the path check again. It makes way for a host or flue request
that needs its own hearth's bus. -/
def State.recheck (n : HearthId) (s : State) : State :=
  match (s.hearth n).cyc with
  | some c =>
    if c.phase = .blocked then
      if s.hostWants n then s.damp n
      else
        match s.pathCheck n c with
        | .back => s.damp n
        | .far => s.farSide n (c.win.kind = 0)
        | .wait => s
        | .clear => if s.blockedShut c.win.m n then s else s.pay n
    else s
  | none => s

/-- R208: a granted bus on which nothing is open goes on with the next cycle, or is let go. -/
def State.settleBus (n : HearthId) (s : State) : State :=
  let b := (s.hearth n).bus
  if b.granted ∧ b.strobe = none ∧ !b.waitRelease then s.goOn n else s

/-- R171, R172, R208, R231: what the core looks at again in every tick before the admission. -/
def State.coreTick (s : State) : State :=
  ((forHearths (fun n s => (s.recheck n).settleBus n) s).landWaiting).issueWaiting

/-- LEDGER_ADMISSION (R26, R104, R110): one tick of the core, with its admission. -/
def execLedgerAdmission (s : State) : Host.Outcome State Fault Refusal :=
  if s.running ∧ s.coreRuns then
    let s1 := s.coreTick.askReader
    .next (if s1.ledger.st = .closed then s1 else s1.admitAll.snapshot)
  else .next s

end Sys2Proof.Machine
end

