-- ==== Sys2Proof/Machine/Switch.lean ====
section
/-! DEFINITION. The switch (R254 to R258), the hearthstone banks (R261 to R264), the application of interrupt changes (R244,
R247) and the sending of sample records (R272), with their commands. -/

namespace Sys2Proof.Machine

open Sys2Proof

/-! ### Offers -/

/-- R223, R225: the piece of a posted host write, which enters the hearth's buffers. -/
def Piece.buffered (p : Piece) : Bool := p.reqPort = 16 && p.cls = .posted

/-- R225: pieces in hearth `m`'s buffers. -/
def State.bufferUsed (s : State) (m : HearthId) : Nat := ((s.hearth m).bus.jobs.filter (·.buffered)).length

/-- R168: a posted write of the host to hearth `m`, received before the completion `p` of the host, has not been performed. At a member
these are the ones that have arrived (entry 65). -/
def State.hostWriteBefore (s : State) (m : HearthId) (p : Piece) : Bool :=
  (s.reqs.any fun r => s.reqFor m r && !r.read && !r.nonPosted && decide (r.id < p.id))
    || s.anyPiece fun q => q.forBus m && q.buffered && decide (q.id < p.id)

/-- R254: the destination can take the piece in this tick. R238, R257: a hearth's cycle is granted a bus only while no granted work
waits for it there, so that none goes ahead of a request of the host that comes later. -/
def State.canTake (s : State) (p : Piece) : Bool :=
  if p.cls = .interrupt ∧ p.dst.val ≤ 16 then true
  else if p.cls = .completion ∧ p.dst.val ≤ 16 then
    (match portHearth p.dst with | some m => p.reqPort.val != 16 || !s.hostWriteBefore m p | none => true)
  else
    match portHearth p.dst with
    | some m =>
      if p.buffered then decide (s.bufferUsed m < Config.bufferPieces)
      else (s.hearth m).bus.granted && !(s.hearth m).bus.grantGone && !s.busShut m p
        && (decide (16 ≤ p.src.val) || !(s.hearth m).bus.jobs.any (s.jobAllowed m))
    | none =>
      if p.dst.val = 16 then true
      else if p.dst.val = 19 then
        (vget (vget s.banks (bankOf p.addr)).slots (Fin.ofNat 17 p.src.val)).isNone && decide (p.src.val ≤ 16)
      else
        let f := if p.dst = 17 then FlueId.a else .b
        if p.srcPos ≠ s.pos then (s.flue f).st = .active && !(s.flue f).farXoff.getLsbD (Cls.code p.cls)
        else
          decide (s.storeUsed p.cls + p.stored ≤ Config.sendStore) && !(s.flue f).farXoff.getLsbD (Cls.code p.cls)
            && (p.cls != .nonPosted || decide (s.flueNp f < Config.flueNp)) && s.gate

/-- R256: a piece may not pass an earlier one of its class, nor, unless posted itself, an earlier posted piece, of the same
source and destination. -/
def mayPass (before : List Piece) (p : Piece) : Bool :=
  before.all fun q => q.dst ≠ p.dst || (q.cls ≠ p.cls && (p.cls = .posted || q.cls ≠ .posted))

/-- R97, R247, R249: the piece may go: its tick has come, and every posted write that an interrupt change stays behind has been
performed or backed off. -/
def State.mayGo (s : State) (p : Piece) : Bool :=
  s.reached p.readyAt &&
    (match p.origin with
      | .change c => c.pos ≠ s.pos || c.waitFor.all fun k => !(s.hearth c.hearth).posted.contains k
      | _ => true)

/-- R254, R257: the oldest piece the source can offer. -/
def State.firstOffer (s : State) : List Piece → List Piece → Option Piece
  | _, [] => none
  | before, p :: rest =>
    if s.mayGo p ∧ mayPass before p ∧ s.canTake p then some p
    else s.firstOffer (before ++ [p]) rest

/-- R254: a piece not granted is offered again. -/
def State.offerOf (s : State) (src : PortId) : Option Piece :=
  let q := vget s.sw.q src
  match vget s.sw.offer src with
  | some i =>
    match q.find? fun p => p.id = i with
    | some p => if s.canTake p then some p else s.firstOffer [] q
    | none => s.firstOffer [] q
  | none => s.firstOffer [] q

def allPorts : List PortId := List.finRange 20

/-- R258: the order of the sources at a destination: host, Flue A, Flue B, hearths from the pointer; replies of the
hearthstone come last (entry 20). -/
def sourceOrder (ptr : HearthId) : List PortId :=
  [16, 17, 18] ++ ((List.range 16).map fun i => Fin.ofNat 20 ((ptr.val + i) % 16)) ++ [19]

/-! ### Grants -/

/-- R153: a piece of a host request has been passed to the switch; a write handled as non-posted keeps its credits. -/
def State.leaveBuffer (s : State) (o : Origin) : State :=
  match o with
  | .host id =>
    let s1 := s.modReq id fun r => { r with left := r.left - 1 }
    match s1.req id with
    | some r => if r.left = 0 ∧ !(r.nonPosted && !r.read) then s1.releaseCredits id else s1
    | none => s1
  | _ => s

/-- R157, R158: the TLPs of a kind-0 piece at port 16. -/
def State.toHost (s : State) (p : Piece) : State :=
  let h : Option (Fin 64) := match portHearth p.reqPort with | some n => some (chimneyOf p.srcPos n) | none => none
  let base := { bareTlp .mwr p.fn with addr := p.addr, len := p.bytes.length, origin := p.origin, hearth := h }
  if p.kind = .read ∨ p.kind = .lockedRead then s.sendTlp { base with kind := .mrd, bytes := p.bytes }
  else
    let s1 := s.sendTlp { base with bytes := p.bytes }
    if p.cls = .nonPosted then s1.sendTlp { base with kind := .flush, len := 0 } else s1

/-- R223, R265: a piece becomes a job of hearth `m`'s bus; one from another position may take the lock of that bus now. -/
def State.toHearth (s0 : State) (m : HearthId) (p : Piece) : State :=
  let s := s0.takeFarLock p m
  let cfg := (s.hearth m).cfg
  let read := p.kind = .read || p.kind = .lockedRead
  match p.bytes with
  | [] => s.donePiece p []
  | c :: _ =>
    match cfg.down c.1 with
    | none => s.failPiece p false
    | some w =>
      let j : Job := { piece := p, read := read, cycles := cfg.downCycles w (!read) p.bytes, got := [],
                       buffered := p.buffered, started := false }
      (s.modHearth m fun h => { h with bus := { h.bus with jobs := h.bus.jobs ++ [j] } }).driveNext m

/-- R307: a non-posted piece takes the lowest free flue tag of its first link. -/
def State.flueTag (s : State) (f : FlueId) (p : Piece) : State × Piece :=
  if p.cls = .nonPosted then
    match lowestFree ((s.flue f).tags.map (·.1)) 0 Config.flueNp with
    | some t => (s.modFlue f fun x => { x with tags := x.tags ++ [(t, p.origin, p.far)] }, { p with tag := t })
    | none => (s, p)
  else (s, p)

/-- R299: a piece of another position passes on with its own number; this bridge keeps no copy. -/
def State.transit (s : State) (f : FlueId) (p : Piece) : State :=
  match p.origin with
  | .remotePosted _ num => s.emit f (.piece (State.blockOf p num))
  | _ => s

/-- R249, R299: a piece leaves over a flue; an acknowledged write counts as performed once the far side says so, by its count
or, for a locked write of class 1, by its completion; a host write once it has left. -/
def State.toFlue (s : State) (f : FlueId) (p : Piece) : State :=
  if p.srcPos ≠ s.pos then s.transit f p
  else
    let (s1, p1) := s.flueTag f p
    match p.origin with
    | .posted n serial =>
      if p.cls = .nonPosted then s1.sendOver f p1
      else ({ s1 with chim := { s1.chim with
          unperformed := s1.chim.unperformed ++ [(p.dstPos, vget s1.chim.nextNum (e2e p.dstPos p.cls), n, serial)] } }).sendOver f p1
    | .host id => if p.cls = .posted then (s1.sendOver f p1).hostDone id [] 1 else s1.sendOver f p1
    | _ => s1.sendOver f p1

/-- R232, R236, R282, R311: a completion from another position ends a hearth cycle; CA on a kind-3 cycle is a protection fault,
recorded in the hearth's own function and answered with HnBERR_N (entry 43). -/
def State.chimneyDone (s : State) (n : HearthId) (serial : Nat) (p : Piece) : State :=
  match (s.hearth n).cyc with
  | none => s
  | some c =>
    if c.serial = serial ∧ c.phase = .inFlight ∧ p.status = .ca ∧ c.win.kind = 3 then (s.logEvent (fnOf n)).answer n .berr
    else s.completeCycle n serial p.bytes p.status

/-- R247: a locked write of a posted window has been performed at another position, or has ended there, which is recorded. -/
def State.chimneyPosted (s : State) (n : HearthId) (serial : Nat) (p : Piece) : State :=
  (if p.status = .sc then s else s.logEvent (fnOf n)).endPosted n serial

/-- R166, R232, R312: a completion arrives at its requester with its status, that of the host at the cycle whose TLP it answers; one
from another position restarts the watchdog of a host request. -/
def State.toRequester (s : State) (p : Piece) : State :=
  match p.origin with
  | .cycle n serial => if p.srcPos = s.pos then s.completeCycle n serial p.bytes p.status else s.chimneyDone n serial p
  | .posted n serial => if p.srcPos = s.pos then s else s.chimneyPosted n serial p
  | .host id =>
    if p.status = .sc then (if p.srcPos = s.pos then s else s.restartWatch p.origin).hostDone id p.bytes 1
    else
      match s.req id with
      | some r => ((s.dropReqWork id).refuseReq r p.status (some (if p.status = .ca then .cplAbort else .ur))).closeReq id
      | none => s
  | _ => s

/-- R257, R258, R272: a record that the switch has passed to port 16 takes its place there; its TLP waits for posted credits and for
Bus Master Enable. -/
def State.placeRecord (s : State) : State := s.sendTlp { bareTlp .mwr 0 with origin := .sample }

/-- The place of a record whose TLP has not been made. -/
def TxTlp.awaitsRecord (t : TxTlp) : Bool := t.origin = .sample && t.len = 0

/-- R254: the granted piece goes to its destination, an interrupt change to its sink on this bridge. A piece for port 19 becomes a
frame with its first beat, one without an enabled byte at once. -/
def State.deliver (s : State) (p : Piece) : State :=
  let s1 := { s with sw := { s.sw with
      q := vmod s.sw.q p.src fun l => l.filter fun x => x.id ≠ p.id
      offer := vset s.sw.offer p.src none } }
  let s2 := s1.leaveBuffer (if p.cls = .completion then .none else p.origin)
  if p.dst.val = 19 then
    let b := bankOf p.addr
    let sp : SlotPiece := { piece := p, beats := wordsOf p.bytes, got := [], begun := false }
    if p.bytes.isEmpty then (s2.countFrame p).donePiece p []
    else { s2 with banks := vmod s2.banks b fun k => { k with slots := vset k.slots (Fin.ofNat 17 p.src.val) (some sp) } }
  else
    let s3 := s2.countFrame p
    if p.cls = .completion ∧ p.dst.val ≤ 16 then s3.toRequester p
    else if p.cls = .interrupt ∧ p.dst.val ≤ 16 then
      (match p.origin with
        | .change c => { s3 with irq := { s3.irq with granted := s3.irq.granted ++ [c] } }
        | _ => s3)
    else
      match portHearth p.dst with
      | some m => s3.toHearth m p
      | none =>
        if p.dst.val = 16 then
          if p.origin = .sample then s3.placeRecord else s3.toHost p
        else s3.toFlue (if p.dst = 17 then .a else .b) p

/-- R258: the winner at a destination among the offers. -/
def State.winner (s : State) (offers : List (PortId × Piece)) (d : PortId) : Option Piece :=
  (sourceOrder (vget s.sw.ptr d)).findSome? fun src =>
    (offers.find? fun o => o.1 = src && o.2.dst = d).map (·.2)

/-- R254, R258: one destination's grant; port 19 takes every offer, since each has a slot of its own. -/
def State.grantAt (offers : List (PortId × Piece)) (d : PortId) (s : State) : State :=
  if d.val = 19 then forList (offers.filter fun o => o.2.dst = d) (fun o s => s.deliver o.2) s
  else
    match s.winner offers d with
    | none => s
    | some p =>
      let s1 := s.deliver p
      match portHearth p.src with
      | some n => { s1 with sw := { s1.sw with ptr := vset s1.sw.ptr d (n + 1) } }
      | none => s1

/-- R304: a piece of this bridge for another position is offered to the flue that carries its traffic now. -/
def State.aim (s : State) (p : Piece) : Piece :=
  if (p.dst = 17 ∨ p.dst = 18) ∧ p.srcPos = s.pos then { p with dst := s.portToward p.dstPos p.cls } else p

def State.aimAll (s : State) : State := { s with sw := { s.sw with q := vmap (fun (_ : PortId) l => l.map s.aim) s.sw.q } }

/-- SWITCH_GRANT (R171, R254 to R258, R266, R304): one tick of the switch. Pieces of the host and the flues that find a bus locked
start to wait, and requests that wait for the pool are issued as it empties. -/
def execSwitchGrant (s0 : State) : Host.Outcome State Fault Refusal :=
  if s0.running then
    let s := (forHearths State.contestBus s0).aimAll
    let offers := allPorts.filterMap fun src => (s.offerOf src).map fun p => (src, p)
    let s1 := { s with sw := { s.sw with
      offer := vmap (fun (i : PortId) _ => (offers.find? fun o => o.1 = i).map fun o => o.2.id) s.sw.offer } }
    .next ((forList allPorts (State.grantAt offers) s1).freeTags.issueWaiting)
  else .next s0

/-! ### Hearthstone -/

/-- R262: an earlier posted piece of the same source still waits at port 19. -/
def State.behindPosted (s : State) (p : Piece) : Bool :=
  s.banks.toList.any fun b => b.slots.toList.any fun o => match o with
    | some x => x.piece.src = p.src && x.piece.cls = .posted && decide (x.piece.id < p.id)
    | none => false

/-- R97: a bank's domain is ON. -/
def State.bankOn (s : State) (b : Fin 16) : Bool := (s.dom (domOf (140 + b.val))).isOn

/-- R262, R265, R266: the slot's next beat can be granted. -/
def State.beatReady (s : State) (o : Option SlotPiece) : Bool :=
  match o with
  | some x =>
    match x.beats with
    | w :: _ => !s.scopeShut (.word w) x.piece.src && !s.behindPosted x.piece
    | [] => false
  | none => false

/-- R266: a host beat that meets a locked word starts to wait. -/
def State.contestBeats (s : State) (b : Fin 16) : State :=
  match vget (vget s.banks b).slots 16 with
  | some x =>
    match x.beats with
    | w :: _ => s.contest (.word w)
    | [] => s
  | none => s

/-- R262: the enabled bytes of one word are read or written at once. -/
def State.doBeat (s : State) (x : SlotPiece) (w : Nat) : State × SlotPiece :=
  let bytes := bytesIn x.piece.bytes (8 * w) 8
  if x.piece.kind = .read ∨ x.piece.kind = .lockedRead then
    (s, { x with got := x.got ++ bytes.map (fun c => (c.1, stoneRead s.stone c.1)), beats := x.beats.tail, begun := true })
  else ({ s with stone := stoneWriteAll s.stone bytes }, { x with beats := x.beats.tail, begun := true })

/-- R263: the granted slot's beat is done and the pointer moves on. -/
def State.grantBeat (s : State) (b : Fin 16) (k : Fin 17) (x : SlotPiece) (w : Nat) : State :=
  let s1 := if x.begun then s else s.countFrame x.piece
  let (s2, y) := s1.doBeat x w
  let s3 := { s2 with banks := vmod s2.banks b fun bk =>
      { bk with ptr := k + 1, slots := vset bk.slots k (if y.beats.isEmpty then none else some y) } }
  let s4 := s3.setDom (domOf (140 + b.val)) (.on s3.now)
  if y.beats.isEmpty then (s4.donePiece y.piece y.got).lockedWriteDone (.word w) y.piece else s4

/-- R88, R263: one bank grants one waiting beat, in rotation; nothing is admitted to a bank before its clear is done. -/
def State.bankTick (b : Fin 16) (s : State) : State :=
  if s.bankOn b ∧ !s.island.clearMark then
    let s0 := s.contestBeats b
    let bk := vget s0.banks b
    match ((List.range 17).map fun i => Fin.ofNat 17 (bk.ptr.val + i)).find? fun k => s0.beatReady (vget bk.slots k) with
    | none => s0
    | some k =>
      match vget bk.slots k with
      | some x =>
        match x.beats with
        | w :: _ => s0.grantBeat b k x w
        | [] => s0
      | none => s0
  else s

/-- BANK_BEAT (R262 to R264): one tick of the sixteen banks. -/
def execBankBeat (s : State) : Host.Outcome State Fault Refusal :=
  if s.running then .next (forList (List.finRange 16) State.bankTick s) else .next s

/-! ### Interrupt changes -/

/-- SINK_UPDATE (R244, R247): the end of a tick. The changes that the switch has granted in it are applied, and the wires are compared
with the end of the tick before. -/
def execSinkUpdate (s : State) : Host.Outcome State Fault Refusal :=
  .next (forList s.irq.granted (fun c s => s.applyChange c) { s with irq := { s.irq with granted := [] } }).syncWires

/-! ### Credits toward the host, and sample records -/

/-- R152: the bits by which a scale code shifts a count. -/
def scaleBits (scale : Fin 4) : Nat := match scale.val with | 2 => 2 | 3 => 4 | _ => 0

/-- R155: `need` more units fit under a cumulative limit of `w` bits and its scale; `none` is infinite. -/
def creditFits {w u : Nat} (limit : Option (BitVec w)) (scale : Fin 4) (used : BitVec u) (need : Nat) : Bool :=
  match limit with
  | none => true
  | some l =>
    let m := 2 ^ (w + scaleBits scale)
    decide ((l.toNat * 2 ^ scaleBits scale + (m - (used.toNat + need) % m)) % m ≤ m / 2)

/-- The credit class of a TLP. -/
def TxKind.creditClass : TxKind → CreditClass
  | .mrd => .nonPosted
  | .flush => .nonPosted
  | .cpl => .completion
  | .cplD => .completion
  | _ => .posted

/-- Data credits of a TLP: one for each 16 bytes of its payload, which begins at a dword boundary. -/
def TxTlp.dataCredits (t : TxTlp) : Nat :=
  match t.kind with
  | .mwr => dataUnits (t.addr % 4 + t.len)
  | .cplD => dataUnits (t.addr % 4 + t.len)
  | _ => 0

/-- R155: the host's credits cover the TLP. -/
def State.creditOk (s : State) (t : TxTlp) : Bool :=
  let l := s.fc.limits
  let u := s.fc.used
  match TxKind.creditClass t.kind with
  | .posted => creditFits l.ph l.phScale u.ph 1 && creditFits l.pd l.pdScale u.pd t.dataCredits
  | .nonPosted => creditFits l.nph l.nphScale u.nph 1
  | .completion => creditFits l.cplh l.cplhScale u.cplh 1 && creditFits l.cpld l.cpldScale u.cpld t.dataCredits

/-- Bytes of a number, least significant first. -/
def leBytes (n k : Nat) : List Byte := (List.range k).map fun i => BitVec.ofNat 8 (n / 256 ^ i)

/-- R271: completion status codes. -/
def statusCode : CplStatus → Nat
  | .sc => 0 | .ur => 1 | .crs => 2 | .ca => 4

def AccKind.code : AccKind → Nat
  | .read => 0 | .postedWrite => 1 | .nonPostedWrite => 2 | .lockedRead => 3 | .lockedWrite => 4 | .completion => 5
  | .irqChange => 6

/-- R271: the 64 bytes of a record. -/
def Record.image (r : Record) : List Byte :=
  let w8 := r.tally.toNat / 2 ^ 32 + r.src.val * 2 ^ 16 + r.dst.val * 2 ^ 21 + Cls.code r.cls * 2 ^ 26 + r.srcPos.val * 2 ^ 28 + r.dstPos.val * 2 ^ 30
  let wC := r.len + (if 32 < r.len then 2 ^ 7 else 0) + r.key.toNat * 2 ^ 8 + AccKind.code r.kind * 2 ^ 12 + r.skipped * 2 ^ 16
  leBytes r.seq.toNat 4 ++ leBytes (r.tally.toNat % 2 ^ 32) 4 ++ leBytes w8 4 ++ leBytes wC 4 ++
    leBytes (r.addr % 2 ^ 32) 4 ++ leBytes (r.addr / 2 ^ 32) 4 ++ leBytes (r.tag + statusCode r.status * 2 ^ 10) 4 ++ leBytes 0 4 ++
    (List.range 32).map fun i => r.bytes.getD i 0

/-- R272: where a record lands: its slot of the ring. -/
def State.ringAddr (s : State) (r : Record) : Nat :=
  match s.cfg.aperture, s.cfg.ring with
  | some (a, _), some (o, sz) => a + o + 64 * (r.seq.toNat % (sz / 64))
  | _, _ => 0

/-- The MWr of a record (R157, R272). -/
def State.recordTlp (s : State) (r : Record) : TxTlp :=
  let a := s.ringAddr r
  { bareTlp .mwr 0 with addr := a, len := 64, bytes := (r.image.zipIdx).map fun p => (a + p.2, p.1), origin := .sample }

/-- SAMPLE_RECORD_SEND (R92, R173, R257, R258, R272): the oldest record that the switch has passed to the host port goes out in its
place there, once posted credits allow and Bus Master Enable of function 0 is 1. -/
def execSampleRecordSend (s : State) : Host.Outcome State Fault Refusal :=
  match s.sampler.queue, s.txq.find? TxTlp.awaitsRecord with
  | r :: rest, some place =>
    let t := { s.recordTlp r with id := place.id, readyAt := place.readyAt }
    if s.running ∧ (s.fn 0).bme ∧ s.creditOk t then
      .next { s with sampler := { s.sampler with queue := rest }, txq := s.txq.map fun (u : TxTlp) => if u.id = place.id then t else u }.woken
    else .next s
  | _, _ => .next s

end Sys2Proof.Machine
end

