-- ==== Sys2Proof/Machine/HostLink.lean ====
section
/-! DEFINITION. The host link's physical layer: training (R122, R123, R327), equalization (R126), power states (R128 to
R131), CLKREQ_N and REFCLK (R132 to R134), receiver errors and margining (R142, R310), with their commands. -/

namespace Sys2Proof.Machine

open Sys2Proof

/-! ### Lanes -/

def allHostLanes : List (Fin 16) := List.finRange 16

/-- R96: the two domains of host lane `i`, and its bellows lane (R135). -/
def txDom (i : Fin 16) : DomainId := domOf i.val
def rxDom (i : Fin 16) : DomainId := domOf (16 + i.val)
def hostLane (i : Fin 16) : LaneId := ⟨i.val, by have := i.isLt; omega⟩

/-- R17, R122: the widest width S_HWID and the mode allow. -/
def State.maxWidth (s : State) : Nat := if s.mode = .m4 then min s.cfg.hwid 4 else s.cfg.hwid

/-- R326, R327: in M5 and M6 a link lane is not under test and its test straps are VALID. -/
def State.linkLane (s : State) (i : Fin 16) : Bool :=
  !s.mode.tests || ((s.test (hostLane i)).valid && !(s.test (hostLane i)).underTest s.mode)

/-- R327: the lanes the link may use: none when lane 0 is under test. -/
def State.linkLanes (s : State) : List (Fin 16) :=
  if s.linkLane 0 then allHostLanes.filter fun i => decide (i.val < s.maxWidth) && s.linkLane i else []

/-- R123: physical lane of logical lane `k`: itself, or L_max − k under lane reversal. -/
def State.physical (s : State) (reversed : Bool) (k : Nat) : Nat :=
  if reversed then (if s.mode = .m4 then 3 else 15) - k else k

/-- R122, R123: every lane of a width trains. -/
def State.widthTrains (s : State) (lanes : BitVec 16) (w : Nat) (reversed : Bool) : Bool :=
  (List.range w).all fun k =>
    let i : Fin 16 := Fin.ofNat 16 (s.physical reversed k)
    lanes.getLsbD i.val && s.linkLane i && (s.dom (txDom i)).isOn && (s.dom (rxDom i)).isOn

/-- R122, R123, R327: the widest width that trains, and whether it is reversed. -/
def State.bestWidth (s : State) (lanes : BitVec 16) : Option (Nat × Bool) :=
  ([16, 8, 4, 2, 1].filter fun w => decide (w ≤ s.maxWidth)).findSome? fun w =>
    if s.widthTrains lanes w false then some (w, false)
    else if !s.mode.tests && s.widthTrains lanes w true then some (w, true)
    else none

/-- The physical lanes of the trained width. -/
def State.trainedLanes (s : State) : List (Fin 16) :=
  (List.range s.link.width).map fun k => Fin.ofNat 16 (s.physical s.link.reversed k)

/-- R131, R330: the last taps of every lane that tracks are kept with the rate it tracks at, S_HRATE on a test lane. -/
def State.saveTaps (s : State) : State :=
  let keep := fun (i : Fin 16) (v : Vector (Option Taps) 5) =>
    let x := s.lane (hostLane i)
    let r := rateIdx (if (s.test (hostLane i)).underTest s.mode then s.cfg.hrate else s.link.rate)
    if x.st = .tracking ∨ x.st = .pinned ∨ x.st = .starved then
      vset v r (some { tx := match vget v r with | some k => k.tx | none => none
                       preset := match vget v r with | some k => k.preset | none => 0
                       ctle := x.ctle, phase := x.phase, thr := x.thr, dfe := x.dfe, tracked := true })
    else v
  { s with link := { s.link with kept := vmap keep s.link.kept } }

/-- R95, R96: the bellows engine goes down with the last receiver lane. -/
def State.bellowsPower (s : State) : State :=
  if (List.finRange 32).any fun l => (s.dom (laneDom l)).isOn then s
  else s.setDom (domOf 160) ((s.dom (domOf 160)).fall s.now)

/-- R95, R130, R135: a domain under no idle rule goes off through GOING_DOWN; its bellows lane reads OFF and keeps its last
values. A wake that waits for payment stays in the ledger (R112). -/
def State.sleepDom (s : State) (d : DomainId) : State :=
  let s1 := s.setDom d ((s.dom d).fall s.now)
  match rxLane d with
  | some l => s1.modLane l fun x => { x.noTargets with st := .off }
  | none => s1

/-- R123, R130: a host lane goes off in both directions. -/
def State.sleepLane (s : State) (i : Fin 16) : State := (s.sleepDom (txDom i)).sleepDom (rxDom i)

/-- R109: the wake of this lane direction waits in the ledger. -/
def State.wakeWaits (s : State) (d : DomainId) : Bool := s.items.service.any fun it => it.work = .laneWake && it.path = [d]

/-- R109, R130: the wake of one host lane direction, when it is OFF or falling and its wake does not wait already. -/
def State.presentWake (s : State) (port : PortId) (d : DomainId) : State :=
  if (s.dom d).asleep ∨ (s.dom d).falling then
    (if s.wakeWaits d then s else s.presentService port [d] 0 .laneWake)
  else s

/-- R123, R130, R328: a host lane direction that the link state, or a lane under test, keeps ON; a flue's follow their link. -/
def State.laneNeeded (s : State) (d : DomainId) : Bool :=
  if d.val < 32 then
    let i : Fin 16 := Fin.ofNat 16 d.val
    (s.test (hostLane i)).underTest s.mode ||
      match s.link.st with
      | .off => false
      | .detect => s.linkLanes.contains i
      | .recovery => s.trainedLanes.contains i
      | .l0 => s.trainedLanes.contains i
      | .l1 _ => false
  else true

/-- R126, R138: a lane in training at rate `r` acquires; at 2.5 and 5.0 GT/s its CTLE is 4 and its DFE off. -/
def Lane.acquire (x : Lane) (fast : Bool) : Lane :=
  { x.noTargets with st := .acquiring, ctle := if fast then x.ctle else 4, dfe := if fast then x.dfe else 0 }

/-- R126, R130, R144: entry to Detect, at 2.5 GT/s: the wakes of every lane direction that is OFF within the width are
presented. A lane whose domain is OFF keeps its last values. -/
def State.enterDetect (s : State) : State :=
  if s.mode.exposes then
    let s1 := s.saveTaps
    let s2 := { s1 with
      link := { s1.link with
        st := .detect, keeper := false, width := 0, rate := .g2p5, reversed := false, txL0s := false, rxL0s := false,
        l1Asked := false, clkreqReleased := false, precoding := false }
      dll := { s1.dll with retrain := false } }
    let s3 := forList s2.linkLanes (fun i s =>
      if (s.dom (rxDom i)).isOn then s.modLane (hostLane i) fun x => x.acquire false else s) s2
    let s4 := forList s3.linkLanes (fun i s => s.presentWake 16 (txDom i)) s3
    (forList s4.linkLanes (fun i s => s.presentWake 16 (rxDom i)) s4).woken
  else s

/-- R130: Detect.Quiet is over: every domain the link may use is ON. -/
def State.detectQuietDone (s : State) : Bool :=
  s.linkLanes.all fun i => (s.dom (txDom i)).isOn && (s.dom (rxDom i)).isOn

/-! ### Training -/

def Rate.minRate (a b : Rate) : Rate := if rateIdx a ≤ rateIdx b then a else b

/-- R131: settings put back have tracked at this rate, so the lane tracks at the end of Recovery. -/
def Lane.recover (x : Lane) : Lane := if x.st = .acquiring ∧ x.restored then { x.noTargets with st := .tracking } else x

/-- R126, R131: a lane at the end of training at rate `r`; `old` is the rate it trained at. After a rate change the record
of the new rate is put back; without one the lane acquires. -/
def State.settleLane (s : State) (old r : Rate) (i : Fin 16) : State :=
  let l := hostLane i
  if old = r then s.modLane l Lane.recover
  else
    match s.keptAt l r with
    | some k => s.modLane l fun x => { x.restore k with st := if k.tracked then .tracking else .acquiring }
    | none => s.modLane l fun x => x.acquire (fastRate r)

/-- R131, R138: a lane of the link goes to another rate within training: it acquires, from the record of that rate if there is
one. -/
def State.rerate (s : State) (r : Rate) (i : Fin 16) : State :=
  if (s.dom (rxDom i)).isOn then
    match s.keptAt (hostLane i) r with
    | some k => s.modLane (hostLane i) fun x => { x.restore k with st := .acquiring, restored := k.tracked }
    | none => s.modLane (hostLane i) fun x => x.acquire (fastRate r)
  else s

/-- R138: Recovery begins for a retrain: the lanes of the link acquire, their last taps kept. -/
def State.enterRecovery (s : State) : State :=
  let s1 := s.saveTaps
  let s2 := { s1 with
    link := { s1.link with st := .recovery, txL0s := false, rxL0s := false, l1Asked := false }
    dll := { s1.dll with retrain := true } }
  forList s2.trainedLanes (fun i s => s.modLane (hostLane i) fun x =>
    if (s.dom (rxDom i)).isOn then { x.noTargets with st := .acquiring } else x) s2

/-- Flow control starts at the end of training from Detect (R152, R155). -/
def State.startFc (s : State) (limits : TxLimits) : State :=
  { s with fc := { s.fc with limits := limits, used := TxUsed.zero } }

/-- R125: the coefficient sets PCI Express allows for a full swing of 48 and a low-frequency value of 16 (PRESUMED, entry
63); every preset is accepted. -/
def TxEq.accepted : TxEq → Bool
  | .preset _ => true
  | .coefficients pre main post =>
    decide (pre ≤ Config.fullSwing / 4 ∧ pre + main + post = Config.fullSwing ∧ Config.lowFrequency + pre + post ≤ main)

/-- R125, R131: the transmitter of a lane takes what the host asks at 8.0 GT/s and above, and the lane's record keeps it. -/
def State.takeTx (s : State) (i : Fin 16) (r : Rate) (ask : Option TxEq) : State :=
  match ask with
  | none => s
  | some e =>
    if fastRate r ∧ TxEq.accepted e then
      let x := s.lane (hostLane i)
      let f := fun (k : Option Taps) => match k with
        | some k => some { k with tx := some e }
        | none => some { tx := some e, preset := 0, ctle := x.ctle, phase := x.phase, thr := x.thr, dfe := x.dfe, tracked := false }
      { s with link := { s.link with kept := vmod s.link.kept i fun v => vmod v (rateIdx r) f } }
    else s

/-- R118: an LTR message deferred while the link was out of L0 goes out with the value of now. -/
def State.deferredLtr (s : State) : State :=
  if s.ledger.ltrPending then
    let s1 := { s with ledger := { s.ledger with ltrPending := false } }
    match s.ltrValue with
    | some v =>
      if (s.mode = .m1 ∨ s.mode = .m2 ∨ s.mode = .m4) ∧ (s.fn 0).ltr then
        ({ s1 with ledger := { s1.ledger with lastLtr := some v, ltrAsked := false } }).sendTlp { bareTlp .ltr 0 with value := v }
      else s1
    | none => s1
  else s

/-- R122, R123, R131: the link is in L0 at width `w`. The lanes outside it go OFF, but for those under test, which R328
keeps ON (DESIGN CHOICE, entry 61: R123 and R328 pull apart there). Taps are filed with the rate they were gathered at. -/
def State.trained (s : State) (w : Nat) (reversed : Bool) (rate : Rate) (inverted : BitVec 16) : State :=
  let s1 := if s.link.rate = rate then s.saveTaps else s
  let s2 := { s1 with
    link := { s1.link with
      st := .l0, keeper := false, width := w, reversed := reversed, rate := rate, inverted := inverted, txL0s := false,
      rxL0s := false, l1Asked := false, fcTick := s1.now }
    dll := { s1.dll with retrain := false } }
  let s3 := forList s2.trainedLanes (fun i s => s.settleLane s1.link.rate rate i) s2
  let out := allHostLanes.filter fun i => !s3.trainedLanes.contains i && !(s3.test (hostLane i)).underTest s3.mode
  (forList out (fun i s => s.sleepLane i) s3).bellowsPower

/-- LINK_TRAINING_COMPLETE (R122, R123, R125, R130, R131, R138, R327): the widest width at which every lane trains, at the
highest rate up to S_HRATE; lanes outside it go OFF. Retraining from L0 goes through Recovery and keeps the credits. -/
def execLinkTrainingComplete (lanes : BitVec 16) (rate : Rate) (inverted : BitVec 16) (terms : HostTerms) (s : State) :
    Host.Outcome State Fault Refusal :=
  if s.running ∧ s.mode.exposes ∧ s.gate ∧
      (s.link.st = .l0 ∨ s.link.st = .recovery ∨ (s.link.st = .detect ∧ s.detectQuietDone)) then
    match s.bestWidth lanes with
    | none => .next s
    | some (w, reversed) =>
      let r := Rate.minRate rate s.cfg.hrate
      let s1 := if s.link.st = .detect then s.startFc terms.limits else if s.link.st = .l0 then s.enterRecovery else s
      let s2 := s1.trained w reversed r inverted
      let s3 := forList s2.trainedLanes (fun i s => s.takeTx i r (terms.asked.getD i.val none)) s2
      .next ({ s3 with link := { s3.link with precoding := terms.precode && decide (r = Rate.g32) } }).deferredLtr.woken
  else .next s

/-- R126: edges in the circular window of `w` bins that starts at bin `b`. -/
def binsFrom (edges : List Nat) (w b : Nat) : Nat := ((List.range w).map fun i => edges.getD ((b + i) % 64) 0).sum

/-- R126: the width in bins of the narrowest circular window that holds at least 99 % of the edges. -/
def spreadOf (edges : List Nat) : Nat :=
  ((List.range 64).find? fun w =>
    (List.range 64).any fun b => decide (99 * edges.sum ≤ 100 * binsFrom edges w b)).getD 64

/-- R126: the setting with the smallest spread; the list runs over presets and, within each, CTLE values, so the first
smallest entry is the one R126 keeps on a tie. -/
def bestSetting (spreads : List Nat) : Nat :=
  ((List.range 176).foldl (fun best k => if spreads.getD k 64 < spreads.getD best 64 then k else best) 0)

/-- EQUALIZATION_PHASE2 (R126, R131): the kept preset and CTLE of one lane at one rate; the lane is in training. The first one
at a rate takes every lane of the link to it. -/
def execEqualizationPhase2 (rate : Rate) (lane : Fin 16) (edges : List (List Nat)) (s : State) :
    Host.Outcome State Fault Refusal :=
  if s.running ∧ s.mode.exposes ∧ s.gate ∧ fastRate rate ∧ rateIdx rate ≤ rateIdx s.cfg.hrate ∧
      (s.link.st = .l0 ∨ s.link.st = .recovery ∨ s.link.st = .detect) ∧ s.linkLanes.contains lane ∧
      (s.dom (rxDom lane)).isOn then
    let k := bestSetting (edges.map spreadOf)
    let s00 := if s.link.st = .l0 then s.enterRecovery else s.saveTaps
    let s0 := if s00.link.rate = rate then s00
      else forList s00.linkLanes (fun i s => s.rerate rate i) { s00 with link := { s00.link with rate := rate } }
    let x := s0.lane (hostLane lane)
    let old := s0.keptAt (hostLane lane) rate
    let rec1 : Taps := match old with
      | some t => { t with preset := k / 16, ctle := k % 16, tracked := false }
      | none => { tx := none, preset := k / 16, ctle := k % 16, phase := x.phase, thr := x.thr, dfe := x.dfe, tracked := false }
    .next ({ (s0.modLane (hostLane lane) fun x => { x.noTargets with st := .acquiring, ctle := k % 16 }) with
      link := { s0.link with
        kept := vmod s0.link.kept lane fun v => vset v (rateIdx rate) (some rec1) } }).woken
  else .next s

/-! ### Power states -/

/-- R127: the L0s and L1 bits of ASPM Support, and the support of the L1 substates. -/
def State.l0sSupported (s : State) : Bool := s.cfg.haspm = 1 || s.cfg.haspm = 3 || s.cfg.haspm = 5
def State.l1Supported (s : State) : Bool := decide (2 ≤ s.cfg.haspm ∧ s.cfg.haspm ≤ 5)
def State.substates (s : State) : Bool := s.cfg.haspm = 4 || s.cfg.haspm = 5

/-- R128: no TLP and no DLLP to send: no ACK or UpdateFC is due. A NAK leaves in the tick of the TLP that asks for it. -/
def State.nothingToSend (s : State) : Bool :=
  s.txq.isEmpty && s.dll.resend.isEmpty && !s.dll.ackDue && s.fc.alloc = s.fc.sent

/-- TX_L0S_ENTRY (R128): 200 ticks with nothing to send. -/
def execTxL0sEntry (idle : Nat) (s : State) : Host.Outcome State Fault Refusal :=
  if s.running ∧ s.link.st = .l0 ∧ s.l0sSupported ∧ Config.l0sIdle ≤ idle ∧ s.nothingToSend then
    .next { s with link := { s.link with txL0s := true } }
  else .next s

/-- R135: the time a move has been pending counts only what a lane receives in L0. -/
def Lane.resume (x : Lane) (k : Nat) : Lane := { x with pendingFrom := x.pendingFrom.map fun t => tickPlus t k }

/-- RECEIVE_L0S_CHANGE (R128, R135): as the host's transmitter does; taps are kept and no domain changes. -/
def execReceiveL0sChange (enter : Bool) (s : State) : Host.Outcome State Fault Refusal :=
  if s.running ∧ s.link.st = .l0 ∧ s.l0sSupported then
    if enter then
      .next (if s.link.rxL0s then s else { s with link := { s.link with rxL0s := true, rxL0sFrom := s.now } })
    else if s.link.rxL0s then
      .next (forList s.trainedLanes (fun i x => x.modLane (hostLane i) fun l => l.resume (s.since s.link.rxL0sFrom))
        { s with link := { s.link with rxL0s := false } })
    else .next s
  else .next s

/-- R129: an item that sends something to the host. -/
def Item.hostBound (it : Item) : Bool :=
  match it.work with
  | .message _ => true
  | .piece p => p.dst = 16
  | .change c => c.slotCode.isSome || decide (c.entry.toNat / 64 = 1)
  | _ => false

/-- R129: nothing is queued for the host, unacknowledged, held for it or owed to it. -/
def State.nothingForHost (s : State) : Bool :=
  s.txq.isEmpty && s.dll.replay.isEmpty && !(s.waitingItems.any fun it => it.heldAt.isSome && it.hostBound) &&
    !(s.reqs.any fun r => r.read)

/-- ASPM_L1_REQUEST (R129): the conditions have held for 1,000 ticks. -/
def execAspmL1Request (idle : Nat) (s : State) : Host.Outcome State Fault Refusal :=
  if s.running ∧ s.link.st = .l0 ∧ s.l1Supported ∧ Config.l1Idle ≤ idle ∧ s.nothingForHost then
    .next { s with link := { s.link with l1Asked := true } }
  else .next s

/-- R129: L1 is entered on the bridge's request, or through PCI-PM when an exposed function has left D0. -/
def State.l1Wanted (s : State) : Bool :=
  s.link.l1Asked || allFns.any fun f => s.exposed f.val && (s.fn f).power != .d0

/-- L1_ENTRY (R129, R130): from L0 to L1.0, the lane domains of the trained lanes go OFF with the common-mode keeper on; in
L1 with CLKREQ_N released and the bridge quiescent, to L1.1 or L1.2, the latter without the keeper. -/
def execL1Entry (sub : L1Sub) (s : State) : Host.Outcome State Fault Refusal :=
  match s.link.st with
  | .l0 =>
    if s.running ∧ sub = .l10 ∧ s.l1Wanted then
      let s1 := s.saveTaps
      let s2 := { s1 with link := { s1.link with
        st := .l1 .l10, keeper := true, txL0s := false, rxL0s := false, l1Asked := false } }
      .next (forList s2.trainedLanes (fun i s => s.sleepLane i) s2).bellowsPower
    else .next s
  | .l1 _ =>
    if sub ≠ .l10 ∧ s.substates ∧ s.link.clkreqReleased ∧ s.quiet then
      .next { s with link := { s.link with st := .l1 sub, keeper := sub != .l12 && s.link.keeper } }
    else .next s
  | _ => .next s

/-- L1_EXIT (R130, R138): the link goes through Recovery to L0; the wakes of its lanes are presented. -/
def execL1Exit (s : State) : Host.Outcome State Fault Refusal :=
  match s.link.st with
  | .l1 _ =>
    if s.running then
      let s1 := { s with link := { s.link with st := .recovery, clkreqReleased := false } }
      let s2 := forList s1.trainedLanes (fun i s => s.presentWake 16 (txDom i)) s1
      let s3 := forList s2.trainedLanes (fun i s => s.presentWake 16 (rxDom i)) s2
      .next s3.woken
    else .next s
  | _ => .next s

/-- R130, R131: after L1, Recovery ends and the link is in L0 once every lane direction of its width is ON; a retrain ends
with LINK_TRAINING_COMPLETE. -/
def State.endRecovery (s : State) : State :=
  if s.link.st = .recovery ∧ !s.dll.retrain ∧
      s.trainedLanes.all (fun i => (s.dom (txDom i)).isOn && (s.dom (rxDom i)).isOn) then
    let s1 := { s with link := { s.link with st := .l0, keeper := false, fcTick := s.now } }
    (forList s1.trainedLanes (fun i s => s.modLane (hostLane i) Lane.recover) s1).deferredLtr
  else s

/-- R123, R130: a lane direction that came ON although the link needs it no longer goes down again. -/
def State.dropUnneeded (s : State) (d : DomainId) : State := if s.laneNeeded d then s else (s.sleepDom d).bellowsPower

/-- DOMAIN_WAKE_COMPLETE (R97, R112, R123, R130): the domain is ON, and work whose path is complete starts in the next tick. -/
def execDomainWakeComplete (d : DomainId) (s : State) : Host.Outcome State Fault Refusal :=
  match s.dom d with
  | .waking done => if s.running then .next (((s.advanceTo done).domainUp d).dropUnneeded d).endRecovery else .next s
  | _ => .next s

/-! ### CLKREQ_N and REFCLK -/

def LinkSt.isL1 : LinkSt → Bool
  | .l1 _ => true
  | _ => false

/-- CLKREQ_RELEASE (R130, R132): in M1 and M4, in L1, while quiescent. -/
def execClkreqRelease (nextAlarm : Nat) (s : State) : Host.Outcome State Fault Refusal :=
  if s.running ∧ (s.mode = .m1 ∨ s.mode = .m4) ∧ s.link.st.isL1 ∧ s.substates ∧ s.quiet ∧ Config.alarmHorizon < nextAlarm then
    .next { s with link := { s.link with clkreqReleased := true } }
  else .next s

/-- R27, R46, R338: the event wakes the core: one of a hearth in service, at its pads while their
receivers are on or at an input that the island holds. Cells that drive the strobes under EXTEST hide them. -/
def State.wakes (s : State) : WakeEvent → Bool
  | .strobe n => s.padsActive n && !s.scanHides n 1
  | .edge n => s.receiversOn n
  | .slot n => (s.hearth n).slot.pads
  | .host => true
  | .flue f => (s.flue f).st = .active
  | .alarm => true

/-- CLKREQ_ASSERT_ON_WAKE (R27, R134): a wake event starts the core. Without a clock CLKREQ_N goes low, and a hearth's strobe
is held with HnWAIT_N until REFCLK returns and the bridge latches it; then R202 keeps HnWAIT_N low until the response. -/
def execClkreqAssertOnWake (event : WakeEvent) (s : State) : Host.Outcome State Fault Refusal :=
  if s.wakes event then
    let s1 := s.woken
    let held := { s1 with link := { s1.link with clkreqReleased := false } }
    match event with
    | .strobe n =>
      .next (if s.link.clkreqReleased then held.modHearth n fun h => { h with waitLow := true, waitNoClock := true } else held)
    | .edge _ => .next held
    | .slot _ => .next held
    | .host => .next held
    | .flue _ => .next held
    | .alarm => .next held
  else .next s

/-- CLKREQ_ASSERT_ON_ALARM (R132): an alarm within 100,000 ticks ends quiescence. -/
def execClkreqAssertOnAlarm (nextAlarm : Nat) (s : State) : Host.Outcome State Fault Refusal :=
  if s.link.clkreqReleased ∧ nextAlarm ≤ Config.alarmHorizon then
    .next { s with link := { s.link with clkreqReleased := false } }
  else .next s

/-- REFCLK_STOP (R133): no ticks pass while the clock in use is stopped. -/
def execRefclkStop (s : State) : Host.Outcome State Fault Refusal :=
  if s.clk.source = .refclk then .next { s with clk := { s.clk with stopped := true } } else .next s

/-- REFCLK_RETURN (R133, R134, R202): every paused count resumes where it stopped. An HnWAIT_N given without a clock stays low
until the bridge has latched its strobe: a targeted one keeps it until the response, any other ends it. -/
def execRefclkReturn (s : State) : Host.Outcome State Fault Refusal :=
  if s.clk.source = .refclk then .next { s with clk := { s.clk with stopped := false } } else .next s

/-! ### Errors and margining -/

/-- RECEIVER_ERROR (R310): recorded against the link. -/
def execReceiverError (s : State) : Host.Outcome State Fault Refusal :=
  if s.hostLinkUp ∧ s.link.st = .l0 then .next (s.linkCor .receiver) else .next s

/-- R127: the N_FTS the bridge asks for at the rate in use. -/
def State.nFts (s : State) : Nat := Config.nFts (rateIdx s.link.rate).val

/-- R127: a command asks for a report, or for a step within the steps the bridge reports. -/
def MarginCmd.inRange : MarginCmd → Bool
  | .report _ => true
  | .step timing voltage _ => decide (timing.natAbs ≤ Config.marginTimingSteps ∧ voltage.natAbs ≤ Config.marginVoltageSteps)

/-- MARGIN_COMMAND (R127, R142): answered from the margin sampler on trained lanes at 16.0 and 32.0 GT/s; no tap changes. -/
def execMarginCommand (lane : Fin 16) (cmd : MarginCmd) (s : State) : Host.Outcome State Fault Refusal :=
  if s.hostLinkUp ∧ s.link.st = .l0 ∧ (s.link.rate = .g16 ∨ s.link.rate = .g32) ∧ s.trainedLanes.contains lane ∧
      MarginCmd.inRange cmd then
    .next { s with link := { s.link with margin := vset s.link.margin lane (some cmd) } }
  else .next s

end Sys2Proof.Machine
end

