-- ==== Sys2Proof/Machine/Bellows.lean ====
section
/-! DEFINITION. The bellows (R135 to R145): targets from a frame, acquisition, tap moves in gaps, and starvation, with
their commands; on test lanes as R331 gives. -/

namespace Sys2Proof.Machine

open Sys2Proof

/-! ### Targets -/

/-- R137: edges in the 16-bin circular window that starts at bin `b`. -/
def windowEdges (edges : List Nat) (b : Nat) : Nat := ((List.range 16).map fun i => edges.getD ((b + i) % 64) 0).sum

/-- R137: the window that holds the most edges, lowest start bin on a tie. -/
def bestWindow (edges : List Nat) : Nat :=
  (List.range 64).foldl (fun best b => if windowEdges edges best < windowEdges edges b then b else best) 0

/-- R137: the phase target: the edge centre is 8 bins past the start of the window, the target half a unit interval on. -/
def phaseTarget (edges : List Nat) : BitVec 6 := BitVec.ofNat 6 (bestWindow edges + 8 + 32)

/-- The distance of two phases by the shorter circular path. -/
def phaseApart (a b : BitVec 6) : Nat := min (a - b).toNat (b - a).toNat

/-- R137: the step of the threshold target. -/
def thrStep (f : FrameStats) : Int := Int.tdiv (64 * ((f.ones : Int) - f.zeros)) ((f.ones : Int) + f.zeros)

/-- R137: the step of the DFE target, from the exact fractions. A frame in which no bit follows a one, or none a zero, has
no such fraction and the spec states no step: it is free (entry 24). -/
def dfeStep (f : FrameStats) : Int :=
  if f.afterOne = 0 ∨ f.afterZero = 0 then Config.freeDfeStep f.afterOne f.onesAfterOne f.afterZero f.onesAfterZero
  else
    Int.tdiv (64 * ((f.onesAfterOne : Int) * f.afterZero - (f.onesAfterZero : Int) * f.afterOne)) ((f.afterOne : Int) * f.afterZero)

/-- The integer in a range that is nearest. -/
def clampInt (lo hi x : Int) : Int := if x < lo then lo else if hi < x then hi else x

/-- R137: the threshold target of a frame, and whether it lies beyond the range. -/
def Lane.thrGoal (x : Lane) (f : FrameStats) : Int × Bool :=
  let t := x.thr + thrStep f
  (clampInt (-31) 31 t, decide (t < -31 ∨ 31 < t))

/-- R137: the DFE target of a frame, and whether it lies beyond the range. -/
def Lane.dfeGoal (x : Lane) (f : FrameStats) : Nat × Bool :=
  let t := (x.dfe : Int) + dfeStep f
  ((clampInt 0 31 t).toNat, decide (t < 0 ∨ 31 < t))

/-- A frame's three targets replace the earlier ones; `near` is the distance from which a phase target is pursued and
`dfeOn` says that the lane has a DFE. -/
def Lane.aim (x : Lane) (f : FrameStats) (near : Nat) (dfeOn : Bool) : Lane :=
  let p := phaseTarget f.edges
  let (t, tOut) := x.thrGoal f
  let (d, dOut) := x.dfeGoal f
  { x with phaseT := p
           phaseDue := decide (near ≤ phaseApart p x.phase)
           thrT := if t = x.thr then none else some t
           dfeT := if dfeOn ∧ d ≠ x.dfe then some d else none
           pinned := tOut || (dfeOn && dOut) }

/-- Moves that are due. -/
def Lane.due (x : Lane) : Nat := (if x.thrT.isSome then 1 else 0) + (if x.dfeT.isSome then 1 else 0) + (if x.phaseDue then 1 else 0)

/-- R135: since when a move is pending. -/
def Lane.watch (x : Lane) (t : Tally) : Lane :=
  { x with pendingFrom := if x.due = 0 then none else match x.pendingFrom with | some p => some p | none => some t }

/-- R135: TRACKING or PINNED, by the last frame; STARVED lasts until the next gap. -/
def Lane.settle (x : Lane) : Lane := { x with st := if x.pinned then .pinned else .tracking }

/-! ### Lanes -/

/-- R330: the lane is a test lane. -/
def State.isTest (s : State) (l : LaneId) : Bool := (s.test l).underTest s.mode

/-- R136: the lane has a DFE: flue lanes, and host lanes at 8.0 GT/s and above. -/
def State.dfeOn (s : State) (l : LaneId) : Bool :=
  if l.val < 16 then fastRate (if s.isTest l then s.cfg.hrate else s.link.rate) else true

/-- R135: the lane's domain is ON and it calibrates. -/
def Lane.calibrates (x : Lane) : Bool := x.st = .tracking || x.st = .pinned || x.st = .starved

/-- R95, R96: the lane's domain and the bellows engine are ON. -/
def State.engineOn (s : State) (l : LaneId) : Bool := (s.dom (laneDom l)).isOn && (s.dom (domOf 160)).isOn

/-- R137, R128: the lane receives bits that count. -/
def State.receives (s : State) (l : LaneId) : Bool :=
  s.engineOn l &&
    (s.isTest l || (if l.val < 16 then s.link.st = .l0 && !s.link.rxL0s
      else if l.val < 24 then s.flueA.st = .active else s.flueB.st = .active))

/-- R359: the requester port of a tap move. -/
def tapPort (l : LaneId) : PortId := if l.val < 16 then 16 else if l.val < 24 then 17 else 18

/-! ### Moves -/

/-- R110, R141: a tap move can be paid: the levels above have been admitted, which has not ended the tick's admission, nothing
is held and two embers are there; or the ledger is OFF. -/
def State.canMove (s : State) (ended : Bool) : Bool :=
  match s.ledger.st with
  | .off => true
  | .opened => !ended && !s.anyHeld && decide (Config.costTapMove ≤ s.ledger.balance)
  | .closed => false

/-- R139: one step of the phase, by the shorter path, downward when both are 32 steps. -/
def phaseStep (p t : BitVec 6) : BitVec 6 := if (t - p).toNat < 32 then p + 1 else p - 1

/-- R139: the first due move is applied. -/
def Lane.step (x : Lane) : Lane :=
  match x.thrT with
  | some t => { x with thr := t, thrT := none }
  | none =>
    match x.dfeT with
    | some d => { x with dfe := d, dfeT := none }
    | none =>
      let p := phaseStep x.phase x.phaseT
      { x with phase := p, phaseDue := p != x.phaseT }

/-- The kind of the first due move: the order of R139. -/
def Lane.first (x : Lane) : Nat := if x.thrT.isSome then 0 else if x.dfeT.isSome then 1 else 2

/-- R331: the bits after a move that a checker does not compare. -/
def State.passMove (s : State) (l : LaneId) : State :=
  if s.isTest l then s.modTest l fun t => { t with skip := Config.skipBits } else s

/-- R140, R144, R331: one paid move. -/
def State.applyMove (s : State) (l : LaneId) : State :=
  let s1 := { s with ledger := s.ledger.charge (tapPort l) Config.costTapMove, tapMoves := s.tapMoves + 1 }
  (s1.modLane l fun x => { x.step with moves := x.moves + 1, lastMove := s.now }).passMove l

/-- R140: the due moves are deferred to the lane's next gap. -/
def State.deferMoves (s : State) (l : LaneId) (k : Nat) : State :=
  s.modLane l fun x => { x with deferred := min 0xFFFF (x.deferred + k) }

/-- R139, R140: the due moves of one gap, in order, one of each kind. -/
def State.moveAll (ended : Bool) : Nat → Nat → State → LaneId → State
  | 0, _, s, _ => s
  | k + 1, kind, s, l =>
    let x := s.lane l
    if x.due = 0 ∨ x.first < kind then s
    else if s.canMove ended then State.moveAll ended k (x.first + 1) (s.applyMove l) l
    else s.deferMoves l x.due

/-- R139: what a gap does to a lane that calibrates. -/
def State.gap (ended : Bool) (l : LaneId) (s : State) : State :=
  (State.moveAll ended 3 0 s l).modLane l fun x => ({ x with pendingFrom := none }.watch s.now).settle

/-- R104, R109, R110, R140: the moves of the lanes `ls`, which are the tap level of one tick's admission: the refill and the
levels above come first, then the lanes by ascending number, host lanes first. A frozen core admits nothing (R26): only a gap in
which a move is due makes it run. -/
def State.gaps (ls : List LaneId) (s : State) : State :=
  if s.coreRuns ∨ ls.any (fun l => (s.lane l).due != 0) then (forList ls (State.gap s.admitTick.2) s.admitTick.1).snapshot
  else forList ls (State.gap true) s

/-- R331: a self-checking lane: generator and checker are both active. -/
def TestLane.selfChecks (m : Mode) (t : TestLane) : Bool :=
  t.underTest m &&
    (if m = .m5 then t.loop = 1 || t.loop = 2 || (t.loop = 0 && t.pattern != 0) else t.loop = 0 && t.pattern != 0)

/-- R333: the lane transmits: its generator runs, or its far-end loop returns what it receives. -/
def TestLane.transmits (m : Mode) (t : TestLane) : Bool :=
  (m = .m5 && decide (1 ≤ t.loop ∧ t.loop ≤ 3)) || (t.pattern != 0 && !(m = .m6 && t.loop = 2))

/-- R329: the lane's transmit balls carry its stream; near-end parallel and a checker leave them high-impedance. -/
def TestLane.drivesBalls (m : Mode) (t : TestLane) : Bool := t.transmits m && !(m = .m5 && t.loop = 2)

/-- R328, R329: the lane under test has begun: its tick E has come. -/
def State.testRuns (s : State) (l : LaneId) : Bool :=
  s.isTest l && match (s.test l).since with
    | some e => s.running && s.reached e
    | none => false

/-- R325: ticks from E to injection k, `none` when there is no such injection. -/
def injectionAt (period k : Nat) : Option Nat :=
  if period = 0 then (if k = 1 then some (2 ^ 20) else none)
  else if period < 15 then some (k * 2 ^ (period + 6))
  else none

/-- R333: an injection of the lane falls in this tick. -/
def State.injectsNow (s : State) (l : LaneId) : Bool :=
  let t := s.test l
  t.transmits s.mode &&
    match t.since, injectionAt t.period (t.injected + 1) with
    | some e, some d => decide (s.now = tickPlus e d)
    | _, _ => false

/-- R331, R333: an injection holds the moves of a self-checking lane, one that falls in this tick included. -/
def State.holdsMoves (s : State) (l : LaneId) : Bool :=
  (s.test l).selfChecks s.mode && (!(s.test l).holds.isEmpty || s.injectsNow l)

/-! ### The elastic buffers -/

/-- R294: what becomes of a FILLER at an elastic buffer that holds `k` of its 16 blocks, under independent references. -/
inductive Elastic
  | delete | insert | pass
  deriving DecidableEq, Repr

def elasticAction (k : Nat) : Elastic := if 10 ≤ k then .delete else if k ≤ 6 then .insert else .pass

/-- R294: the blocks the buffer holds after a FILLER. -/
def elasticNext (k : Nat) : Nat :=
  match elasticAction k with
  | .delete => k - 1
  | .insert => k + 1
  | .pass => k

/-- The bellows lanes of a flue, as a mask. -/
def fillerLanes : FlueId → BitVec 32
  | .a => 0x00FF0000
  | .b => 0xFF000000

/-- R294: the elastic buffer of an ACTIVE flue passes a FILLER; there is none under a forwarded clock. -/
def State.passFiller (s : State) (f : FlueId) (fills : BitVec 32) (held : Nat) : State :=
  if !s.cfg.fwd ∧ (s.flue f).st = .active ∧ fills &&& fillerLanes f ≠ 0 then s.modFlue f fun x => { x with elastic := elasticNext held }
  else s

/-! ### Commands -/

/-- BELLOWS_FRAME_END (R137, R331, R333): a 2^17-bit frame gives new targets; on a test lane its moves follow at once, unless an
injection holds them. -/
def execBellowsFrameEnd (lane : LaneId) (stats : FrameStats) (s : State) : Host.Outcome State Fault Refusal :=
  let x := s.lane lane
  if s.running ∧ x.calibrates ∧ s.receives lane ∧ !(s.isTest lane && s.mode = .m5 && (s.test lane).loop = 2) then
    let s1 := s.modLane lane fun x =>
      let y := (x.aim stats 2 (s.dfeOn lane)).watch s.now
      if x.st = .starved then y else y.settle
    if s.isTest lane ∧ !s.holdsMoves lane then .next (s1.gaps [lane]) else .next s1
  else .next s

/-- R138: every tap moves to its target in one step. -/
def Lane.jump (x : Lane) : Lane :=
  { x with phase := if x.phaseDue then x.phaseT else x.phase, thr := x.thrT.getD x.thr, dfe := x.dfeT.getD x.dfe,
           phaseDue := false, thrT := none, dfeT := none, quiet := if x.due = 0 then x.quiet + 1 else 0 }

/-- R138: after two frames that call for no move the lane tracks; R332: its checker seeks. -/
def State.acquired (s : State) (l : LaneId) : State :=
  if 2 ≤ (s.lane l).quiet then
    let s1 := s.modLane l fun x => { x.noTargets with st := .tracking }
    s1.modTest l fun t => if t.checker = .waiting then { t with checker := .seeking, reg := [], matched := 0 } else t
  else s

/-- R138: a lane of the host link that calibrates is in training again: the host leads the link through Recovery. -/
def State.hostRetrains (s : State) (l : LaneId) : Bool :=
  s.link.st = .l0 && !s.isTest l && (s.lane l).calibrates && s.trainedLanes.any fun i => hostLane i = l

/-- ACQUIRE_FRAME_END (R138): a 2^12-bit frame in training; the first one on a lane in L0 shows that Recovery has begun. -/
def execAcquireFrameEnd (lane : LaneId) (stats : FrameStats) (s : State) : Host.Outcome State Fault Refusal :=
  if s.running ∧ s.engineOn lane ∧ !(s.isTest lane && s.mode = .m5 && (s.test lane).loop = 2) then
    let s1 := if s.hostRetrains lane then s.enterRecovery else s
    if (s1.lane lane).st = .acquiring then
      .next ((s1.modLane lane fun x => (x.aim stats 1 (s1.dfeOn lane)).jump).acquired lane)
    else .next s1
  else .next s

/-- R139, R294: the lanes on which a gap stands: an inserted FILLER is none. -/
def State.gapLanes (s : State) (g : GapSet) : List LaneId :=
  (List.finRange 32).filter fun l =>
    g.lanes.getLsbD l.val && !(16 ≤ l.val && g.inserted.getLsbD l.val) && (s.lane l).calibrates && s.receives l && !s.isTest l

/-- BELLOWS_GAP (R109, R139, R140, R294): SKP ordered sets or filler blocks received in one tick. -/
def execBellowsGap (gaps : GapSet) (s : State) : Host.Outcome State Fault Refusal :=
  if s.running then
    .next ((s.gaps (s.gapLanes gaps)).passFiller .a gaps.lanes gaps.heldA |>.passFiller .b gaps.lanes gaps.heldB)
  else .next s

/-- LANE_STARVED (R135, R331): a move has been pending for 16,384 ticks with no gap. -/
def execLaneStarved (lane : LaneId) (s : State) : Host.Outcome State Fault Refusal :=
  match (s.lane lane).pendingFrom with
  | some t =>
    if s.running ∧ (s.lane lane).calibrates ∧ s.receives lane ∧ !s.isTest lane then
      .next ((s.advanceTo (tickPlus t Config.starveTicks)).modLane lane fun x => { x with st := .starved })
    else .next s
  | none => .next s

end Sys2Proof.Machine
end

