-- ==== Sys2Proof/Machine/Reports.lean ====
section
/-! DEFINITION. The bodies of the four vendor reports: Strap Mirror (R189), Ember Report (R119), Bellows Report (R144), Soot
Report (R191) with the test results of R334. Offsets are those of the report tables. -/

namespace Sys2Proof.Machine

open Sys2Proof

/-! ### Fields -/

/-- A field of a dword. -/
def field (v : Nat) (lo width : Nat) : Nat := (v % 2 ^ width) * 2 ^ lo

def dword (n : Nat) : Dword := BitVec.ofNat 32 n

def bitField (b : Bool) (lo : Nat) : Nat := if b then 2 ^ lo else 0

/-- A dword of four bytes, the first at the lowest offset. -/
def dwordOf (byte : Nat → Nat) : Dword := dword (byte 0 + byte 1 * 2 ^ 8 + byte 2 * 2 ^ 16 + byte 3 * 2 ^ 24)

/-- The lower and upper dword of a tally. -/
def tallyLo (t : Tally) : Nat := t.toNat % 2 ^ 32
def tallyHi (t : Tally) : Nat := t.toNat / 2 ^ 32

/-- The offset lies in a table of `k` entries of `sz` bytes each that starts at `base`. -/
def inTable (o base sz k : Nat) : Bool := decide (base ≤ o ∧ o < base + sz * k)

/-! ### Strap Mirror -/

/-- R189: status codes. -/
def BallStatus.code : BallStatus → Nat
  | .valid => 0 | .gap => 1 | .driven => 2 | .unassigned => 3 | .conflict => 4

/-- R189: the byte of one ball. -/
def Ball.byte (b : Ball) : Nat := b.code.toNat + 16 * b.shown.code

/-- The Strap Mirror byte at body offset `o`, 0x10 to 0x513. -/
def State.mirrorByte (s : State) (o : Nat) : Nat :=
  if o < 0xC4 then (ballAt s.straps.globals (o - 0x10)).byte
  else (ballAt (vget s.hearths (Fin.ofNat 16 ((o - 0xC4) / 69))).balls ((o - 0xC4) % 69)).byte

/-- R189: balls whose status is not VALID. -/
def State.notValid (s : State) : Nat :=
  (s.straps.globals.toList.filter fun b => b.shown != .valid).length +
    (s.hearths.toList.map fun h => (h.balls.toList.filter fun b => b.shown != .valid).length).sum

/-- R181, R189: the BAR-0 size nibble of hearth `n`. -/
def Hearth.barNibble (h : Hearth) : Nat := if h.barFallback then 8 else h.barCode % 8

def State.mirrorDword (s : State) (o : Nat) : Dword :=
  if o = 0x08 then dword (0x0504 + field s.notValid 16 16)
  else if o = 0x0C then
    dword (field s.straps.lastGroup 0 6 + bitField s.straps.seqDone 6 + field s.mode.code 8 3)
  else if 0x10 ≤ o ∧ o < 0x514 then dwordOf fun i => s.mirrorByte (o + i)
  else if inTable o 0x514 8 48 then
    let t := vget s.straps.groupTally (Fin.ofNat 48 ((o - 0x514) / 8))
    if (o - 0x514) % 8 = 0 then dword (tallyLo t) else dword (tallyHi t)
  else if inTable o 0x694 4 8 then
    let h := (o - 0x694) / 4
    dword ((s.hearth (Fin.ofNat 16 (2 * h))).reloads.toNat + (s.hearth (Fin.ofNat 16 (2 * h + 1))).reloads.toNat * 2 ^ 16)
  else if inTable o 0x6B4 4 2 then
    let k := (o - 0x6B4) / 4
    dword ((List.range 8).map fun i => field (s.hearth (Fin.ofNat 16 (8 * k + i))).barNibble (4 * i) 4).sum
  else 0

/-! ### Ember Report -/

/-- R119, R120: the report as it stood at the end of the last admission tick. -/
def State.emberDword (s : State) (o : Nat) : Dword :=
  let x := s.ledger.shown
  if o = 0x08 then dword (field x.code 0 3 + field x.budgetCode.toNat 8 4 + field x.held 16 16)
  else if o = 0x0C then dword x.budget
  else if o = 0x10 then dword x.balance
  else if o = 0x14 then dword x.refills
  else if o = 0x18 then dword x.lowWindows
  else if o = 0x1C then
    match x.oldest with
    | none => dword 0x1F
    | some (port, level, age, _) => dword (port.val + field level 5 2 + field (min age 0xFFFF) 16 16)
  else if o = 0x20 then (match x.oldest with | none => 0 | some (_, _, _, cost) => dword cost)
  else if o = 0x24 then dword x.charged
  else if o = 0x28 then dword (x.charged / 2 ^ 32)
  else if inTable o 0x2C 4 20 then dword (vget x.perPort (Fin.ofNat 20 ((o - 0x2C) / 4)))
  else if o = 0x7C then dword x.maxWindow
  else 0

/-! ### Bellows Report -/

/-- R135: lane state codes. -/
def LaneSt.code : LaneSt → Nat
  | .off => 0 | .acquiring => 1 | .tracking => 2 | .pinned => 3 | .starved => 4

/-- R144: the four dwords of a lane. -/
def Lane.dword (x : Lane) (k : Nat) : Dword :=
  match k with
  | 0 => Machine.dword (x.phase.toNat + field x.phaseT.toNat 6 6 + field x.ctle 12 4
      + field (BitVec.ofInt 6 x.thr).toNat 16 6 + field x.dfe 24 5 + field x.st.code 29 3)
  | 1 => x.moves
  | 2 => Machine.dword (tallyLo x.lastMove)
  | _ => Machine.dword (tallyHi x.lastMove + field x.deferred 16 16)

def State.bellowsDword (s : State) (o : Nat) : Dword :=
  if o = 0x08 then
    dword (bitField (!s.calstatLow) 0 + field ((List.finRange 32).filter fun l => (s.dom (laneDom l)).isOn).length 8 8)
  else if o = 0x0C then s.tapMoves
  else if inTable o 0x10 16 32 then
    let l : LaneId := Fin.ofNat 32 ((o - 0x10) / 16)
    if s.mode.usable (laneDom l).val then (s.lane l).dword ((o - 0x10) % 16 / 4) else 0
  else 0

/-! ### Soot Report -/

/-- R332: checker state codes. -/
def CheckSt.code : CheckSt → Nat
  | .off => 0 | .waiting => 1 | .seeking => 2 | .locked => 3

/-- R334: the two dwords of a test lane. -/
def State.testDword (s : State) (l : LaneId) (second : Bool) : Dword :=
  let t := s.test l
  if second then dword (min t.errors 0xFFFFFFFF)
  else
    dword (t.checker.code + field t.pattern 2 3 + field (if s.mode = .m5 then t.loop else 0) 5 2
      + field (min t.losses 0xFF) 8 8 + field (min (t.compared / 2 ^ 28) 0xFFFF) 16 16)

/-- R191: the four dwords of a fault entry. -/
def FaultEntry.dword (e : FaultEntry) (k : Nat) : Dword :=
  match k with
  | 0 => e.addr
  | 1 => Machine.dword (field e.first 0 6 + field e.second 8 6 + field e.key.toNat 16 4 + field e.tag.toNat 20 4
      + field e.port.val 24 5 + field e.pos.val 29 2 + 2 ^ 31)
  | 2 => Machine.dword (field (AccKind.code e.kind) 0 3 + bitField e.downstream 3 + field e.hearth.val 4 4
      + field (tallyHi e.tally) 16 16)
  | _ => Machine.dword (tallyLo e.tally)

/-- R302: flue link-state codes. -/
def FlueSt.code : FlueSt → Nat
  | .disabled => 0 | .detect => 1 | .training => 2 | .active => 3 | .down => 4 | .dead => 5

/-- R191: the four dwords of a flue. -/
def Flue.dword (x : Flue) (k : Nat) : Dword :=
  match k with
  | 0 => Machine.dword (x.st.code + field x.cause 4 4 + field x.errLane 8 8 + field (min x.retrains 0xFFFF) 16 16)
  | 1 => Machine.dword (min x.parity 0xFFFFFFFF)
  | 2 => Machine.dword (tallyLo x.eventTick)
  | _ => Machine.dword (tallyHi x.eventTick)

/-- R191: the byte of position `p` at offset 0x1C. Traffic that is held for want of a usable path shows the flue of its
preferred path (DESIGN CHOICE, entry 72: the table lists no code for it). -/
def State.pathByte (s : State) (p : Fin 4) : Nat :=
  let path :=
    if p = s.pos then 3
    else if s.chimney ∧ p.val < s.cfg.csize then
      (match s.freshPath p with
        | some .a => 1
        | some .b => 2
        | none => if s.preferred p = .a then 1 else 2)
    else 0
  path + bitField (vget s.chim.copies p).current 2

def State.sootDword (s : State) (o : Nat) : Dword :=
  if o = 0x08 then dword (s.soot.faults + field s.soot.flueEvents 16 16)
  else if inTable o 0x0C 4 2 then
    let k := (o - 0x0C) / 4
    dword ((List.range 8).map fun i => field (s.hearth (Fin.ofNat 16 (8 * k + i))).slot.code (4 * i) 4).sum
  else if o = 0x14 then (if s.mode.tests then 0 else dword s.soot.next.val)
  else if o = 0x18 then
    dword (bitField s.prot.inService 0 + bitField s.prot.overlap 1 + bitField s.prot.badStrap 2
      + field s.prot.pairLo 8 5 + field s.prot.pairHi 16 5)
  else if o = 0x1C then dwordOf fun p => s.pathByte (Fin.ofNat 4 p)
  else if inTable o 0x20 16 16 then
    if s.mode.tests then s.testDword (Fin.ofNat 32 ((o - 0x20) / 8)) ((o - 0x20) % 8 = 4)
    else
      match vget s.soot.entries (Fin.ofNat 16 ((o - 0x20) / 16)) with
      | some e => e.dword ((o - 0x20) % 16 / 4)
      | none => 0
  else if inTable o 0x120 16 1 then s.flueA.dword ((o - 0x120) / 4)
  else if inTable o 0x130 16 1 then s.flueB.dword ((o - 0x130) / 4)
  else 0

/-! ### The four reports together -/

/-- R188: VSEC lengths. -/
def reportLen (r : Fin 4) : Nat :=
  match r with
  | 0 => 0x6BC | 1 => 0x080 | 2 => 0x210 | 3 => 0x150

/-- R305: report `r` of this bridge, body offset `o`. -/
def State.reportDword (s : State) (r : Fin 4) (o : Nat) : Dword :=
  match r with
  | 0 => s.mirrorDword o
  | 1 => s.emberDword o
  | 2 => s.bellowsDword o
  | 3 => s.sootDword o

/-- R193: a dword of the copy position 0 holds of position `p`; the key is 1,024 times the report number plus the dword
offset. Before the first REPORT a dword reads 0 (DESIGN CHOICE, entry 73: the spec gives a copy no first contents). -/
def State.copyDword (s : State) (p : Fin 4) (r : Fin 4) (o : Nat) : Dword :=
  match (vget s.chim.copies p).dwords.find? fun d => d.1 = 1024 * r.val + o / 4 with
  | some d => d.2
  | none => 0

end Sys2Proof.Machine
end

