-- ==== Sys2Proof/Machine/Functions.lean ====
section
/-! DEFINITION. What happens to a function: its kind-0 work (R237, R317), FUNC blocks (R306), its writable bits with their
side effects (R178, R183, R184), function level reset (R317, R319, R320) and link reset (R316), with their commands. -/

namespace Sys2Proof.Machine

open Sys2Proof

/-! ### Kind-0 work -/

/-- R157: a kind-0 piece of chimney hearth `h`. -/
def Piece.kind0Of (h : Fin 64) (p : Piece) : Bool :=
  p.srcPos = posOf h && p.reqPort = hearthPort (hearthOf h) && p.dstPos = 0 && p.far = 16 &&
    p.cls != .completion && p.cls != .interrupt

/-- The pieces `q` picks among items, admitted items and switch queues. -/
def State.gather (s : State) (q : Piece → Bool) : List Piece :=
  ((s.waitingItems ++ s.items.admitted).filterMap fun it => match it.work with
      | .piece p => if q p then some p else none
      | _ => none)
    ++ s.sw.q.toList.flatMap (fun l => l.filter q)

/-- R169, R317: an unsent TLP of kind-0 work of chimney hearth `h`. -/
def TxTlp.kind0Of (h : Fin 64) (t : TxTlp) : Bool :=
  t.hearth = some h && (t.kind = .mwr || t.kind = .mrd || t.kind = .flush)

/-- R165: the hearth work that a tag of origin `o` serves has not ended. -/
def State.awaited (s : State) (o : Origin) : Bool :=
  match o with
  | .cycle n serial => match (s.hearth n).cyc with
    | some c => c.serial = serial && c.phase = .inFlight
    | none => false
  | .posted n serial => (s.hearth n).posted.contains serial
  | .remote _ _ _ _ => true
  | _ => false

/-- R232, R236: host-side work for `o` has ended with `status`. -/
def State.endWork (s : State) (o : Origin) (got : List (Nat × Byte)) (status : CplStatus) : State :=
  match o with
  | .cycle n serial => s.completeCycle n serial got status
  | .posted n serial => s.endPosted n serial
  | .remote q port tag key => s.remoteReply 16 q port tag key got status
  | .remotePosted q num => s.performedFrom q num
  | _ => s

/-- R168, R255, R269: a completion of the host crosses from port 16 to its requester as a piece of class 2. -/
def State.hostReply (s : State) (o : Origin) (tag : Nat) (got : List (Nat × Byte)) (status : CplStatus) : State :=
  match o with
  | .cycle n _ =>
    s.push { s.replyPiece 16 s.pos (hearthPort n) tag (s.hearth n).cfg.ktag got status with
      dst := hearthPort n, origin := o, readyAt := s.now }
  | _ => s.endWork o got status

/-- R237: a kind-0 piece not yet sent is discarded: its cycle ends under R236; an acknowledged write is dropped and
logged. -/
def State.cutPiece (s : State) (h : Fin 64) (p : Piece) : State :=
  match p.origin with
  | .posted n serial =>
    let waits : Bool := match (s.hearth n).cyc with | some c => c.serial = serial && c.phase.isOpen | none => false
    if waits then s.farSide n false else (s.logEvent (fnOfChimney h)).endPosted n serial
  | .cycle n serial =>
    match (s.hearth n).cyc with
    | some c => if c.serial = serial then s.farSide n false else s
    | none => s
  | .remotePosted q num => (s.logEvent (fnOfChimney h)).performedFrom q num
  | .remote q port tag key => s.remoteReply 16 q port tag key [] .ur
  | _ => s

/-- R237: an unsent TLP is discarded. A flush whose MWr has been sent counts as done. -/
def State.cutTlp (s : State) (h : Fin 64) (mine : List TxTlp) (t : TxTlp) : State :=
  match t.kind with
  | .mwr =>
    match t.origin with
    | .posted n serial => (s.logEvent (fnOfChimney h)).endPosted n serial
    | .remotePosted q num => (s.logEvent (fnOfChimney h)).performedFrom q num
    | _ => s
  | .mrd => s.endWork t.origin [] .ca
  | .flush => s.endWork t.origin [] (if mine.any fun u => u.kind = .mwr && u.origin = t.origin then .ca else .sc)
  | _ => s

/-- R237: kind-0 work of chimney hearth `h` not yet sent ends. -/
def State.cutKind0 (s : State) (h : Fin 64) : State :=
  let ps := s.gather (Piece.kind0Of h)
  let ts := s.txq.filter (TxTlp.kind0Of h)
  let s1 := s.removePieces (Piece.kind0Of h)
  let s2 := { s1 with txq := s1.txq.filter fun t => !TxTlp.kind0Of h t }
  forList ts (fun t s => s.cutTlp h ts t) (forList ps (fun p s => s.cutPiece h p) s2)

/-- R317: kind-0 work of chimney hearth `h` not yet sent is discarded; its writes stop holding back changes (R247). -/
def State.discardKind0 (s : State) (h : Fin 64) : State :=
  let os := (s.gather (Piece.kind0Of h)).map (·.origin) ++ (s.txq.filter (TxTlp.kind0Of h)).map (·.origin)
  let s1 := s.removePieces (Piece.kind0Of h)
  let s2 := { s1 with txq := s1.txq.filter fun t => !TxTlp.kind0Of h t }
  forList os (fun o s => match o with
    | .posted n serial => s.endPosted n serial
    | .remotePosted q num => s.performedFrom q num
    | _ => s) s2

/-- R270, R319: sampler records not yet sent are discarded and counted as skipped. The skips that they themselves carried are lost
(DESIGN CHOICE, entry 91: R270 does not say whether they count again). -/
def State.dropRecords (s : State) : State :=
  let sample := fun (p : Piece) => p.origin = .sample
  let unsent := (s.txq.filter fun t => t.origin = .sample && !t.awaitsRecord).length
  let s1 := s.removePieces sample
  { s1 with
    txq := s1.txq.filter fun t => t.origin != .sample
    sampler := { s1.sampler with queue := [], skipped := s1.sampler.skipped + s1.sampler.queue.length + unsent } }

/-! ### FUNC blocks -/

/-- R183, R306: in M2, position 0 sends the function state of a member hearth. `reset` counts one more FLR. Without a path the block
waits for one. -/
def State.sendFunc (s : State) (h : Fin 64) (reset : Bool) : State :=
  if s.mode = .m2 ∧ posOf h ≠ s.pos ∧ s.exposed (fnOfChimney h).val then
    let c := s.fn (fnOfChimney h)
    let old := vget s.chim.funcs h
    let m : FuncMsg := { hearth := hearthOf h, flrs := if reset then old.flrs + 1 else old.flrs, bme := c.bme, mse := c.mse, d0 := c.power = .d0 }
    { s with chim := { s.chim with funcs := vset s.chim.funcs h m } }.control (posOf h) (.func (posOf h) m)
  else s

/-- The chimney hearth of a hearth function. -/
def hearthOfFn (f : FnId) : Option (Fin 64) := if 0 < f.val then some (Fin.ofNat 64 (f.val - 1)) else none

def State.sendFuncOf (s : State) (f : FnId) (reset : Bool) : State :=
  match hearthOfFn f with
  | some h => s.sendFunc h reset
  | none => s

/-! ### Writable bits -/

/-- R92, R237, R270: Bus Master Enable takes a value; clearing it ends unsent work of the function. -/
def State.writeBme (s : State) (f : FnId) (v : Bool) : State :=
  if (s.fn f).bme = v then s
  else
    let s1 := s.modFn f fun c => { c with bme := v }
    let s2 :=
      if v then s1
      else match hearthOfFn f with
        | some h => s1.cutKind0 h
        | none => s1.dropRecords
    (s2.sendFuncOf f false).landWaiting.woken

/-- R179, R306. -/
def State.writeMse (s : State) (f : FnId) (v : Bool) : State :=
  if (s.fn f).mse = v then s else ((s.modFn f fun c => { c with mse := v }).sendFuncOf f false).woken

/-- R23, R106, R245: an INTx message on the bridge's own account costs 30 embers. -/
def State.presentIntx (s : State) (f : FnId) (up : Bool) : State :=
  if s.mode = .m7 then s else s.presentMessage (if up then .assertInta else .deassertInta) f (portPath 16) (Config.costHeader + Config.costCrossing)

/-- R178: Interrupt Status. -/
def State.intStatus (s : State) (f : FnId) : Bool := s.intaCount f

/-- R178: Interrupt Disable takes a value, in hearth functions only. -/
def State.writeIntd (s : State) (f : FnId) (v : Bool) : State :=
  if f.val = 0 ∨ (s.fn f).intd = v then s
  else
    let s1 := s.modFn f fun c => { c with intd := v }
    let told := (s.fn f).power = .d0 && (s.fn f).flr.isNone
    if v then (if told ∧ vget s.irq.wires f then s1.presentIntx f false else s1)
    else if told ∧ s.intStatus f then s1.presentIntx f true
    else s1

/-- R183, R245: PowerState takes a value, and a member hearth's bridge hears of it (entry 28); back in D0, Assert_INTA is sent when
Interrupt Status is 1 and Interrupt Disable is 0. -/
def State.writePower (s : State) (f : FnId) (v : PowerState) : State :=
  let old := (s.fn f).power
  let s0 := s.modFn f fun c => { c with power := v }
  let s1 := if (old = .d0) = (v = .d0) then s0 else s0.sendFuncOf f false
  if old ≠ .d0 ∧ v = .d0 ∧ s1.intStatus f ∧ !(s1.fn f).intd ∧ (s1.fn f).flr.isNone then s1.presentIntx f true else s1

/-- R118, R184: LTR Mechanism Enable takes a value; the bridge acts on function 0's only. -/
def State.writeLtr (s : State) (f : FnId) (v : Bool) : State :=
  let asked := f.val = 0 && v && !(s.fn f).ltr
  let s1 := s.modFn f fun c => { c with ltr := v }
  if asked then { s1 with ledger := { s1.ledger with ltrAsked := true } } else s1

/-- R161, R162. -/
def State.writeTenBit (s : State) (f : FnId) (v : Bool) : State := s.modFn f fun c => { c with tenBit := v }
def State.writeExtTag (s : State) (f : FnId) (v : Bool) : State :=
  s.modFn f fun c => { c with devctl := if v then c.devctl ||| 0x0100 else c.devctl &&& ~~~0x0100 }

/-- R17, R156: configuration requests reach the function. -/
def State.cfgReaches (s : State) (f : FnId) : Bool := s.hostLinkUp && s.exposed f.val

/-! ### Resets -/

/-- R315: the state of R12 takes its reset values; the sticky fields and a running FLR stand. -/
def FnCfg.functionReset (c : FnCfg) : FnCfg :=
  { FnCfg.reset with
    pmeEn := c.pmeEn, pmeStatus := c.pmeStatus, uncSta := c.uncSta, uncMask := c.uncMask, uncSev := c.uncSev,
    corSta := c.corSta, corMask := c.corMask, hdrLog := c.hdrLog, firstErr := c.firstErr, laneErr := c.laneErr, bus := c.bus,
    flr := c.flr, flrBar := c.flrBar }

/-- R319: beats of a request not yet granted are dropped; those granted stand. -/
def State.dropBeats (s : State) (id : Nat) : State :=
  { s with banks := vmap (fun (_ : Fin 16) (b : Bank) =>
      { b with slots := vmap (fun (_ : Fin 17) o => match o with
          | some x => if x.piece.origin = .host id then none else some x
          | none => none) b.slots }) s.banks }

/-- R316, R317, R319: host requests received and not completed are discarded, with what is left of their work. -/
def State.discardReqs (s : State) (pick : HostReq → Bool) : State :=
  forList ((s.reqs.filter pick).map (·.id)) (fun id s => ((s.dropReqWork id).dropBeats id).closeReq id) s

/-- R317, R319, R320, R323: requests received in the tick in which an FLR begins, held ones among them, are answered UR; the error is
recorded only in a drain, as for a miss. -/
def State.refuseReqs (s : State) (pick : HostReq → Bool) (logged : Bool) : State :=
  forList ((s.reqs.filter pick).map fun r => (r.id, r.receipt))
    (fun x s => if x.2 = s.now then
        let s1 := (s.dropReqWork x.1).dropBeats x.1
        match s1.req x.1 with
        | some r => (s1.refuseReq r .ur (if logged then some .ur else none)).closeReq x.1
        | none => s1
      else s) s

/-- R322: the locks that chimney hearth `h` holds over a flue on buses of this bridge. -/
def State.endFarLocks (s : State) (h : Fin 64) : State :=
  forHearths (fun m s => match (s.hearth m).farLock with
    | some l => if l.pos = posOf h ∧ l.hearth = hearthOf h then s.endFarLock m false else s
    | none => s) s

/-- R317: the INTA wire of a function under FLR counts as deasserted; the host is told when it saw the wire asserted. -/
def State.dropWire (s : State) (f : FnId) (intd : Bool) (power : PowerState) : State :=
  let s1 := { s with irq := { s.irq with wires := vset s.irq.wires f false } }
  if vget s.irq.wires f ∧ !intd ∧ power = .d0 then s1.presentIntx f false else s1

/-- R317, R320, R322, R323: FLR of a hearth function in tick t; a request received in tick t counts as received after it. -/
def State.flrHearth (s : State) (h : Fin 64) : State :=
  let f := fnOfChimney h
  let c := s.fn f
  let mine := fun (r : HostReq) => !r.stone && r.fn = f
  let s1 := s.modFn f fun c => { c.functionReset with flr := some s.now, flrBar := c.bar }
  let s2 := ((s1.discardKind0 h).discardReqs fun r => mine r && r.receipt != s.now).refuseReqs mine (s.drainsFor f)
  let s3 := ((s2.clearSlotEvent h).dropWire f c.intd c.power).endFarLocks h
  let s4 := if posOf h = s.pos then s3.hearthReset (hearthOf h) else s3.sendFunc h true
  s4.landWaiting.issueWaiting.woken

/-- R319: FLR of function 0 in tick t. -/
def State.flrGrate (s : State) : State :=
  let s1 := (s.modFn 0 fun c => { c.functionReset with flr := some s.now, flrBar := c.bar }).dropRecords
  ((s1.discardReqs fun r => r.stone && r.receipt != s.now).refuseReqs (fun r => r.stone) false).woken

/-- R317: an FLR is complete; the wire counts again. -/
def State.endFlr (s : State) (f : FnId) : State :=
  let s1 := s.modFn f fun c => { c with flr := none }
  if s1.intaCount f then
    let s2 := { s1 with irq := { s1.irq with wires := vset s1.irq.wires f true } }
    if (s2.fn f).intd ∨ (s2.fn f).power ≠ .d0 then s2 else s2.presentIntx f true
  else s1

/-- R316, R317: the FLR procedure on every exposed function in one tick. -/
def State.flrAll (s : State) : State :=
  let s1 := if s.exposed 0 then s.flrGrate else s
  forList (List.finRange 64) (fun h s => if s.exposed (fnOfChimney h).val then s.flrHearth h else s) s1

/-- R164, R316: at DL_Down every tag is released and every open cycle that waits for the host ends under its window's
far-side error mode. -/
def State.dropTags (s : State) : State :=
  let os := s.tags.map (·.origin)
  forList os (fun o s => s.endWork o [] .ca) { s with tags := [] }

/-- R316: sequence numbers, replay buffer and flow control start over; TLPs in the buffers are discarded. -/
def State.clearLink (s : State) : State :=
  { s with dll := Dll.reset, fc := Fc.reset, txq := [] }

/-- R315, R316: a link reset. Requests are dropped, the transmit queue with them, before the FLR of every function. -/
def State.linkDown (s : State) : State :=
  let s1 := s.dropTags
  let s2 := s1.discardReqs fun _ => true
  let s3 := s2.flrAll
  let posted := s3.txq.map (·.origin)
  let s4 := forList posted (fun o s => match o with
    | .posted n k => s.endPosted n k
    | .remotePosted q k => s.performedFrom q k
    | _ => s) s3
  s4.clearLink.landWaiting

/-! ### Commands -/

/-- BUS_MASTER_ENABLE_CLEAR (R237, R270, R306, R321). -/
def execBusMasterEnableClear (fn : FnId) (s : State) : Host.Outcome State Fault Refusal :=
  if s.cfgReaches fn then .next (s.writeBme fn false).woken else .next s

/-- BUS_MASTER_ENABLE_SET (R92, R306). -/
def execBusMasterEnableSet (fn : FnId) (s : State) : Host.Outcome State Fault Refusal :=
  if s.cfgReaches fn then .next (s.writeBme fn true).woken else .next s

/-- MEMORY_SPACE_ENABLE_WRITE (R179, R306). -/
def execMemorySpaceEnableWrite (fn : FnId) (value : Bool) (s : State) : Host.Outcome State Fault Refusal :=
  if s.cfgReaches fn then .next (s.writeMse fn value).woken else .next s

/-- INTERRUPT_DISABLE_WRITE (R27, R178). -/
def execInterruptDisableWrite (fn : FnId) (value : Bool) (s : State) : Host.Outcome State Fault Refusal :=
  if s.cfgReaches fn then .next (s.writeIntd fn value).woken else .next s

/-- POWER_STATE_WRITE (R27, R183, R245). -/
def execPowerStateWrite (fn : FnId) (state : PowerState) (s : State) : Host.Outcome State Fault Refusal :=
  if s.cfgReaches fn then .next (s.writePower fn state).woken else .next s

/-- LTR_MECHANISM_ENABLE_WRITE (R118, R184). -/
def execLtrMechanismEnableWrite (fn : FnId) (value : Bool) (s : State) : Host.Outcome State Fault Refusal :=
  if s.cfgReaches fn then .next (s.writeLtr fn value).woken else .next s

/-- TEN_BIT_TAG_ENABLE_WRITE (R161, R162). -/
def execTenBitTagEnableWrite (fn : FnId) (value : Bool) (s : State) : Host.Outcome State Fault Refusal :=
  if s.cfgReaches fn then .next (s.writeTenBit fn value).woken else .next s

/-- EXTENDED_TAG_ENABLE_WRITE (R161, R162). -/
def execExtendedTagEnableWrite (fn : FnId) (value : Bool) (s : State) : Host.Outcome State Fault Refusal :=
  if s.cfgReaches fn then .next (s.writeExtTag fn value).woken else .next s

/-- INITIATE_FLR (R317, R318, R320, R323). -/
def execInitiateFlr (h : Fin 64) (s : State) : Host.Outcome State Fault Refusal :=
  if s.cfgReaches (fnOfChimney h) then .next (s.flrHearth h) else .next s

/-- FLR_COMPLETE (R317): at t + 10,000. -/
def execFlrComplete (h : Fin 64) (s : State) : Host.Outcome State Fault Refusal :=
  match (s.fn (fnOfChimney h)).flr with
  | some t =>
    if s.running then .next (((s.advanceTo (tickPlus t Config.flrTicks)).endFlr (fnOfChimney h))).woken else .next s
  | none => .next s

/-- FLR_FUNCTION_0 (R319). -/
def execFlrFunction0 (s : State) : Host.Outcome State Fault Refusal :=
  if s.cfgReaches 0 then .next s.flrGrate else .next s

/-- FLR_FUNCTION_0_COMPLETE (R319): at t + 1,000. -/
def execFlrFunction0Complete (s : State) : Host.Outcome State Fault Refusal :=
  match (s.fn 0).flr with
  | some t =>
    if s.running then .next ((s.advanceTo (tickPlus t Config.flr0Ticks)).modFn 0 fun c => { c with flr := none }).woken
    else .next s
  | none => .next s

/-- R315, R316: the link falls. M5 and M6 have no link reset: there the link alone starts over. -/
def State.linkFall (s : State) : State :=
  let s1 := if s.mode.tests then (s.dropTags.discardReqs fun _ => true).clearLink else s.linkDown
  if s1.gate then s1.enterDetect else s1

/-- LINK_RESET (R130, R315, R316): Hot Reset, Link Disable or DL_Down; Detect is entered at its end, from the gate on. -/
def execLinkReset (cause : LinkResetCause) (s : State) : Host.Outcome State Fault Refusal :=
  match cause with
  | .hotReset => if s.hostLinkUp then .next s.linkFall else .next s
  | .linkDisable => if s.hostLinkUp then .next s.linkFall else .next s
  | .dlDown => if s.hostLinkUp then .next s.linkFall else .next s

end Sys2Proof.Machine
end

