-- ==== Sys2Proof/Machine/ConfigSpace.lean ====
section
/-! DEFINITION. The configuration space of every function (R176 to R193) and the commands that read and write it. Positions
of fields in the registers of the PCI Express specification are those of that specification (PRESUMED, entry 9). -/

namespace Sys2Proof.Machine

open Sys2Proof

/-! ### Capability chain (R182) -/

/-- The kinds of function of R182. -/
inductive FnKind
  | grate
  | hearth
  | member (p : Fin 4)
  deriving DecidableEq, Repr

def State.fnKind (s : State) (f : FnId) : FnKind :=
  if f.val = 0 then .grate
  else if s.mode = .m2 ∧ 16 < f.val ∧ f.val % 16 = 1 then .member (Fin.ofNat 4 (f.val / 16))
  else .hearth

/-- R182: offset, next offset, extended capability ID and version of the extended capabilities. -/
def FnKind.chain (k : FnKind) : List (Nat × Nat × Nat × Nat) :=
  match k with
  | .grate =>
    [(0x100, 0x148, 0x01, 2), (0x148, 0x150, 0x0E, 1), (0x150, 0x158, 0x18, 1), (0x158, 0x184, 0x19, 1),
     (0x184, 0x190, 0x25, 1), (0x190, 0x1C0, 0x26, 1), (0x1C0, 0x1F0, 0x2A, 1), (0x1F0, 0x238, 0x27, 1),
     (0x238, 0x248, 0x1E, 1), (0x248, 0x904, 0x0B, 1), (0x904, 0x984, 0x0B, 1), (0x984, 0xB94, 0x0B, 1), (0xB94, 0, 0x0B, 1)]
  | .hearth => [(0x100, 0x148, 0x01, 2), (0x148, 0, 0x0E, 1)]
  | .member _ =>
    [(0x100, 0x148, 0x01, 2), (0x148, 0x150, 0x0E, 1), (0x150, 0x80C, 0x0B, 1), (0x80C, 0x88C, 0x0B, 1),
     (0x88C, 0xA9C, 0x0B, 1), (0xA9C, 0, 0x0B, 1)]

/-- R182: where the four reports of a function begin. -/
def FnKind.reports (k : FnKind) : List (Nat × Fin 4) :=
  match k with
  | .grate => [(0x248, 0), (0x904, 1), (0x984, 2), (0xB94, 3)]
  | .hearth => []
  | .member _ => [(0x150, 0), (0x80C, 1), (0x88C, 2), (0xA9C, 3)]

/-! ### Type-0 header -/

/-- R178: the Command register. -/
def FnCfg.command (c : FnCfg) : Nat :=
  bitField c.mse 1 + bitField c.bme 2 + bitField c.perr 6 + bitField c.serr 8 + bitField c.intd 10

/-- R180, R181: log2 of a function's BAR size: 1 MiB in function 0, the BAR-0 size in effect in a hearth function; for a
member's hearth it stands in that member's Strap Mirror copy, and is 64 KiB before the first REPORT (DESIGN CHOICE, entry
73). -/
def State.barBits (s : State) (f : FnId) : Nat :=
  match hearthOfFn f with
  | none => 20
  | some h =>
    let n := hearthOf h
    let nib :=
      if posOf h = s.pos then (s.hearth n).barNibble
      else
        let off := 0x6B4 + 4 * (n.val / 8)
        match (vget s.chim.copies (posOf h)).dwords.find? fun d => d.1 = off / 4 with
        | some d => d.2.toNat / 2 ^ (4 * (n.val % 8)) % 16
        | none => 8
    if 8 ≤ nib then 16 else 16 + 2 * nib

/-- R180: a BAR as it reads: address bits below the size are 0. -/
def State.barValue (s : State) (f : FnId) : Nat := (s.fn f).bar.toNat / 2 ^ s.barBits f * 2 ^ s.barBits f

/-- R177: the type-0 header. -/
def State.headerDword (s : State) (f : FnId) (o : Nat) : Dword :=
  let c := s.fn f
  let grate : Bool := f.val = 0
  match o with
  | 0x00 => dword (s.cfg.vid.toNat + s.cfg.did.toNat * 2 ^ 16)
  | 0x04 => dword (c.command + (bitField (!grate && s.intStatus f) 3 + 2 ^ 4 + c.status.toNat) * 2 ^ 16)
  | 0x08 => dword (s.cfg.rid.toNat + s.cfg.classCode.toNat * 2 ^ 8)
  | 0x0C => dword (if s.mode.tests then 0 else 0x80 * 2 ^ 16)
  | 0x10 => if grate then 0 else dword (s.barValue f % 2 ^ 32 + 4)
  | 0x14 => if grate then 0 else dword (s.barValue f / 2 ^ 32)
  | 0x18 => if grate then dword (s.barValue f % 2 ^ 32 + 12) else 0
  | 0x1C => if grate then dword (s.barValue f / 2 ^ 32) else 0
  | 0x2C => dword (s.cfg.svid.toNat + s.cfg.ssid.toNat * 2 ^ 16)
  | 0x34 => dword 0x40
  | 0x3C => dword (0xFF + (if grate then 0 else 0x100))
  | _ => 0

/-! ### Power Management and PCI Express capabilities -/

/-- R81, R183: S_HAUX selects auxiliary power. -/
def State.hasAux (s : State) : Bool := s.cfg.haux = 1 || s.cfg.haux = 15

def PowerState.code : PowerState → Nat
  | .d0 => 0 | .d1 => 1 | .d2 => 2 | .d3hot => 3

def powerOf (n : Nat) : PowerState :=
  match n with
  | 0 => .d0 | 1 => .d1 | 2 => .d2 | _ => .d3hot

/-- R183. -/
def State.pmDword (s : State) (f : FnId) (o : Nat) : Dword :=
  let c := s.fn f
  if o = 0 then
    dword (0x01 + 0x50 * 2 ^ 8
      + (3 + bitField s.hasAux 6 + 2 ^ 9 + 2 ^ 10 + 0xF * 2 ^ 11 + bitField s.hasAux 15) * 2 ^ 16)
  else if o = 4 then
    dword (PowerState.code c.power + 2 ^ 3 + bitField c.pmeEn 8 + bitField c.pmeStatus 15)
  else 0

/-- R127: ASPM support bits. -/
def State.aspmBits (s : State) : Nat := bitField s.l0sSupported 0 + bitField s.l1Supported 1

def speedCode (r : Rate) : Nat := (rateIdx r).val + 1

/-- R127, R146, R184. -/
def State.pcieDword (s : State) (f : FnId) (o : Nat) : Dword :=
  let c := s.fn f
  match o with
  | 0x00 => dword (0x10 + 0x0002 * 2 ^ 16)
  | 0x04 => dword (2 + 2 ^ 5 + 6 * 2 ^ 6 + 6 * 2 ^ 9 + 2 ^ 15 + 2 ^ 28)
  | 0x08 => dword (c.devctl.toNat + (c.devsta.toNat + bitField (s.tags.any fun t => t.fn = f) 5) * 2 ^ 16)
  | 0x0C => dword (speedCode s.cfg.hrate + field s.maxWidth 4 6 + field s.aspmBits 10 2 + 5 * 2 ^ 12 + 4 * 2 ^ 15
      + bitField s.substates 18)
  | 0x10 => dword (s.aspmBits + bitField (!s.cfg.sris) 6 + bitField s.substates 8
      + (speedCode s.link.rate + field s.link.width 4 6) * 2 ^ 16)
  | 0x24 => dword (2 ^ 11 + 2 ^ 16 + 2 ^ 17)
  | 0x28 => dword (bitField c.ltr 10 + bitField c.tenBit 12)
  | 0x2C => dword (2 * (2 ^ speedCode s.cfg.hrate - 1))
  | 0x30 => dword (speedCode s.cfg.hrate)
  | _ => 0

/-! ### Extended capabilities -/

/-- R185, R310. -/
def State.aerDword (s : State) (f : FnId) (o : Nat) : Dword :=
  let c := s.fn f
  match o with
  | 0x04 => c.uncSta
  | 0x08 => c.uncMask
  | 0x0C => c.uncSev
  | 0x10 => c.corSta
  | 0x14 => c.corMask
  | 0x18 => dword c.firstErr.toNat
  | 0x1C => vget c.hdrLog 0
  | 0x20 => vget c.hdrLog 1
  | 0x24 => vget c.hdrLog 2
  | 0x28 => vget c.hdrLog 3
  | _ => 0

/-- R176: the next exposed function, 0 in the highest. -/
def State.ariDword (s : State) (f : FnId) (o : Nat) : Dword :=
  if o = 4 then dword (if s.exposed (f.val + 1) then (f.val + 1) * 2 ^ 8 else 0) else 0

/-- R125, R187: the transmitter preset in use on a lane at a rate: the one the host asked of the bridge; 0 where it has asked
for coefficients or for nothing (entry 63). -/
def State.presetOf (s : State) (lane : Nat) (r : Rate) : Nat :=
  match s.keptAt (Fin.ofNat 32 (lane % 16)) r with
  | some k => (match k.tx with | some (.preset p) => p.val | _ => 0)
  | none => 0

/-- R14, R187: Secondary PCI Express: Lane Error Status and two lane entries to a dword. The bridge is an Upstream Port, so a
lane's preset stands in its Upstream Port field, and the Downstream Port field is reserved (entry 9). -/
def State.secDword (s : State) (o : Nat) : Dword :=
  if o = 0x08 then dword (s.fn 0).laneErr.toNat
  else if inTable o 0x0C 4 8 then
    let l := (o - 0x0C) / 2
    dword (field (s.presetOf l .g8) 8 4 + field (s.presetOf (l + 1) .g8) 24 4)
  else 0

/-- R14, R187: the lane equalization entries of the 16.0 and 32.0 GT/s capabilities, four lanes to a dword, the preset in the
Upstream Port field of each. -/
def State.presetDword (s : State) (r : Rate) (o : Nat) : Dword :=
  dwordOf fun i => field (s.presetOf (o - 0x20 + i) r) 4 4

def State.rate16Dword (s : State) (o : Nat) : Dword := if inTable o 0x20 4 4 then s.presetDword .g16 o else 0

/-- R127: equalization bypass to the highest rate is supported. -/
def State.rate32Dword (s : State) (o : Nat) : Dword :=
  if o = 4 then 1 else if inTable o 0x20 4 4 then s.presetDword .g32 o else 0

/-- R127: what the bridge reports of its margining. The largest voltage offset is in percent of a volt, the lanes at once
less one; the sides are independent and the sampler is one of its own (R142; the encodings are PRESUMED, entry 9). -/
def State.marginReport (s : State) (ask : MarginAsk) : Nat :=
  match ask with
  | .timingSteps => Config.marginTimingSteps
  | .maxTimingOffset => Config.marginTimingMax
  | .voltageSteps => Config.marginVoltageSteps
  | .maxVoltageOffset => Config.marginVoltageMax / 10
  | .independence => 0x17
  | .lanesAtOnce => s.link.width - 1

/-- R142, R187: a margining lane's status: the report asked for, or the errors of the step last answered. -/
def State.marginDword (s : State) (o : Nat) : Dword :=
  if inTable o 8 4 16 then
    match vget s.link.margin (Fin.ofNat 16 ((o - 8) / 4)) with
    | some (.step _ _ errors) => dword (field (min errors 63) 24 6 + 2 ^ 31)
    | some (.report ask) => dword (field (s.marginReport ask) 24 8)
    | none => 0
  else 0

/-- R14, R127: L1 PM Substates. Common_Mode_Restore_Time and T_POWER_ON stand in the capability register alone; in Control 1
the former is reserved in an Upstream Port, and Control 2 keeps the T_POWER_ON of PCI Express's default, scale 2 us and
value 5 (PRESUMED, entry 74: R127 names the port's fields, the enables and the threshold only). -/
def State.substateDword (s : State) (o : Nat) : Dword :=
  let four := if s.substates then 0xF else 0
  match o with
  | 0x04 => dword (four + bitField s.substates 4 + 40 * 2 ^ 8 + 1 * 2 ^ 16 + 5 * 2 ^ 19)
  | 0x08 => dword (four + 10 * 2 ^ 16 + 2 * 2 ^ 29)
  | 0x0C => dword (5 * 2 ^ 3)
  | _ => 0

/-- R188: the two header dwords of a report at `base`. -/
def reportHeader (next : Nat) (r : Fin 4) (o : Nat) : Dword :=
  if o = 0 then dword (0x0B + 2 ^ 16 + next * 2 ^ 20) else dword (r.val + 1 + 2 ^ 16 + reportLen r * 2 ^ 20)

/-- R182: the extended capability that begins at `base`, read at `o` past it; the header comes from the chain. -/
def State.extDword (s : State) (f : FnId) (k : FnKind) (base o : Nat) : Dword :=
  match k.reports.find? fun x => x.1 = base with
  | some (_, r) =>
    match k with
    | .member p => s.copyDword p r o
    | _ => s.reportDword r o
  | none =>
    match base with
    | 0x100 => s.aerDword f o
    | 0x148 => s.ariDword f o
    | 0x158 => s.secDword o
    | 0x184 => if o = 4 then dword (1 + 2 ^ 31) else 0
    | 0x190 => s.rate16Dword o
    | 0x1C0 => s.rate32Dword o
    | 0x1F0 => s.marginDword o
    | 0x238 => s.substateDword o
    | _ => 0

/-- R182: the length of the extended capability at `base`. -/
def extLen (k : FnKind) (base : Nat) : Nat :=
  match k.reports.find? fun x => x.1 = base with
  | some (_, r) => reportLen r
  | none =>
    match base with
    | 0x100 => 0x48
    | 0x148 => 8
    | 0x150 => 8
    | 0x158 => 0x2C
    | 0x184 => 0x0C
    | 0x190 => 0x30
    | 0x1C0 => 0x30
    | 0x1F0 => 0x48
    | 0x238 => 0x10
    | _ => 0

/-- The register at dword offset `off` (a multiple of 4) of an exposed function. -/
def State.cfgRead (s : State) (f : FnId) (off : Nat) : Dword :=
  let k := s.fnKind f
  if off < 0x40 then s.headerDword f off
  else if off < 0x48 then s.pmDword f (off - 0x40)
  else if inTable off 0x50 0x3C 1 then s.pcieDword f (off - 0x50)
  else
    match k.chain.find? fun x => decide (x.1 ≤ off ∧ off < x.1 + extLen k x.1) with
    | none => 0
    | some (base, next, id, ver) =>
      match k.reports.find? fun x => x.1 = base with
      | some (_, r) => if off < base + 8 then reportHeader next r (off - base) else s.extDword f k base (off - base)
      | none => if off = base then dword (id + ver * 2 ^ 16 + next * 2 ^ 20) else s.extDword f k base (off - base)

/-! ### What a read does (R251) -/

/-- R251: the slot-state dword that a read of function `f` at `off` returns: its position and half. -/
def State.slotDword (s : State) (f : FnId) (off : Nat) : Option (Fin 4 × Fin 2) :=
  match s.fnKind f with
  | .grate => if off = 0xBA0 then some (s.pos, 0) else if off = 0xBA4 then some (s.pos, 1) else none
  | .member p => if off = 0xAA8 then some (p, 0) else if off = 0xAAC then some (p, 1) else none
  | .hearth => none

/-- R247, R251: the slot-event sources whose recorded code equals the code returned are cleared; each clear is an item. -/
def State.clearSeen (s : State) (p : Fin 4) (half : Fin 2) (v : Dword) : State :=
  forList (List.range 8)
    (fun i s =>
      let h := chimneyOf p (Fin.ofNat 16 (8 * half.val + i))
      if vget s.irq.slotEvents h = some (v.toNat / 2 ^ (4 * i) % 16) then s.clearSlotEvent h else s) s

/-- What reading a register does. -/
def State.afterRead (s : State) (f : FnId) (off : Nat) (v : Dword) : State :=
  match s.slotDword f off with
  | some (p, half) => s.clearSeen p half v
  | none => s

/-! ### Writes -/

/-- Bits `[lo + width - 1 : lo]` of the enabled bytes. -/
def beMask (be : BitVec 4) : Dword :=
  (List.range 4).foldl (fun m i => if be.getLsbD i then m ||| ((0xFF : Dword) <<< (8 * i)) else m) 0

/-- The enabled bytes of `data` over `old`. -/
def merge (old data : Dword) (be : BitVec 4) : Dword := (old &&& ~~~beMask be) ||| (data &&& beMask be)

/-- R178, R186: Command and Status. -/
def State.writeCommand (s : State) (f : FnId) (data : Dword) (be : BitVec 4) : State :=
  let c := s.fn f
  let v := merge (dword c.command) data be
  let clear := (data &&& beMask be).extractLsb' 16 16
  let s1 := s.modFn f fun c => { c with
    perr := v.getLsbD 6, serr := v.getLsbD 8, status := c.status &&& ~~~clear }
  ((s1.writeMse f (v.getLsbD 1)).writeBme f (v.getLsbD 2)).writeIntd f (v.getLsbD 10)

/-- R180: half of a 64-bit BAR. -/
def State.writeBar (s : State) (f : FnId) (high : Bool) (data : Dword) (be : BitVec 4) : State :=
  s.modFn f fun c =>
    let lo := c.bar.extractLsb' 0 32
    let hi := c.bar.extractLsb' 32 32
    { c with bar := if high then merge hi data be ++ lo else hi ++ merge lo data be }

/-- R183, R186: PMCSR. -/
def State.writePmcsr (s : State) (f : FnId) (data : Dword) (be : BitVec 4) : State :=
  let c := s.fn f
  let old := dword (PowerState.code c.power + bitField c.pmeEn 8)
  let v := merge old data be
  let clear := (data &&& beMask be).getLsbD 15
  let s1 := s.modFn f fun c => { c with pmeEn := v.getLsbD 8, pmeStatus := c.pmeStatus && !clear }
  s1.writePower f (powerOf (v.toNat % 4))

/-- R146: the writable bits of Device Control. -/
def devctlMask : BitVec 16 := 0x79FF

/-- R146, R186, R317: Device Control, with Initiate FLR in bit 15, and Device Status. -/
def State.writeDevctl (s : State) (f : FnId) (data : Dword) (be : BitVec 4) : State :=
  let c := s.fn f
  let v := (merge (c.devctl.setWidth 32) data be).extractLsb' 0 16
  let clear := (data &&& beMask be).extractLsb' 16 4
  let s1 := s.modFn f fun c => { c with devctl := v &&& devctlMask, devsta := c.devsta &&& ~~~clear }
  if v.getLsbD 15 then
    match hearthOfFn f with
    | some h => s1.flrHearth h
    | none => s1.flrGrate
  else s1

/-- R146: Device Control 2. -/
def State.writeDevctl2 (s : State) (f : FnId) (data : Dword) (be : BitVec 4) : State :=
  let c := s.fn f
  let v := merge (dword (bitField c.ltr 10 + bitField c.tenBit 12)) data be
  (s.writeTenBit f (v.getLsbD 12)).writeLtr f (v.getLsbD 10)

/-- R12, R13, R177 to R186: a configuration write takes effect; what R12 does not list is discarded. -/
def State.cfgWrite (s : State) (f : FnId) (off : Nat) (be : BitVec 4) (data : Dword) (bus : Byte) : State :=
  let s1 := s.modFn f fun c => { c with bus := bus }
  let ones := data &&& beMask be
  let grate : Bool := f.val = 0
  match off with
  | 0x04 => s1.writeCommand f data be
  | 0x10 => if grate then s1 else s1.writeBar f false data be
  | 0x14 => if grate then s1 else s1.writeBar f true data be
  | 0x18 => if grate then s1.writeBar f false data be else s1
  | 0x1C => if grate then s1.writeBar f true data be else s1
  | 0x44 => s1.writePmcsr f data be
  | 0x58 => s1.writeDevctl f data be
  | 0x78 => s1.writeDevctl2 f data be
  | 0x104 => s1.modFn f fun c => { c with uncSta := c.uncSta &&& ~~~ones }
  | 0x108 => s1.modFn f fun c => { c with uncMask := merge c.uncMask data be &&& uncWritable }
  | 0x10C => s1.modFn f fun c => { c with uncSev := merge c.uncSev data be &&& uncWritable }
  | 0x110 => s1.modFn f fun c => { c with corSta := c.corSta &&& ~~~ones }
  | 0x114 => s1.modFn f fun c => { c with corMask := merge c.corMask data be &&& corWritable }
  | 0x160 => if grate then s1.modFn f fun c => { c with laneErr := c.laneErr &&& ~~~ones.extractLsb' 0 16 } else s1
  | _ => s1

/-! ### Requests -/

/-- R153: a configuration request leaves its buffer when the configuration unit takes it: its credits return at once. -/
def State.passNp (s : State) (bytes : Nat) : State := { s with fc := (s.fc.take false bytes).giveBack false bytes }

/-- R159: the completion of a configuration request. -/
def State.cfgDone (s : State) (f : FnId) (tag : Nat) (v : Option Dword) : State :=
  match v with
  | some v => s.sendTlp { bareTlp .cplD f with
      tag := tag, len := 4, bytes := (leBytes v.toNat 4).zipIdx.map fun p => (p.2, p.1) }
  | none => s.sendTlp { bareTlp .cpl f with tag := tag }

/-- R159: a configuration write is taken and completed. -/
def State.takeCfgWrite (s : State) (f : FnId) (off : Nat) (be : BitVec 4) (data : Dword) (bus : Byte) (tag : Nat) : State :=
  (((s.passNp 4).cfgWrite f (off / 4 * 4) be data bus).cfgDone f tag none).woken

/-- R159, R251: a configuration read is taken and completed. -/
def State.takeCfgRead (s : State) (f : FnId) (off : Nat) (tag : Nat) : State :=
  let s1 := s.passNp 0
  let v := s1.cfgRead f (off / 4 * 4)
  ((s1.cfgDone f tag (some v)).afterRead f (off / 4 * 4) v).woken

/-- R156, R175: a configuration request to a function the mode does not expose is an Unsupported Request, recorded against
function 0; the commands of this chapter carry no header, so the log takes zeros (entry 75). -/
def State.cfgMiss (s : State) (bytes tag : Nat) : State :=
  (((s.passNp bytes).recordUnc 0 .ur true noHeader).sendTlp { bareTlp .cpl 0 with tag := tag, status := .ur }).woken

/-- CONFIG_WRITE (R12, R13, R156, R159, R175, R177 to R186). -/
def execConfigWrite (fn : FnId) (off : Fin 4096) (be : BitVec 4) (data : Dword) (bus : Byte) (tag : Nat) (s : State) :
    Host.Outcome State Fault Refusal :=
  if s.cfgReaches fn then .next (s.takeCfgWrite fn off.val be data bus tag)
  else if s.hostLinkUp then .next (s.cfgMiss 4 tag)
  else .next s

/-- The function and offset at which the slot-state dwords of position `p` are read (R191, R193, R251). -/
def State.sootPlace (s : State) (p : Fin 4) (half : Fin 2) : FnId × Nat :=
  if p = s.pos then (0, 0xBA0 + 4 * half.val) else (Fin.ofNat 65 (16 * p.val + 1), 0xAA8 + 4 * half.val)

/-- SOOT_REPORT_READ (R191, R251): the read returns eight slot-state codes and clears the slot-event sources whose recorded
code it returns. -/
def execSootReportRead (pos : Fin 4) (half : Fin 2) (tag : Nat) (s : State) : Host.Outcome State Fault Refusal :=
  let (f, off) := s.sootPlace pos half
  if s.cfgReaches f then .next (s.takeCfgRead f off tag)
  else if s.hostLinkUp then .next (s.cfgMiss 0 tag)
  else .next s

end Sys2Proof.Machine
end

