-- ==== Sys2Proof/Machine/HostTlp.lean ====
section
/-! DEFINITION. The host port's data link and transaction layer (R148 to R165, R169, R310): sending, replay, receiving, flow
control, completions and messages, with their commands. -/

namespace Sys2Proof.Machine

open Sys2Proof

/-- R148, R151: TLPs and DLLPs cross the host link. -/
def State.linkActive (s : State) : Bool := s.hostLinkUp && s.link.st = .l0 && !s.dll.retrain

/-! ### Sending -/

/-- R161 to R163: the lowest free tag, unless as many tags as the range has are in flight. -/
def State.nextTag (s : State) : Option Nat :=
  let (base, k) := s.tagRange
  if k ≤ s.tags.length then none else lowestFree (s.tags.map (·.tag)) base k

/-- R163: a read or a flush needs a tag. -/
def TxKind.needsTag : TxKind → Bool
  | .mrd => true
  | .flush => true
  | _ => false

/-- R148: bytes of a TLP: three header words, or four for a message or an address of 4 GiB and above, and the payload in
whole words. -/
def TxTlp.size (t : TxTlp) : Nat :=
  let msg : Bool := match t.kind with
    | .mwr => false | .mrd => false | .flush => false | .cpl => false | .cplD => false | _ => true
  let hdr := if msg || (TxKind.creditClass t.kind != .completion && decide (2 ^ 32 ≤ t.addr)) then 16 else 12
  hdr + (if t.kind = .mwr ∨ t.kind = .cplD then (t.addr % 4 + t.len + 3) / 4 * 4 else 0)

/-- R146, R157, R158: the header of a TLP the bridge sends. -/
structure TlpHeader where
  trafficClass : Nat
  relaxedOrdering : Bool
  noSnoop : Bool
  idOrdering : Bool
  digest : Bool
  bus : Byte
  device : Nat
  fn : FnId
  wide : Bool
  addr : Nat
  dwords : Nat
  firstBe : BitVec 4
  lastBe : BitVec 4
  deriving DecidableEq, Repr

/-- The byte enables of the dword at `a`. -/
def enables (t : TxTlp) (a : Nat) : BitVec 4 :=
  (List.range 4).foldl (fun b i => if t.bytes.any fun c => c.1 = a + i then b ||| BitVec.twoPow 4 i else b) 0

/-- R157, R158: traffic class 0, no ordering attribute and no digest, whatever Device Control holds; the ID has the bus number
last captured and device 0. An address of 4 GiB and above is a 64-bit one. A flush asks for no byte of the dword in which its
write begins. -/
def State.tlpHeader (s : State) (t : TxTlp) : TlpHeader :=
  let a := t.addr / 4 * 4
  let n := if t.kind = .flush then 1 else (t.addr % 4 + t.len + 3) / 4
  { trafficClass := 0, relaxedOrdering := false, noSnoop := false, idOrdering := false, digest := false,
    bus := (s.fn t.fn).bus, device := 0, fn := t.fn, wide := decide (2 ^ 32 ≤ t.addr), addr := a, dwords := n,
    firstBe := if t.kind = .flush then 0 else enables t a,
    lastBe := if t.kind = .flush ∨ n ≤ 1 then 0 else enables t (a + 4 * (n - 1)) }

/-- R148: the replay buffer has room. -/
def State.replayRoom (s : State) (t : TxTlp) : Bool :=
  decide (s.dll.replay.length < Config.replayTlps ∧ (s.dll.replay.map fun x => x.2.size).sum + t.size ≤ Config.replayBytes)

/-- R169, R226: the TLP has reached the port and may leave past those ahead of it. -/
def State.mayLeave (s : State) (ahead : List TxTlp) (t : TxTlp) : Bool :=
  let c := TxKind.creditClass t.kind
  (ahead.all fun u => TxKind.creditClass u.kind ≠ c ∧ (c = .posted ∨ TxKind.creditClass u.kind ≠ .posted)) &&
    s.reached t.readyAt && !t.awaitsRecord && s.creditOk t && (!TxKind.needsTag t.kind || s.nextTag.isSome)

/-- R169: the next TLP to send, the first that reached the port among those that may leave. -/
def State.pickTlp (s : State) : List TxTlp → List TxTlp → Option TxTlp
  | _, [] => none
  | ahead, t :: rest => if s.mayLeave ahead t then some t else s.pickTlp (ahead ++ [t]) rest

/-- R155: credits consumed. -/
def TxUsed.use (u : TxUsed) (t : TxTlp) : TxUsed :=
  match TxKind.creditClass t.kind with
  | .posted => { u with ph := u.ph + 1, pd := u.pd + BitVec.ofNat 16 t.dataCredits }
  | .nonPosted => { u with nph := u.nph + 1 }
  | .completion => { u with cplh := u.cplh + 1, cpld := u.cpld + BitVec.ofNat 16 t.dataCredits }

/-- R163: the tag of a read or flush that leaves. -/
def State.allocTag (s : State) (t : TxTlp) : State :=
  if TxKind.needsTag t.kind then
    match s.nextTag with
    | some k => { s with tags := s.tags ++ [{ tag := k, fn := t.fn, hearth := t.hearth, origin := t.origin,
                                              flush := t.kind = .flush, addr := t.addr, len := t.len, sent := s.now }] }
    | none => s
  else s

/-- R247: an MWr that has been sent is performed. -/
def State.sentWrite (s : State) (t : TxTlp) : State :=
  if t.kind = .mwr then
    match t.origin with
    | .posted n serial => s.endPosted n serial
    | .remotePosted q num => s.performedFrom q num
    | _ => s
  else s

/-- R148: a new TLP leaves with the next sequence number and is kept. -/
def State.sendNew (s : State) (t : TxTlp) : State :=
  let s1 := { s with
    txq := s.txq.filter fun u => u.id ≠ t.id
    link := { s.link with txL0s := false, l1Asked := false }
    dll := { s.dll with txSeq := s.dll.txSeq + 1, replay := s.dll.replay ++ [(s.dll.txSeq, t)] }
    fc := { s.fc with used := s.fc.used.use t } }
  (s1.allocTag t).sentWrite t

/-- TLP_TRANSMIT (R148, R155, R161, R163, R169): the next TLP of a replay, else the next TLP in transmit order. -/
def execTlpTransmit (s : State) : Host.Outcome State Fault Refusal :=
  if s.linkActive then
    match s.dll.resend with
    | _ :: rest => .next { s with dll := { s.dll with resend := rest }, link := { s.link with txL0s := false } }
    | [] =>
      match s.pickTlp [] s.txq with
      | some t => if s.replayRoom t then .next (s.sendNew t).woken else .next s
      | none => .next s
  else .next s

/-! ### Acknowledgement and replay -/

/-- Sequence number `x` is acknowledged by `ack`. -/
def ackedBy (ack x : BitVec 12) : Bool := decide ((ack - x).toNat < 2048)

/-- The AckNak_Seq_Num names a TLP not sent yet. -/
def State.badAck (s : State) (seq : BitVec 12) : Bool := decide (2048 ≤ (s.dll.txSeq - 1 - seq).toNat)

/-- R148, R149: acknowledged TLPs leave the replay buffer; progress clears REPLAY_NUM. -/
def State.purge (s : State) (ack : BitVec 12) : State :=
  let keep := fun (l : List (BitVec 12 × TxTlp)) => l.filter fun x => !ackedBy ack x.1
  let progress := s.dll.replay.any fun x => ackedBy ack x.1
  { s with dll := { s.dll with
      replay := keep s.dll.replay, resend := keep s.dll.resend, replayNum := if progress then 0 else s.dll.replayNum } }

/-- R138, R150: REPLAY_NUM counts a replay; its rollover retrains the link and is recorded. -/
def State.countReplay (s : State) : State :=
  let s1 := { s with dll := { s.dll with replayNum := s.dll.replayNum + 1 } }
  if s.dll.replayNum = 3 then s1.enterRecovery.linkCor .rollover else s1

/-- ACK_RECEIVED (R148, R310). -/
def execAckReceived (seq : BitVec 12) (s : State) : Host.Outcome State Fault Refusal :=
  if s.linkActive then
    .next (if s.badAck seq then s.linkUnc .dlp else s.purge seq).woken
  else .next s

/-- NAK_RECEIVED (R149): the rest is replayed in order, from the start when a replay was under way. -/
def execNakReceived (seq : BitVec 12) (s : State) : Host.Outcome State Fault Refusal :=
  if s.linkActive then
    if s.badAck seq then .next (s.linkUnc .dlp).woken
    else
      let s1 := s.purge seq
      if s1.dll.replay.isEmpty then .next s1.woken
      else .next ({ s1 with dll := { s1.dll with resend := s1.dll.replay } }.countReplay).woken
  else .next s

/-- REPLAY_TIMER_EXPIRY (R150, R310): one replay of everything unacknowledged, after any replay under way. -/
def execReplayTimerExpiry (s : State) : Host.Outcome State Fault Refusal :=
  if s.linkActive ∧ !s.dll.replay.isEmpty then
    let s1 := s.linkCor .replayTimer
    .next ({ s1 with dll := { s1.dll with resend := s1.dll.resend ++ s1.dll.replay } }.countReplay).woken
  else .next s

/-! ### Completions for the bridge's reads -/

/-- R165, R172: a tag is free. -/
def State.freeTag (s : State) (t : HostTag) : State := { s with tags := s.tags.filter fun x => x.tag ≠ t.tag }

/-- R313: what the Status register shows of a completion. -/
def State.cplStatusBits (s : State) (f : FnId) (status : CplStatus) : State :=
  match status with
  | .ur => s.setStatus f 13
  | .ca => s.setStatus f 12
  | _ => s

/-- R156, R160, R163, R165, R269, R310: a completion from the host; one whose hearth cycle has ended releases its tag and no more. Data
beyond Max_Payload_Size make it malformed, and its tag waits on. Data begin at the first byte requested. -/
def State.takeCpl (s : State) (tag : Nat) (status : CplStatus) (poisoned : Bool) (data : List Byte) (fn : Nat)
    (hdr : Vector Dword 4) : State :=
  match s.tags.find? fun t => t.tag = tag with
  | none => s.recordUnc (if s.exposed fn then Fin.ofNat 65 fn else 0) .unexpectedCpl true hdr
  | some t =>
    if (s.fn t.fn).mps < data.length then s.recordUnc t.fn .malformed false hdr
    else if !s.awaited t.origin then (s.freeTag t).landWaiting
    else if poisoned then
      let s1 := s.recordUnc t.fn .poisoned false hdr
      let s2 := if (s1.fn t.fn).perr then s1.setStatus t.fn 8 else s1
      ((s2.freeTag t).hostReply t.origin tag [] .ca).landWaiting
    else
      let got := data.zipIdx.map fun p => (t.addr + p.2, p.1)
      (((s.cplStatusBits t.fn status).freeTag t).hostReply t.origin tag got status).landWaiting

/-- COMPLETION_RECEIVED (R156, R165, R310, R313). -/
def execCompletionReceived (tag : Nat) (status : CplStatus) (poisoned : Bool) (data : List Byte) (fn : Nat)
    (hdr : Vector Dword 4) (s : State) : Host.Outcome State Fault Refusal :=
  if s.hostLinkUp then .next (s.takeCpl tag status poisoned data fn hdr).woken else .next s

/-- COMPLETION_TIMEOUT (R163, R164): 1,000,000 ticks after the MRd was sent. -/
def execCompletionTimeout (tag : Nat) (s : State) : Host.Outcome State Fault Refusal :=
  match s.tags.find? fun t => t.tag = tag with
  | none => .next s
  | some t =>
    if s.running then
      let s1 := s.advanceTo (tickPlus t.sent Config.completionTimeout)
      .next ((((s1.recordUnc t.fn .cplTimeout false noHeader).freeTag t).endWork t.origin [] .ca).landWaiting).woken
    else .next s

/-! ### Messages -/

/-- R153: a posted TLP that needs no unit leaves its buffer at once. -/
def State.passPosted (s : State) (bytes : Nat) : State := { s with fc := (s.fc.take true bytes).giveBack true bytes }

/-- R106, R156: PME_TO_Ack is a message of the bridge's own; the item carries the header received and the header sent. -/
def State.pmeTurnOff (s : State) : State := (s.passPosted 0).presentMessage .pmeToAck 0 [] (Config.costHeader + Config.costHeader)

/-- PME_TURN_OFF (R23, R156): answered with PME_TO_Ack, in M7 too. -/
def execPmeTurnOff (s : State) : Host.Outcome State Fault Refusal :=
  if s.hostLinkUp then .next s.pmeTurnOff else .next s

/-- SET_SLOT_POWER_LIMIT (R156): no field changes; the message's credits return. -/
def execSetSlotPowerLimit (_value : Byte) (s : State) : Host.Outcome State Fault Refusal :=
  if s.hostLinkUp then .next (s.passPosted 4).woken else .next s

/-- VENDOR_DEFINED_TYPE1 (R156): discarded silently; its credits return. -/
def execVendorDefinedType1 (s : State) : Host.Outcome State Fault Refusal :=
  if s.hostLinkUp then .next (s.passPosted 0).woken else .next s

/-! ### Receiving -/

/-- The class of a received TLP: posted or non-posted; `none` is a completion. -/
def TlpKind.posted : TlpKind → Option Bool
  | .mWr => some true
  | .pmeTurnOff => some true
  | .setSlotPowerLimit => some true
  | .vendor0 => some true
  | .vendor1 => some true
  | .otherMsg => some true
  | .cpl => none
  | .cplD => none
  | _ => some false

/-- R310: the TLP exceeds the advertised credits. -/
def State.overflows (s : State) (t : Tlp) : Bool :=
  let a := RxCounts.initial
  match TlpKind.posted t.kind with
  | some true => decide (a.ph ≤ s.fc.taken.ph ∨ a.pd < s.fc.taken.pd + dataUnits t.data.length)
  | some false => decide (a.nph ≤ s.fc.taken.nph ∨ a.npd < s.fc.taken.npd + dataUnits t.data.length)
  | none => false

/-- A BAR of function `f` holds address `a`. -/
def State.barHit (s : State) (a : Nat) (f : FnId) : Bool :=
  s.exposed f.val && decide (s.barValue f ≤ a ∧ a < s.barValue f + 2 ^ s.barBits f)

/-- R317, R319: the BAR of function `f` held address `a` when its FLR began. -/
def State.flrHit (s : State) (a : Nat) (f : FnId) : Bool :=
  let base := (s.fn f).flrBar.toNat / 2 ^ s.barBits f * 2 ^ s.barBits f
  s.exposed f.val && (s.fn f).flr.isSome && decide (base ≤ a ∧ a < base + 2 ^ s.barBits f)

/-- R156, R179, R317: the function whose BAR a memory request decodes to; one with Memory Space Enable 1 comes first, then one
whose FLR is under way. -/
def State.memTarget (s : State) (a : Nat) : Option FnId :=
  match allFns.find? fun f => (s.fn f).mse && s.barHit a f with
  | some f => some f
  | none =>
    match allFns.find? fun f => s.flrHit a f with
    | some f => some f
    | none => allFns.find? fun f => s.barHit a f

/-- R310: the addressed function of a TLP, function 0 when none. -/
def State.addressed (s : State) (t : Tlp) : FnId :=
  match t.kind with
  | .mRd => (s.memTarget t.addr).getD 0
  | .mWr => (s.memTarget t.addr).getD 0
  | .cfgRd0 => if s.exposed t.fn then Fin.ofNat 65 t.fn else 0
  | .cfgWr0 => if s.exposed t.fn then Fin.ofNat 65 t.fn else 0
  | .cpl => if s.exposed t.fn then Fin.ofNat 65 t.fn else 0
  | .cplD => if s.exposed t.fn then Fin.ofNat 65 t.fn else 0
  | _ => 0

/-- The TLP leaves its buffer at once. -/
def State.pass (s : State) (t : Tlp) : State :=
  match TlpKind.posted t.kind with
  | some true => s.passPosted t.data.length
  | some false => s.passNp t.data.length
  | none => s

/-- R156: an Unsupported Request, with a completion when the TLP is non-posted. -/
def State.unsupported (s : State) (t : Tlp) : State :=
  let f := s.addressed t
  let np : Bool := TlpKind.posted t.kind = some false
  let s1 := (s.pass t).recordUnc f .ur np t.hdr
  if np then s1.sendTlp { bareTlp .cpl f with tag := t.tag, status := .ur } else s1

/-- A memory request as its BAR sees it. -/
def memReq (t : Tlp) (off : Nat) : MemReq :=
  { off := off, len := t.len, be := t.be, data := t.data, tag := t.tag, poisoned := t.poisoned, hdr := t.hdr }

/-- R156, R221, R261: a memory request goes to the BAR it decodes to. -/
def State.takeMem (s : State) (t : Tlp) (read : Bool) : State :=
  match s.memTarget t.addr with
  | none => s.unsupported t
  | some f =>
    let q := memReq t (t.addr - s.barValue f)
    match hearthOfFn f with
    | some h => s.bar0 h read q
    | none => s.bar2 read q

/-- The byte enables of a configuration write. -/
def beBits (l : List Bool) : BitVec 4 := (List.range 4).foldl (fun b i => if l.getD i true then b ||| BitVec.twoPow 4 i else b) 0

/-- A dword from the first four bytes of a payload. -/
def dataDword (l : List Byte) : Dword := dwordOf fun i => (l.getD i 0).toNat

/-- R156: a good TLP is handled by type. -/
def State.takeTlp (s : State) (t : Tlp) : State :=
  if t.tlpPrefix then s.unsupported t
  else
    match t.kind with
    | .cfgRd0 => if s.exposed t.fn then s.takeCfgRead (Fin.ofNat 65 t.fn) (t.addr % 4096) t.tag else s.unsupported t
    | .cfgWr0 =>
      if s.exposed t.fn then
        s.takeCfgWrite (Fin.ofNat 65 t.fn) (t.addr % 4096) (beBits t.be) (dataDword t.data) t.bus t.tag
      else s.unsupported t
    | .mRd => s.takeMem t true
    | .mWr => s.takeMem t false
    | .cpl => s.takeCpl t.tag t.status t.poisoned [] t.fn t.hdr
    | .cplD => s.takeCpl t.tag t.status t.poisoned t.data t.fn t.hdr
    | .pmeTurnOff => s.pmeTurnOff
    | .setSlotPowerLimit => s.passPosted t.data.length
    | .vendor1 => s.passPosted t.data.length
    | _ => s.unsupported t

/-- R160, R310: a TLP the bridge has accepted: overflow and malformed TLPs are discarded. -/
def State.acceptTlp (s : State) (t : Tlp) : State :=
  if s.overflows t then s.linkUnc .rxOverflow
  else if t.malformed || decide ((s.fn (s.addressed t)).mps < t.data.length) then
    (s.pass t).recordUnc (s.addressed t) .malformed false t.hdr
  else s.takeTlp t

/-- R128: a DLLP to send ends L0s of the transmit direction. -/
def State.leaveTxL0s (s : State) : State := { s with link := { s.link with txL0s := false } }

/-- TLP_RECEIVED (R128, R151, R156, R160, R310): a bad LCRC or sequence number gives a NAK and Bad TLP, a duplicate an ACK. -/
def execTlpReceived (seq : BitVec 12) (lcrcOk : Bool) (tlp : Tlp) (s : State) : Host.Outcome State Fault Refusal :=
  if s.linkActive then
    if lcrcOk ∧ seq = s.dll.rxSeq then
      .next ({ s.leaveTxL0s with dll := { s.dll with rxSeq := s.dll.rxSeq + 1, ackDue := true, nakDue := false } }.acceptTlp tlp).woken
    else if lcrcOk ∧ (s.dll.rxSeq - seq).toNat ≤ 2048 then
      .next { s.leaveTxL0s with dll := { s.dll with ackDue := true } }.woken
    else .next ({ s.leaveTxL0s with dll := { s.dll with nakDue := true } }.linkCor .badTlp).woken
  else .next s

/-- DLLP_CRC_ERROR (R310): discarded, and Bad DLLP is recorded. -/
def execDllpCrcError (s : State) : Host.Outcome State Fault Refusal :=
  if s.linkActive then .next (s.linkCor .badDllp).woken else .next s

/-! ### Flow control -/

/-- R154: an UpdateFC carries the cumulative count of its type. -/
def Fc.report (fc : Fc) (ty : RxCredit) : Fc :=
  match ty with
  | .ph => { fc with sent := { fc.sent with ph := fc.alloc.ph } }
  | .pd => { fc with sent := { fc.sent with pd := fc.alloc.pd } }
  | .nph => { fc with sent := { fc.sent with nph := fc.alloc.nph } }
  | .npd => { fc with sent := { fc.sent with npd := fc.alloc.npd } }

/-- UPDATEFC_SEND (R154): for one type, within 32 ticks of a rise. -/
def execUpdatefcSend (ty : RxCredit) (s : State) : Host.Outcome State Fault Refusal :=
  if s.linkActive then .next { s with fc := s.fc.report ty, link := { s.link with txL0s := false } } else .next s

/-- UPDATEFC_PERIODIC (R154): for the four types, 3,000 ticks after the last time. -/
def execUpdatefcPeriodic (s : State) : Host.Outcome State Fault Refusal :=
  if s.linkActive then
    let s1 := s.advanceTo (tickPlus s.link.fcTick Config.fcPeriod)
    .next { s1 with fc := { s1.fc with sent := s1.fc.alloc }, link := { s1.link with fcTick := s1.now, txL0s := false } }
  else .next s

/-- R155: the limits of one class after an UpdateFC; an infinite limit stands. -/
def raiseLimits (l : TxLimits) (cls : CreditClass) (hdr : Byte) (dat : BitVec 12) : TxLimits :=
  match cls with
  | .posted => { l with ph := l.ph.map fun _ => hdr, pd := l.pd.map fun _ => dat }
  | .nonPosted => { l with nph := l.nph.map fun _ => hdr, npd := l.npd.map fun _ => dat }
  | .completion => { l with cplh := l.cplh.map fun _ => hdr, cpld := l.cpld.map fun _ => dat }

/-- R310: a nonzero count for credits advertised as infinite is a Flow Control Protocol Error. -/
def fcViolates (l : TxLimits) (cls : CreditClass) (hdr : Byte) (dat : BitVec 12) : Bool :=
  match cls with
  | .posted => (l.ph.isNone && hdr != 0) || (l.pd.isNone && dat != 0)
  | .nonPosted => (l.nph.isNone && hdr != 0) || (l.npd.isNone && dat != 0)
  | .completion => (l.cplh.isNone && hdr != 0) || (l.cpld.isNone && dat != 0)

/-- UPDATEFC_RECEIVED (R155, R310). -/
def execUpdatefcReceived (cls : CreditClass) (hdr : Byte) (dat : BitVec 12) (s : State) : Host.Outcome State Fault Refusal :=
  if s.linkActive then
    if fcViolates s.fc.limits cls hdr dat then .next (s.linkUnc .fcp).woken
    else .next { s with fc := { s.fc with limits := raiseLimits s.fc.limits cls hdr dat } }.woken
  else .next s

end Sys2Proof.Machine
end

