-- ==== Sys2Proof/Machine/Resets.lean ====
section
/-! DEFINITION. Leaving service and starting over: the PERST_N reset (R83 to R86, R315), T_S (R87), the supply-valid event
(R78, R84), loss of a supply (R80), the aux-only state (R81), and their commands. -/

namespace Sys2Proof.Machine

open Sys2Proof

/-! ### Every unit leaves service -/

/-- R86, R95, R96, R101: a domain when every unit leaves service. D156 to D158, the ledger D159 and the strap reader D161
stand; every other domain that is ON or waking goes down through GOING_DOWN, a bank to RETAINED (DESIGN CHOICE, entry 76:
R86 names no domain state). -/
def DomState.leave (now : Tally) (d : DomainId) (x : DomState) : DomState :=
  if (156 ≤ d.val ∧ d.val < 160) ∨ d.val = 161 then x else x.fall now

/-- R302: a flue end out of service; its counters stand until T_S, its last advertisement for R296 and R297. -/
def Flue.leave (x : Flue) : Flue :=
  { x with st := .disabled, everActive := false, farXoff := 0, xoff := 0, tags := [], out := [] }

/-- R299: chimney traffic given up. What position 0 holds of its members stands, no longer current (R193), and so do the
counts that tell a repeated FUNC block apart (R306). -/
def Chimney.leave (c : Chimney) : Chimney :=
  { Chimney.reset with
    copies := vmap (fun _ (r : ReportCopy) => { r with pass := none, current := false }) c.copies
    memberFlrs := c.memberFlrs
    funcs := vmap (fun _ (m : FuncMsg) => { m with bme := false, mse := false, d0 := true }) c.funcs }

/-- R12, R317, R324: an FLR under way is given up. -/
def FnCfg.noFlr (c : FnCfg) : FnCfg := { c with flr := none }

/-- R135: a lane whose domain is OFF keeps its last values. -/
def Lane.leave (x : Lane) : Lane := { x.noTargets with st := .off }

/-- R328, R334: a test lane out of service; its results stand until T_S. -/
def TestLane.leave (t : TestLane) : TestLane :=
  { t with since := none, checker := .off, reg := [], matched := 0, skip := 0, inWindow := 0, wrong := 0, taken := 0, holds := [] }

/-- R267: locked writes to the hearthstone that have been captured and not yet performed. -/
def State.lockedStores (s : State) : List Piece :=
  let mine := fun (p : Piece) => p.kind = .lockedWrite && p.dst.val = 19
  (s.items.admitted.filterMap fun it => match it.work with
      | .piece p => if mine p then some p else none
      | _ => none)
    ++ s.sw.q.toList.flatMap (fun l => l.filter mine)
    ++ s.banks.toList.flatMap (fun b => b.slots.toList.filterMap fun o => match o with
        | some x => if mine x.piece then some x.piece else none
        | none => none)

/-- R86, R267: the locks end with every unit, and what they have captured for the hearthstone is performed whole. -/
def State.finishLocked (s : State) : State :=
  { s with stone := s.lockedStores.foldl (fun m p => stoneWriteAll m p.bytes) s.stone }

/-- R86, R88, R112, R115, R131, R252, R267, R278, R297: every hearth and every other unit leaves service in one tick; an abandoned
clear leaves its mark set; the hearthstone, the mode, the straps, the last taps and the sticky fields stand. -/
def State.leaveAll (s0 : State) : State :=
  let s := s0.saveTaps.finishLocked
  { s with
    wake := false
    upNow := []
    clk := { s.clk with live := false }
    island := { s.island with clearFrom := none }
    straps := { s.straps with seq := none, seqDone := false, resampleQ := [], asked := none, paid := none, job := none }
    slotPower := false
    gate := false
    prot := { inService := false, overlap := false, badStrap := false, pairLo := 0, pairHi := 0 }
    doms := vmap (DomState.leave s.now) s.doms
    ledger := { s.ledger with st := .closed, low := false, refillDue := false, ltrAsked := false, ltrPending := false }
    items := Items.reset
    link := { HostLink.reset with kept := s.link.kept }
    dll := Dll.reset
    fc := Fc.reset
    txq := []
    reqs := []
    tags := []
    fns := vmap (fun (_ : FnId) c => FnCfg.noFlr c) s.fns
    hearths := vmap (fun (_ : HearthId) h => Hearth.park h) s.hearths
    sw := Switch.reset
    banks := Vector.replicate 16 Bank.reset
    lockEnds := []
    xtags := []
    sampler := { s.sampler with queue := [], taken := false }
    irq := Irq.reset
    flueA := s.flueA.leave
    flueB := s.flueB.leave
    chim := s.chim.leave
    lanes := vmap (fun (_ : LaneId) x => Lane.leave x) s.lanes
    tests := vmap (fun (_ : LaneId) (t : TestLane) => t.leave) s.tests
    faultPrev := false }

/-! ### T_S -/

/-- R305, R306, R315: counts of a flue end start over at T_S. -/
def Flue.atTS (x : Flue) : Flue := { Flue.reset with far := x.far }

/-- R144: the counts of the Bellows Report are cleared at T_S. -/
def Lane.atTS (x : Lane) : Lane := { x with moves := 0, deferred := 0 }

/-- R87, R315: D159 and D161 power on without charge at T_S, and with them D158, which holds the sticky fields, unless the mode in
force has no function and so has lost them. -/
def State.domsOn (s : State) : Vector DomState 162 :=
  let d := if s.strapMode.exposes ∧ s.dom 158 = .off then s.doms.set 158 (.on s.clk.tally) else s.doms
  (d.set 159 (.on s.clk.tally)).set 161 (.on s.clk.tally)

/-- R10, R63, R87, R115, R192, R269, R299, R305, R306, R315, R334: this tick is T_S. The sequence begins
at group 0, the non-sticky function state takes its reset values and the counts of the reports are cleared; the periods of REPORT
passes and FUNC repeats count from here. -/
def State.startTS (s : State) : State :=
  { s with
    clk := { s.clk with tS := s.clk.tally, live := true }
    straps := { s.straps with seq := some 0, seqDone := false, checked := false, free := s.clk.tally }
    cfg := { s.cfg with fluesOk := false }
    doms := s.domsOn
    chim := { s.chim with reportTick := s.clk.tally, funcTick := s.clk.tally }
    ledger := Ledger.reset
    fns := vmap (fun (_ : FnId) (c : FnCfg) => { c.functionReset with flr := none, bus := 0 }) s.fns
    sampler := Sampler.reset
    soot := Soot.reset
    flueA := s.flueA.atTS
    flueB := s.flueB.atTS
    lanes := vmap (fun (_ : LaneId) x => Lane.atTS x) s.lanes
    tapMoves := 0
    tests := Vector.replicate 32 TestLane.reset
    testSeen := false }

/-- R81, R83, R87: PERST_N is filtered high: WAKE_N is released and this tick is T_S. -/
def State.perstHigh (s : State) : State :=
  ({ s with island := { s.island with perstLow := false, wakeLow := false } }).startTS

/-- PERST_ASSERTION (R83, R86, R324): the 16th consecutive low tick. -/
def execPerstAssertion (held : Nat) (s : State) : Host.Outcome State Fault Refusal :=
  if s.running ∧ Config.perstFilter ≤ held ∧ !s.island.perstLow then
    let s1 := s.leaveAll
    .next { s1 with island := { s1.island with perstLow := true } }
  else .next s

/-- PERST_DEASSERTION (R83, R87): the 16th consecutive high tick is T_S. -/
def execPerstDeassertion (held : Nat) (s : State) : Host.Outcome State Fault Refusal :=
  if s.running ∧ Config.perstFilter ≤ held ∧ s.island.perstLow then .next s.perstHigh else .next s

/-! ### Supplies -/

/-- R46, R80: what the always-on island keeps of a slot while the rest of the bridge has no supply: the levels and the
counts of its three inputs. -/
def Hearth.coldKept (h : Hearth) : Hearth :=
  { Hearth.reset with presBall := h.presBall, presLow := h.presLow, pgoodBall := h.pgoodBall, pgood := h.pgood }

/-- R80: everything outside the always-on island is lost; the tally holds at 0. -/
def State.cold (s : State) : State :=
  { State.reset with
    pending := s.pending
    nextId := s.nextId
    clk := { State.reset.clk with counting := false, live := false }
    island := { s.island with clearMark := true, clearFrom := none, perstLow := false }
    straps := { State.reset.straps with seq := none }
    doms := Vector.replicate 162 .off
    hearths := vmap (fun (_ : HearthId) h => h.coldKept) s.hearths
    tap := s.tap }

/-- R76, R80: one of the six supplies goes from valid to invalid between `i` and `j`. -/
def Island.falls (i j : Island) : Bool :=
  (i.vcore && !j.vcore) || (i.vphy && !j.vphy) || (i.vphyh && !j.vphyh) || (i.vflue && !j.vflue) || (i.vaux && !j.vaux) ||
    (i.vstrap && !j.vstrap)

/-- R81: the island loses what it keeps, and its TAP with it. -/
def State.loseAux (s : State) : State :=
  { s with
    island := { s.island with haux := none, wakeLow := false }
    hearths := Vector.replicate 16 Hearth.reset
    tap := Tap.reset }

/-- R76, R80, R81: the island senses its supplies as `i`. When one of them becomes invalid, all state outside the island is
lost; without VAUX the island loses its own. VAUX becoming valid finds no S_HAUX code. -/
def State.senseAll (s : State) (i : Island) : State :=
  let s1 := { s with island := { i with haux := if s.island.vaux then i.haux else none } }
  if s.island.falls i then (if s.island.vaux ∧ !i.vaux then s1.cold.loseAux else s1.cold) else s1

/-- R79: a clock that began to toggle in period `a` goes before one that began in `b`. -/
def sooner (a b : Option Nat) : Bool :=
  match a, b with
  | some x, some y => decide (x ≤ y)
  | some _, none => true
  | none, _ => false

/-- R79: the clock that began to toggle first; REFCLK, Flue A, Flue B in one period. -/
def Toggles.first (t : Toggles) : Option ClockSource :=
  if sooner t.refclk t.flueA ∧ sooner t.refclk t.flueB then some .refclk
  else if sooner t.flueA t.flueB then some .flueA
  else if t.flueB.isSome then some .flueB
  else none

/-- The bridge at tally 0, with its clock. -/
def State.begin (s : State) (clock : ClockSource) (t : Toggles) (perstLow : Bool) : State :=
  let s1 := s.cold
  { s1 with
    clk := { s1.clk with counting := true, source := clock, toggleA := t.flueA.isSome, toggleB := t.flueB.isSome }
    island := { s1.island with perstLow := perstLow } }

/-- R83, R84: one more period of the filter: the filtered level, and the periods the ball has differed from it. -/
def perstStep (x : Bool × Nat) (low : Bool) : Bool × Nat :=
  if low = x.1 then (x.1, 0) else if x.2 + 1 = Config.perstFilter then (low, 0) else (x.1, x.2 + 1)

/-- R84: PERST_N as filtered at the 1,000th period counted: the filter starts at the level of the first one. -/
def perstAtZero (perst : List Bool) : Bool :=
  match perst.take Config.startPeriods with
  | [] => false
  | x :: rest => (rest.foldl perstStep (x, 0)).1

/-- SUPPLY_VALID_EVENT (R76, R78, R79, R83, R84, R88): the 1,000th consecutive period with all six supplies valid, of the first clock
to toggle, is tally 0. It is T_S when PERST_N is filtered high there; otherwise the sequence is abandoned in the same tick. -/
def execSupplyValidEvent (volts : Volts) (toggles : Toggles) (perst : List Bool) (s : State) :
    Host.Outcome State Fault Refusal :=
  let s1 := s.senseAll (s.island.sense volts)
  let perstLow := perstAtZero perst
  match Toggles.first toggles with
  | some clock =>
    if !s1.clk.counting ∧ s1.island.supplies ∧ Config.startPeriods ≤ toggles.periods then
      let s2 := s1.begin clock toggles perstLow
      if perstLow then .next { s2 with doms := s2.doms.set 159 (.on 0) } else .next s2.startTS
    else .next s1
  | none => .next s1

/-- SUPPLY_INVALID (R76, R80, R81). -/
def execSupplyInvalid (volts : Volts) (s : State) : Host.Outcome State Fault Refusal :=
  .next (s.senseAll (s.island.sense volts))

/-- VAUX_VALID (R76, R81): VAUX is past its rising threshold. -/
def execVauxValid (s : State) : Host.Outcome State Fault Refusal := .next (s.senseAll { s.island with vaux := true })

/-- R81: the kept S_HAUX code lets a slot change drive WAKE_N. -/
def Island.auxWakes (i : Island) : Bool := i.haux = some 1 || i.haux = some 15

/-- R81: the change is one that can drive WAKE_N low: a change of level of HnPRES_N, or a press. -/
def Hearth.auxChange (h : Hearth) : SlotInput → Bool
  | .presence low => low != h.presBall
  | .press => true

/-- AUX_ONLY_WAKE (R76, R81): while VAUX is valid and another supply is not. -/
def execAuxOnlyWake (volts : Volts) (change : SlotChange) (s0 : State) : Host.Outcome State Fault Refusal :=
  let s := s0.senseAll (s0.island.sense volts)
  let wakes := s.island.vaux && !s.island.supplies && s.island.auxWakes && (s.hearth change.n).auxChange change.what
  let s1 := match change.what with
    | .presence low => s.modHearth change.n fun h => { h with presBall := low }
    | .press => s
  .next { s1 with island := { s1.island with wakeLow := s1.island.wakeLow || wakes } }

end Sys2Proof.Machine
end

