-- ==== Sys2Proof/Machine/FlueLink.lean ====
section
/-! DEFINITION. Flue links (R291, R298, R302, R303), paths as they come and go (R250, R267, R301, R304, R309), end-to-end
delivery (R299, R300), clocks over the flues (R295 to R297), reports and function state (R305, R306, R312, R320), with
their commands. -/

namespace Sys2Proof.Machine

open Sys2Proof

/-! ### Parts -/

def bothFlues : List FlueId := [.a, .b]

/-- R96: the domains of a flue end: transmit lanes, receive lanes, clock out, clock in. -/
def flueDoms (f : FlueId) : List DomainId :=
  (List.range 18).map fun i => domOf ((match f with | .a => 32 | .b => 50) + i)

/-- R135: the bellows lanes of a flue. -/
def flueLanes (f : FlueId) : List LaneId :=
  (List.range 8).map fun i => Fin.ofNat 32 ((match f with | .a => 16 | .b => 24) + i)

/-- The other positions of the chimney. -/
def State.others (s : State) : List (Fin 4) := allPos.filter fun q => q ≠ s.pos && decide (q.val < s.cfg.csize)

/-- A flue end in service: the ring exists and the link is not DISABLED. -/
def State.flueUp (s : State) (f : FlueId) : Bool := s.running && s.chimney && (s.flue f).st != .disabled

/-- R302: blocks are taken on an ACTIVE end. -/
def State.flueActive (s : State) (f : FlueId) : Bool := s.flueUp f && (s.flue f).st = .active

/-! ### Paths -/

/-- R250, R304: the path to position `q` by flue `f` carries traffic. -/
def State.carries (s : State) (q : Fin 4) (f : FlueId) : Bool := s.gate && s.pathUsable q f

/-- R193, R304, R305: a path to position `q` exists. -/
def State.reaches (s : State) (q : Fin 4) : Bool := s.gate && (s.freshPath q).isSome

/-- R250: the sources of hearth `n` that are low and routed to a sink at position `q`. -/
def State.levelsOf (s : State) (q : Fin 4) (n : HearthId) : List LevelEntry :=
  let h := s.hearth n
  if h.slot.sources then
    (List.finRange 8).filterMap fun i =>
      let far : Bool := match vget h.cfg.irq i with
        | .remote p _ => p = q
        | .inta _ => s.mode = .m3 && q.val = 0
        | _ => false
      if h.irqLow.getLsbD i.val ∧ far then some { hearth := n, input := inputOf i, entry := vget h.cfg.entries i } else none
  else []

/-- R250: the current levels toward position `q` leave over flue `f`. -/
def State.sendLevels (s : State) (q : Fin 4) (f : FlueId) : State :=
  s.emit f (.levels s.pos q (allHearths.flatMap fun n => s.levelsOf q n))

/-- R305: the REPORT blocks of one report, and of the four. -/
def reportBlocks (r : Fin 4) : Nat := (reportLen r / 4 + 13) / 14
def passBlocks : Nat := reportBlocks 0 + reportBlocks 1 + reportBlocks 2 + reportBlocks 3

/-- R305: the dwords of one REPORT block. -/
def State.reportPart (s : State) (r : Fin 4) (k : Nat) : FlueBlk :=
  .report r.val (14 * k) ((List.range 14).map fun i => s.reportDword r (4 * (14 * k + i)))

/-- R305: a full pass of the four reports. -/
def State.reportPass (s : State) : List FlueBlk :=
  ([0, 1, 2, 3] : List (Fin 4)).flatMap fun r => (List.range (reportBlocks r)).map fun k => s.reportPart r k

/-- R305, R309: a member sends its reports to position 0 over flue `f`. -/
def State.sendReports (s : State) (f : FlueId) : State :=
  let blks := s.reportPass
  { s.modFlue f (fun x => { x with out := x.out ++ blks }) with chim := { s.chim with reportTick := s.now } }

/-- R250, R300, R309: a path that comes into use. -/
def State.pathBegins (s : State) (q : Fin 4) (f : FlueId) : State :=
  let s1 := (s.sendLevels q f).receipt q
  if s.mode = .m3 ∧ q.val = 0 then s1.sendReports f else s1

/-- R193, R267: position `q` is out of reach: its copies are no longer current, and locks held from here there, and from there
here, are released. -/
def State.pathLost (s : State) (q : Fin 4) : State :=
  let s1 := { s with chim := { s.chim with copies := vmod s.chim.copies q fun c => { c with pass := none, current := false } } }
  let s2 := forHearths
    (fun n s => match (s.hearth n).lock with
      | some l => (match l.scope with
        | .bus p _ => if p = q then s.endLock n false else s
        | .word _ => s)
      | none => s) s1
  forHearths
    (fun n s => match (s.hearth n).farLock with
      | some l => if l.pos = q then s.endFarLock n false else s
      | none => s) s2

/-- R301: pieces whose path changed, or came back, are sent again. -/
def State.repath (old s : State) : State :=
  forList (s.others.flatMap fun q => allCls.map fun c => (q, c))
    (fun x s =>
      if s.chim.store.any (fun e => e.dst = x.1 ∧ e.piece.cls = x.2) ∧ (s.pathFor x.1 x.2).isSome ∧
          (!old.gate ∨ old.pathFor x.1 x.2 ≠ s.pathFor x.1 x.2) then s.resend x.1 x.2
      else s) s

/-- R193, R250, R267, R300, R301, R308, R309: what follows when the links, or what is known of them, change from `old`. Control blocks
that waited for a path leave as soon as there is one. -/
def State.linksChanged (old s : State) : State :=
  let s1 := forList (s.others.flatMap fun q => bothFlues.map fun f => (q, f))
    (fun x s => if s.carries x.1 x.2 ∧ !old.carries x.1 x.2 then s.pathBegins x.1 x.2 else s) s
  let s2 := forList s.others
    (fun q s => if old.reaches q ∧ !s.reaches q then s.pathLost q else s) s1
  (State.repath old s2).payOwed.issueWaiting.woken

/-! ### Events of a link -/

/-- R303, R311: a flue event: its cause and tick stand, the count rises, and causes 1 to 7 are recorded. -/
def State.flueEvent (s : State) (f : FlueId) (cause : Nat) : State :=
  let s1 := s.modFlue f fun x => { x with cause := cause, eventTick := s.now }
  let s2 := { s1 with soot := { s1.soot with flueEvents := satInc 0xFFFF s1.soot.flueEvents } }
  if cause = 8 then s2 else s2.logEvent 0

/-- R299: transit pieces bound for a link that drops are discarded. -/
def State.dropTransit (s : State) (f : FlueId) : State :=
  s.removePieces fun p => p.dst = fluePort f && p.srcPos ≠ s.pos

/-- R138, R302: the lanes of a link that drops acquire again. -/
def State.reacquire (s : State) (f : FlueId) : State :=
  forList (flueLanes f) (fun l s =>
    if (s.dom (laneDom l)).isOn then s.modLane l fun x => { x.noTargets with st := .acquiring } else s) s

/-- R302, R303: an ACTIVE end drops. -/
def State.dropLink (s : State) (f : FlueId) (cause : Nat) : State :=
  let s1 := s.modFlue f fun x => { x with st := .down, dropTick := s.now, retrains := satInc 0xFFFF x.retrains }
  State.linksChanged s (((s1.flueEvent f cause).dropTransit f).reacquire f)

/-- R303: the cause of a block that is a link error. -/
def faultCause : BlockFault → Nat
  | .parity _ => 1
  | .frameBits => 2
  | .badType => 6
  | .reserved => 6

/-- R191: parity errors are counted, with their lane. -/
def State.countParity (s : State) (f : FlueId) (e : BlockFault) : State :=
  match e with
  | .parity l => s.modFlue f fun x => { x with parity := satInc 0xFFFFFFFF x.parity, errLane := l.val }
  | _ => s

/-- R296: the clock of flue `f` may be used: its last advertisement shows a source below hop 15 that is not this flue. -/
def State.clockOffered (s : State) (f : FlueId) : Bool :=
  match (s.flue f).far with
  | some a => decide (a.hop.val < 15) && !a.clkHere
  | none => false

def FlueId.clock : FlueId → ClockSource
  | .a => .flueA
  | .b => .flueB

/-- R79, R296: the clock on the clock-in pair of flue `f` toggles. -/
def State.toggles (s : State) (f : FlueId) : Bool :=
  match f with
  | .a => s.clk.toggleA
  | .b => s.clk.toggleB

def State.setToggles (s : State) (f : FlueId) (v : Bool) : State :=
  match f with
  | .a => { s with clk := { s.clk with toggleA := v } }
  | .b => { s with clk := { s.clk with toggleB := v } }

/-- R304, R302: a link becomes DEAD; R296: a member whose clock it carried takes the other flue's, which must toggle. -/
def State.deadLink (s : State) (f : FlueId) (cause : Nat) : State :=
  let s1 := (s.modFlue f fun x => { x with st := .dead }).flueEvent f cause
  let g := FlueId.other f
  let s2 := if s1.clk.source = FlueId.clock f ∧ (s1.flue g).st = .active ∧ s1.toggles g ∧ s1.clockOffered g then
      { s1 with clk := { s1.clk with source := FlueId.clock g } }
    else s1
  State.linksChanged s s2

/-! ### Receive buffers -/

/-- R298: bytes of class `c` held in the receive buffer of flue `f`: arrivals not yet through the switch. -/
def State.bufferHeld (s : State) (f : FlueId) (c : Cls) : Nat :=
  let mine := fun (p : Piece) => p.src = fluePort f && p.cls = c
  let items := s.waitingItems ++ s.items.admitted
  ((s.gather mine).map Piece.stored).sum
    + (if c = .interrupt then 64 * (items.filter fun it => match it.work with | .change x => x.via = fluePort f | _ => false).length else 0)
    + ((s.chim.held.filter fun x => x.1 = f && x.2.cls = c).map fun x => if x.2.bytes.isEmpty ∨ blkReads x.2 then 64 else 128).sum

def clsBit (c : Cls) : BitVec 4 := bitOf 4 (Cls.code c)

/-- R298: a class whose free space has fallen to 24 KiB goes into XOFF, and the state is sent. -/
def State.checkXoff (s : State) (f : FlueId) (c : Cls) : State :=
  if Config.flueBuffer ≤ s.bufferHeld f c + Config.xoffEnter ∧ !(s.flue f).xoff.getLsbD (Cls.code c) then
    let x := (s.flue f).xoff ||| clsBit c
    (s.modFlue f fun k => { k with xoff := x }).emit f (.flow x)
  else s

/-! ### Arrivals -/

/-- R300: how a number compares with the next one expected. -/
inductive Number
  | next | seen | wrong
  deriving DecidableEq, Repr

def compareNumber (expected num : BitVec 16) : Number :=
  if num = expected then .next else if (expected - num).toNat ≤ 2 ^ 15 then .seen else .wrong

/-- R300: a piece for this position. -/
def State.takePiece (s : State) (f : FlueId) (b : PieceBlk) : State :=
  let i := e2e b.srcPos b.cls
  match compareNumber (vget s.chim.expect i) b.num with
  | .next =>
    let s1 := { s with chim := { s.chim with expect := vset s.chim.expect i (b.num + 1) } }
    ((s1.receipt b.srcPos).landGated f b).checkXoff f b.cls
  | .seen => s.receipt b.srcPos
  | .wrong => s.dropLink f 6

/-- PIECE_RECEIVED (R87, R240, R290, R291, R298, R300, R303). -/
def execPieceReceived (f : FlueId) (fault : Option BlockFault) (blk : PieceBlk) (s : State) : Host.Outcome State Fault Refusal :=
  if s.flueActive f then
    match fault with
    | some e => .next ((s.countParity f e).dropLink f (faultCause e))
    | none =>
      if blk.dstPos = s.pos then .next (s.takePiece f blk).woken
      else .next ((s.landGated f blk).checkXoff f blk.cls).woken
  else .next s

/-- XOFF_EXIT (R298): free space is 32 KiB or more again. -/
def execXoffExit (f : FlueId) (cls : Cls) (s : State) : Host.Outcome State Fault Refusal :=
  if s.flueActive f ∧ (s.flue f).xoff.getLsbD (Cls.code cls) ∧ s.bufferHeld f cls + Config.xoffLeave ≤ Config.flueBuffer then
    let x := (s.flue f).xoff &&& ~~~clsBit cls
    .next ((s.modFlue f fun k => { k with xoff := x }).emit f (.flow x))
  else .next s

/-- FLOW_RECEIVED (R298): the far end's XOFF state; pieces that waited for it leave. -/
def execFlowReceived (f : FlueId) (xoff : BitVec 4) (s : State) : Host.Outcome State Fault Refusal :=
  if s.flueActive f then .next (s.modFlue f fun x => { x with farXoff := xoff }).flushStore.woken else .next s

/-- A LEVELS, REPORT or FUNC block for another position goes on along the path to it, if there is one; its sender sends it again. -/
def State.forward (s : State) (q : Fin 4) (b : FlueBlk) : State :=
  match s.freshPath q with
  | some f => s.emit f b
  | none => s

/-- A number below a count, within 2^15. -/
def covered (count num : BitVec 16) : Bool := num ≠ count && decide ((count - num).toNat ≤ 2 ^ 15)

/-- R299, R300, R249: covered pieces leave the send store, and posted writes performed over there count here. -/
def State.takeReceipt (s : State) (r : Receipt) : State :=
  let keep := fun (x : Stored) =>
    !(x.dst = r.dst && covered (vget r.accepted ⟨Cls.code x.piece.cls, by cases x.piece.cls <;> simp [Cls.code]⟩) x.num)
  let done := s.chim.unperformed.filter fun u => u.1 = r.dst && covered r.performed u.2.1
  let s1 := { s with chim := { s.chim with
      store := s.chim.store.filter keep
      unperformed := s.chim.unperformed.filter fun u => !(u.1 = r.dst && covered r.performed u.2.1) } }
  (forList done (fun u s => s.endPosted u.2.2.1 u.2.2.2) s1).issueWaiting

/-- RECEIPT_RECEIVED (R288, R291, R299, R300, R304): only an ACTIVE end takes a block. One for another position goes on, if need be
when there is a path. -/
def execReceiptReceived (r : ReceiptBlk) (s : State) : Host.Outcome State Fault Refusal :=
  if s.flueActive r.via then
    if r.receipt.src = s.pos then .next (State.repath s (s.takeReceipt r.receipt)).woken
    else .next (s.control r.receipt.src (.receipt r.receipt)).woken
  else .next s

/-- R308: the source cycle is answered with HnDAMP_N; its flue tag and its end-to-end copy are released. A locked write that
was acknowledged at its source has no cycle to answer and is sent again (DESIGN CHOICE, entry 44). -/
def State.takeBackoff (s : State) (n : HearthId) (tag : Nat) : State :=
  match s.findTag .a (hearthPort n) tag with
  | none => s
  | some (g, o) =>
    let s1 := s.dropTag g tag o
    let s2 := { s1 with chim := { s1.chim with
        store := s1.chim.store.filter fun x => !(x.piece.tag = tag && x.piece.origin = o && x.piece.cls = Cls.nonPosted) } }
    match o, (s2.hearth n).cyc with
    | .cycle _ serial, some c => if c.serial = serial ∧ c.phase.isOpen then s2.damp n else s2
    | .posted _ _, _ =>
      (match s1.chim.store.find? fun x => x.piece.tag = tag ∧ x.piece.origin = o with
        | some x => s2.push { x.piece with readyAt := tickPlus s2.now 1 }
        | none => s2)
    | _, _ => s2

/-- BACKOFF_RECEIVED (R240, R291, R308). -/
def execBackoffReceived (src : Sender) (port : PortId) (tag : Nat) (s : State) : Host.Outcome State Fault Refusal :=
  if s.flueActive src.via then
    if src.pos = s.pos then
      match portHearth port with
      | some n => .next (s.takeBackoff n tag).woken
      | none => .next s
    else .next (s.control src.pos (.backoff src.pos port tag)).woken
  else .next s

/-! ### Interrupt levels -/

/-- R250: the contribution an entry of a LEVELS block stands for. Input 8 is the slot-event source, which position 0 holds
itself (R251). -/
def State.levelSrc (s : State) (pos : Fin 4) (e : LevelEntry) : Option Src :=
  if e.input.val = 8 then none
  else
    (s.sinkOf { hearth := e.hearth, pos := pos, input := e.input, entry := e.entry, slotCode := none, level := true, via := 16,
                key := 0, waitFor := [] }).map fun k =>
      { pos := pos, hearth := e.hearth, input := e.input, entry := e.entry, sink := k }

/-- R244, R250: every contribution held from position `pos` is replaced in one tick; each source counts once. -/
def State.takeLevels (s : State) (pos : Fin 4) (levels : List LevelEntry) : State :=
  let srcs := (levels.filterMap (s.levelSrc pos)).eraseDups
  let kept := s.irq.asserted.filter fun x => x.pos ≠ pos || x.input.val = 8
  let s1 := { s with irq := { s.irq with asserted := srcs ++ kept } }
  forList (srcs.filter fun x => !s.irq.asserted.contains x) (fun x s => s.pmeFor x.sink) s1

/-- LEVELS_RECEIVED (R183, R244, R250, R288, R291): the levels of position `pos` for another; a bridge between them passes them
on. The wires are compared at the end of the tick (SINK_UPDATE). -/
def execLevelsReceived (src : Sender) (blk : LevelsBlk) (s : State) : Host.Outcome State Fault Refusal :=
  if s.flueActive src.via ∧ src.pos ≠ s.pos then
    if blk.dst = s.pos then .next (s.takeLevels src.pos blk.levels).woken
    else .next (s.forward blk.dst (.levels src.pos blk.dst blk.levels)).woken
  else .next s

/-! ### Reports -/

/-- R193: the dwords of a block replace those of the copy. -/
def ReportCopy.put (c : ReportCopy) (r : Fin 4) (off : Nat) (dwords : List Dword) : ReportCopy :=
  let new := (dwords.zipIdx).map fun p => (1024 * r.val + off + p.2, p.1)
  { c with dwords := c.dwords.filter (fun d => !new.any fun e => e.1 = d.1) ++ new }

/-- R312: fault and event counts of a copied Soot Report, body offset 0x08. -/
def ReportCopy.counts (c : ReportCopy) : Nat × Nat :=
  match c.dwords.find? fun d => d.1 = 1024 * 3 + 2 with
  | some d => (d.2.toNat % 65536, d.2.toNat / 65536)
  | none => (0, 0)

/-- R305: the place of a block in a pass. -/
def blockPlace (r : Fin 4) (off : Nat) : Nat :=
  ((([0, 1, 2, 3] : List (Fin 4)).filter fun q => q < r).map reportBlocks).sum + off / 14

/-- R193: the blocks of this pass that have come without a gap since the path returned. -/
def ReportCopy.follow (c : ReportCopy) (place : Nat) : ReportCopy :=
  { c with pass := if place = 0 then some 1 else if c.pass = some place then some (place + 1) else none }

/-- R193, R312: a pass is over. The copy is current once a complete one has come over a path that exists. -/
def State.endPass (s : State) (p : Fin 4) : State :=
  let c := vget s.chim.copies p
  let (f, e) := c.counts
  let whole : Bool := c.pass = some passBlocks && s.reaches p
  let s1 := { s with chim := { s.chim with
      copies := vset s.chim.copies p { c with current := c.current || whole, faults := f, events := e } } }
  if c.faults < f ∨ c.events < e then s1.logEvent (fnOfChimney (chimneyOf p 0)) else s1

/-- REPORT_RECEIVED (R193, R287, R291, R305, R312): position 0 keeps the copies; an M0 bridge discards them, a member passes them
on. -/
def execReportReceived (src : Sender) (report : Fin 4) (off : Nat) (dwords : List Dword) (last : Bool) (s : State) :
    Host.Outcome State Fault Refusal :=
  if s.flueActive src.via then
    match s.mode with
    | .m2 =>
      let s1 := { s with chim := { s.chim with copies := vmod s.chim.copies src.pos fun c => (c.put report off dwords).follow (blockPlace report off) } }
      .next (if last then s1.endPass src.pos else s1).woken
    | .m3 => .next (s.forward 0 (.report report.val off dwords)).woken
    | _ => .next s.woken
  else .next s

/-- REPORT_SEND (R305): every 10,000 ticks, while a path to position 0 exists. -/
def execReportSend (s : State) : Host.Outcome State Fault Refusal :=
  if s.running ∧ s.mode = .m3 ∧ s.chimney ∧ s.gate then
    match s.freshPath 0 with
    | some f => .next ((s.advanceTo (tickPlus s.chim.reportTick Config.reportPeriod)).sendReports f)
    | none => .next s
  else .next s

/-! ### Function state -/

def setBit16 (v : BitVec 16) (i : Nat) (b : Bool) : BitVec 16 := if b then v ||| bitOf 16 i else v &&& ~~~bitOf 16 i

/-- R307, R320: flue tags of hearth `n`'s ended cycles are released. -/
def State.dropHearthTags (s : State) (n : HearthId) : State :=
  let keep := fun (t : Nat × Origin × PortId) => match t.2.1 with | .cycle k _ => k ≠ n | .posted k _ => k ≠ n | _ => true
  { s with flueA := { s.flueA with tags := s.flueA.tags.filter keep }, flueB := { s.flueB with tags := s.flueB.tags.filter keep } }

/-- R183, R237, R306, R320: the member takes the function state of one of its hearths. -/
def State.takeFunc (s : State) (m : FuncMsg) : State :=
  let n := m.hearth
  let flr := vget s.chim.memberFlrs n ≠ m.flrs
  let cleared := s.chim.memberBme.getLsbD n.val && !m.bme
  let s1 := { s with chim := { s.chim with
      memberBme := setBit16 s.chim.memberBme n.val m.bme
      memberMse := setBit16 s.chim.memberMse n.val m.mse
      memberD0 := setBit16 s.chim.memberD0 n.val m.d0
      memberFlrs := vset s.chim.memberFlrs n m.flrs } }
  let s2 := if cleared then s1.cutKind0 (chimneyOf s.pos n) else s1
  if flr then ((s2.discardKind0 (chimneyOf s.pos n)).hearthReset n).dropHearthTags n else s2

/-- FUNC_RECEIVED (R237, R288, R291, R306, R320): a new count of FLRs is an FLR (PRESUMED, entry 46); a repeated block changes nothing.
A member passes on the blocks of another. -/
def execFuncReceived (blk : FuncBlk) (s : State) : Host.Outcome State Fault Refusal :=
  if s.flueActive blk.via ∧ s.mode = .m3 then
    if blk.dst = s.pos then .next (s.takeFunc blk.msg).woken else .next (s.forward blk.dst (.func blk.dst blk.msg)).woken
  else .next s

/-- FUNC_REPEAT (R306): every FUNC block again, every 10,000 ticks. -/
def execFuncRepeat (s : State) : Host.Outcome State Fault Refusal :=
  if s.running ∧ s.mode = .m2 ∧ s.chimney ∧ s.gate then
    let s1 := s.advanceTo (tickPlus s.chim.funcTick Config.reportPeriod)
    let s2 := forList (List.finRange 64) (fun h s => s.sendFunc h false) s1
    .next { s2 with chim := { s2.chim with funcTick := s2.now } }
  else .next s

/-! ### Training -/

/-- R286, R302: the advertisement the far end of flue `f` must show. -/
def State.advMatches (s : State) (f : FlueId) (a : Adv) : Bool :=
  let c := s.cfg.csize
  let want := match f with | .a => (s.pos.val + 1) % c | .b => (s.pos.val + c - 1) % c
  a.pos.val = want && a.csize = c && a.fwd == s.cfg.fwd

/-- TRAIN_RECEIVED (R302, R303): an ACTIVE end drops; an end in DETECT trains. -/
def execTrainReceived (f : FlueId) (s : State) : Host.Outcome State Fault Refusal :=
  if s.flueUp f then
    match (s.flue f).st with
    | .active => .next (s.dropLink f 5)
    | .detect => if s.slotPower then .next (s.modFlue f fun x => { x with st := .training }).woken else .next s
    | _ => .next s
  else .next s

/-- R302: training may end: each receive lane has reached TRACKING, and the end has begun to train. A DEAD end keeps training and shows
its code until training ends (DESIGN CHOICE, entry 94: R302 does not say which code it shows meanwhile). -/
def State.trainsFlue (s : State) (f : FlueId) : Bool :=
  ((s.flue f).st = .training || (s.flue f).st = .down || (s.flue f).st = .dead) && s.pathOn (flueDoms f) &&
    (flueLanes f).all fun l => (s.lane l).st = .tracking || (s.lane l).st = .pinned

/-- FLUE_TRAINING_COMPLETE (R302, R303, R309): 64 TRAIN blocks are locked; the advertisement decides between ACTIVE and
DEAD. -/
def execFlueTrainingComplete (f : FlueId) (adv : Adv) (s : State) : Host.Outcome State Fault Refusal :=
  if s.flueUp f ∧ s.slotPower ∧ s.trainsFlue f then
    let s1 := (s.setToggles f true).modFlue f fun x => { x with far := some adv, farXoff := adv.xoff }
    if s.advMatches f adv then
      let s2 := (s1.modFlue f fun x => { x with st := .active, everActive := true }).flueEvent f 8
      .next (State.linksChanged s s2)
    else .next (s1.deadLink f 7)
  else .next s

/-- FLUE_DOWN_TIMEOUT (R302, R303, R304): 5,000 ticks after the drop. -/
def execFlueDownTimeout (f : FlueId) (s : State) : Host.Outcome State Fault Refusal :=
  if s.flueUp f ∧ (s.flue f).st = .down then
    .next ((s.advanceTo (tickPlus (s.flue f).dropTick Config.downTicks)).deadLink f 4)
  else .next s

/-- FLUE_TRAINING_TIMEOUT (R302, R303): 100,000 ticks after the first training start. -/
def execFlueTrainingTimeout (f : FlueId) (s : State) : Host.Outcome State Fault Refusal :=
  if s.flueUp f ∧ s.slotPower ∧ !(s.flue f).everActive ∧ ((s.flue f).st = .detect ∨ (s.flue f).st = .training) then
    .next ((s.advanceTo (tickPlus (s.flue f).trainTick Config.trainTicks)).deadLink f 4)
  else .next s

/-- ADVERTISEMENT_RECEIVED (R292, R296, R298, R304): what a FILLER block tells; pieces that waited for the end of an XOFF leave. -/
def execAdvertisementReceived (f : FlueId) (adv : Adv) (s : State) : Host.Outcome State Fault Refusal :=
  if s.flueUp f then
    .next (State.linksChanged s (s.modFlue f fun x => { x with far := some adv, farXoff := adv.xoff })).flushStore
  else .next s

/-! ### Clocks -/

/-- R297: the clock in use is lost and no other may be taken: every unit leaves service without a clock. -/
def State.loseMember (s : State) : State :=
  let s1 := s.leaveAll
  { s1 with clk := { s1.clk with memberLost := true } }

/-- R302, R303: an ACTIVE end whose clock-in is lost drops with cause 3; one in TRAINING is in DETECT again. -/
def State.clockDrop (s : State) (f : FlueId) : State :=
  match (s.flue f).st with
  | .active => s.dropLink f 3
  | .training => s.modFlue f fun x => { x with st := .detect }
  | _ => s

/-- CLOCK_IN_LOST (R79, R296, R297, R302): the member switches to the other flue's clock, or leaves service. A bridge that is no
member and counts on this clock, chosen before its straps are known, counts no tick while it stands still. -/
def execClockInLost (f : FlueId) (otherToggles : Bool) (s0 : State) : Host.Outcome State Fault Refusal :=
  let s := (s0.setToggles f false).setToggles (FlueId.other f) otherToggles
  if s.running then
    if s.clk.source = FlueId.clock f then
      let g := FlueId.other f
      if s.mode ≠ .m3 then .next { s with clk := { s.clk with stopped := true } }
      else if otherToggles ∧ s.clockOffered g then
        .next ({ s with clk := { s.clk with source := FlueId.clock g } }.clockDrop f)
      else .next s.loseMember
    else .next (s.clockDrop f)
  else .next s

/-- CLOCK_RETURN (R79, R297): the 1,000th period of a clock that meets R296 is a T_S, the tally resuming where it stood; PERST_N then
counts as filtered high, even when it was filtered low before (DESIGN CHOICE, entry 84: R85 would hold the bridge, R297 counts the
tick as a filtered deassertion for every rule). A clock that no member waits for goes on. -/
def execClockReturn (f : FlueId) (periods : Nat) (s : State) : Host.Outcome State Fault Refusal :=
  if s.clk.counting ∧ s.clk.memberLost ∧ Config.startPeriods ≤ periods ∧ s.clockOffered f then
    let s1 := s.setToggles f true
    .next ({ s1 with clk := { s1.clk with source := FlueId.clock f, memberLost := false } }.perstHigh)
  else if s.clk.stopped ∧ s.clk.source = FlueId.clock f ∧ !s.clk.memberLost then
    .next { s.setToggles f true with clk := { (s.setToggles f true).clk with stopped := false } }
  else .next s

end Sys2Proof.Machine
end

