-- ==== Sys2Proof/Machine/Order.lean ====
section
/-! DEFINITION. The wake events of one tick (R27, R28): the order in which the bridge handles them (R259, R214), and how a
tick's events come into the queue. -/

namespace Sys2Proof.Machine

open Sys2Proof

/-- R259: what a command of one tick is an event of, in the order of the rule: the host link, a flue, a hearth, a tally alarm
of a domain or of a hearth (by its pad domain), of a hearth at another position, or of neither. What R27 does not list, the events
of supplies, reset and the test port among it, comes after them, then what the bridge itself does next (R258), and last the
expiry of a wait of a hearth whose response may become ready in the same tick (R211). -/
inductive EventSource
  | host
  | flue (f : FlueId)
  | hearth (n : HearthId)
  | alarmOf (d : DomainId)
  | alarmFar (h : Fin 64)
  | alarm
  | other
  | own
  | expiry (n : HearthId)
  deriving DecidableEq, Repr

/-- R259: the place of a source in the order. -/
def EventSource.place : EventSource → Nat
  | .host => 0
  | .flue .a => 1
  | .flue .b => 2
  | .hearth n => 3 + n.val
  | .alarmOf d => 19 + d.val
  | .alarmFar h => 181 + h.val
  | .alarm => 245
  | .other => 246
  | .own => 247
  | .expiry n => 248 + n.val

/-- R27: the source of a wake event. -/
def WakeEvent.source : WakeEvent → EventSource
  | .strobe n => .hearth n
  | .edge n => .hearth n
  | .slot n => .hearth n
  | .host => .host
  | .flue f => .flue f
  | .alarm => .alarm

/-- R259: an alarm that hearth `n` has, which stands where its pad domain does (entry 78). -/
def alarmOfHearth (n : HearthId) : EventSource := .alarmOf (padDom n)

/-- R259: an alarm of chimney hearth `h`. -/
def State.alarmOfChimney (s : State) (h : Fin 64) : EventSource :=
  if posOf h = s.pos then alarmOfHearth (hearthOf h) else .alarmFar h

/-- R259: an alarm of the hearth a host request addresses; one of the hearthstone's belongs to its port. -/
def State.alarmOfReq (s : State) (id : Nat) : EventSource :=
  match s.reqs.find? fun r => r.id = id with
  | some r => if r.stone then .alarmOf (domOf 139) else s.alarmOfChimney r.chimneyHearth
  | none => .alarm

/-- R259: an alarm of the hearth that the strap reader works for; else the reader's own. -/
def alarmOfReader : Option ReadJob → EventSource
  | some j => alarmOfHearth j.hearth
  | none => .alarmOf (domOf 161)

/-- R214: a counted rise of HnPRES_N goes before a fall of its bank, which stands at the first hearth of the bank (entry 78). -/
def bankSource (b : Fin 14) : EventSource := .hearth ((bankHearths b).headD 0)

/-- R27, R259: what each command is an event of. -/
def State.source (s : State) : Instr → EventSource
  | .tlpReceived _ _ _ => .host
  | .dllpCrcError => .host
  | .ackReceived _ => .host
  | .nakReceived _ => .host
  | .updatefcReceived _ _ _ => .host
  | .receiverError => .host
  | .linkTrainingComplete _ _ _ _ => .host
  | .equalizationPhase2 _ _ _ => .host
  | .marginCommand _ _ => .host
  | .l1Entry _ => .host
  | .l1Exit => .host
  | .receiveL0sChange _ => .host
  | .linkReset _ => .host
  | .configWrite _ _ _ _ _ _ => .host
  | .sootReportRead _ _ _ => .host
  | .busMasterEnableClear _ => .host
  | .busMasterEnableSet _ => .host
  | .memorySpaceEnableWrite _ _ => .host
  | .interruptDisableWrite _ _ => .host
  | .powerStateWrite _ _ => .host
  | .ltrMechanismEnableWrite _ _ => .host
  | .tenBitTagEnableWrite _ _ => .host
  | .extendedTagEnableWrite _ _ => .host
  | .initiateFlr _ => .host
  | .flrFunction0 => .host
  | .memoryReadBar0 _ _ => .host
  | .memoryWriteBar0 _ _ => .host
  | .memoryReadBar2 _ => .host
  | .memoryWriteBar2 _ => .host
  | .completionReceived _ _ _ _ _ _ => .host
  | .pmeTurnOff => .host
  | .setSlotPowerLimit _ => .host
  | .vendorDefinedType1 => .host
  | .pieceReceived f _ _ => .flue f
  | .flowReceived f _ => .flue f
  | .trainReceived f => .flue f
  | .flueTrainingComplete f _ => .flue f
  | .advertisementReceived f _ => .flue f
  | .clockReturn f _ => .flue f
  | .receiptReceived r => .flue r.via
  | .backoffReceived x _ _ => .flue x.via
  | .levelsReceived x _ => .flue x.via
  | .reportReceived x _ _ _ _ => .flue x.via
  | .funcReceived b => .flue b.via
  | .hearthCycleStart n _ => .hearth n
  | .hearthCycleWithdraw n => .hearth n
  | .hearthStrobeRelease n => .hearth n
  | .busGrant n _ => .hearth n
  | .targetResponse n _ _ _ => .hearth n
  | .targetResponseRelease n => .hearth n
  | .grantWithdrawn n => .hearth n
  | .lockRelease n => .hearth n
  | .irqInputChange n _ _ _ => .hearth n
  | .reloadRequest n _ => .hearth n
  | .pgoodFall n => .hearth n
  | .pgoodRise n _ => .hearth n
  | .presenceFall n _ => .hearth n
  | .presenceRise n _ => bankSource (hearthBank n)
  | .attnPress n _ => .hearth n
  | .clkreqAssertOnWake e => WakeEvent.source e
  | .domainWakeComplete d => .alarmOf d
  | .domainIdleExpiry d => .alarmOf d
  | .goingDownEnd d => .alarmOf d
  | .laneStarved l => .alarmOf (laneDom l)
  | .bellowsFrameEnd l _ => .alarmOf (laneDom l)
  | .acquireFrameEnd l _ => .alarmOf (laneDom l)
  | .testInjection l => .alarmOf (laneDom l)
  | .checkerLock x => .alarmOf (laneDom x.lane)
  | .checkerWindowEnd l _ => .alarmOf (laneDom l)
  | .selfCheckHoldEnd l _ _ => .alarmOf (laneDom l)
  | .hearthResetRelease n => alarmOfHearth n
  | .watchdogTargetResponse n => .expiry n
  | .watchdogStrobeRelease n => alarmOfHearth n
  | .watchdogGrant n => alarmOfHearth n
  | .watchdogMasterResponse n => alarmOfHearth n
  | .lockIdleExpiry n => alarmOfHearth n
  | .reloadSamplingStart n => alarmOfHearth n
  | .reloadDrainExpiry n => .expiry n
  | .reloadApply n _ => alarmOfHearth n
  | .drainExpiry n => .expiry n
  | .drainRemovable n => alarmOfHearth n
  | .indicatorBlink n => alarmOfHearth n
  | .strapGroupEnd _ => alarmOfReader s.straps.job
  | .ledgerWindowStart => .alarmOf (domOf 159)
  | .hearthstoneClearComplete => .alarmOf (domOf 140)
  | .slotPowerEnable => .alarm
  | .gateOpen => .alarm
  | .replayTimerExpiry => .alarm
  | .updatefcPeriodic => .alarm
  | .flrComplete h => s.alarmOfChimney h
  | .flrFunction0Complete => .alarm
  | .completionTimeout _ => .alarm
  | .hostRequestDeadline id => s.alarmOfReq id
  | .resampleStart => alarmOfReader s.straps.asked
  | .resampleEnd _ => alarmOfReader s.straps.job
  | .flueDownTimeout _ => .alarm
  | .flueTrainingTimeout _ => .alarm
  | .clockInLost _ _ => .alarm
  | .reportSend => .alarm
  | .funcRepeat => .alarm
  | .flueHoldExpiry id => s.alarmOfReq id
  | .clkreqAssertOnAlarm _ => .alarm
  | .txL0sEntry _ => .alarm
  | .aspmL1Request _ => .alarm
  | .clkreqRelease _ => .alarm
  | .supplyValidEvent _ _ _ => .other
  | .supplyInvalid _ => .other
  | .auxOnlyWake _ _ => .other
  | .vhearthBankInvalid x => bankSource x.bank
  | .vhearthBankValid _ => .other
  | .vauxValid => .other
  | .perstAssertion _ => .other
  | .perstDeassertion _ => .other
  | .refclkStop => .other
  | .refclkReturn => .other
  | .extest _ _ => .other
  | .idcode => .other
  | .samplePreload _ _ => .other
  | .clamp => .other
  | .highz => .other
  | .extestPulse _ _ => .other
  | .extestTrain _ _ => .other
  | .mirror => .other
  | .lanereport => .other
  | .bypass _ => .other
  | .testLogicReset => .other
  | .ledgerAdmission => .own
  | .switchGrant => .own
  | .sampleRecordSend => .own
  | .bankBeat => .own
  | .sinkUpdate => .own
  | .bellowsGap _ => .own
  | .tlpTransmit => .own
  | .updatefcSend _ => .own
  | .waitAssert _ => .own
  | .busRequest _ => .own
  | .drainWorkDone _ => .own
  | .xoffExit _ _ => .own

/-- R214: among one hearth's events a counted rise of HnPRES_N comes first, then HnPGOOD falling or its bank becoming invalid,
then the rest. R333: an injection goes before the end of a frame of its lane. -/
def Instr.rank : Instr → Nat
  | .presenceRise _ _ => 0
  | .pgoodFall _ => 1
  | .vhearthBankInvalid _ => 1
  | .testInjection _ => 1
  | _ => 2

/-- R214, R259: `a` is handled no later than `b` when both fall in one tick. -/
def State.before (s : State) (a b : Instr) : Bool :=
  decide (3 * (s.source a).place + Instr.rank a ≤ 3 * (s.source b).place + Instr.rank b)

/-- One more event of the tick: behind those it does not precede. -/
def State.insertEvent (s : State) (c : Instr) : List Instr → List Instr
  | [] => [c]
  | d :: rest => if s.before d c then d :: s.insertEvent c rest else c :: d :: rest

/-- R28, R259: the events of one tick in the order in which the bridge handles them; events of one place keep the order they
came in. -/
def State.inOrder (s : State) (events : List Instr) : List Instr := events.foldl (fun l c => s.insertEvent c l) []

/-- R28, R259: the bridge latches every event of a tick, behind the commands that wait already, and handles each in the order of the rule. -/
def State.occur (s : State) (events : List Instr) : State := { s with pending := s.pending ++ s.inOrder events }

end Sys2Proof.Machine
end

