-- ==== Sys2Proof/Machine/Package.lean ====
section
/-! DEFINITION. The package: row names (R31), what stands at each ball (R32 to R42), the bank map (R39), the idle power
of a state (R342), and the bounds of power and energy (R343). Rows and columns count from 1. -/

namespace Sys2Proof.Machine

open Sys2Proof

/-- R31: the 19 letters of row names. -/
def rowLetters : List String := ["A", "B", "C", "D", "E", "F", "G", "H", "J", "K", "L", "M", "N", "P", "T", "U", "V", "W", "Y"]

/-- R31: the name of row 1 to 64. -/
def rowName (r : Nat) : String :=
  let letter := rowLetters.getD ((r - 1) % 19) ""
  (match (r - 1) / 19 with | 0 => "" | 1 => "A" | 2 => "B" | _ => "C") ++ letter

/-- R31: the name of a ball. -/
def ballName (r c : Nat) : String := rowName r ++ toString c

/-- What a ball is connected to. -/
inductive BallUse
  | gnd | vcore | vphy | vphyh | vflue | vaux | vstrap
  | vhearth (b : Fin 14)
  | hostTx (l : Fin 16) (p : Bool)
  | hostRx (l : Fin 16) (p : Bool)
  | refclk (p : Bool)
  | perst | wake | clkreq
  | flueTx (f : FlueId) (l : Fin 8) (p : Bool)
  | flueRx (f : FlueId) (l : Fin 8) (p : Bool)
  | flueClockOut (f : FlueId) (p : Bool)
  | flueClockIn (f : FlueId) (p : Bool)
  | hearth (n : HearthId) (k : Fin 100)    -- block row k / 10, block column k mod 10
  | strap (n : HearthId) (k : Fin 69)
  | globalStrap (g : Fin 180)
  | tck | tms | tdi | tdo | trst | tdiodeP | tdiodeN | ready | calstat | fault | ledger
  deriving DecidableEq, Repr

/-- R32: the position carries a ball. -/
def populated (r c : Nat) : Bool :=
  let edge := fun (x : Nat) => if x ≤ 5 then x else if 60 ≤ x then 65 - x else 6
  decide (1 ≤ r ∧ r ≤ 64 ∧ 1 ≤ c ∧ c ≤ 64) && !(decide (edge r ≤ 5 ∧ edge c ≤ 5) && !(edge r = 5 && edge c = 5))

/-- R36, R194: the signals of a hearth. -/
inductive HearthSig
  | d (i : Fin 32)
  | a (i : Fin 32)
  | beN (j : Fin 4)
  | asN | dsN | rw | rdN | wrN | ackN | waitN | dampN | berrN | breqN | bgntN | lockN | rstoN | pgood | sloadN | tapN
  | irqN (q : Fin 8)
  | irqoN (l : Fin 4)
  | presN | pwren | attnN | ind
  deriving DecidableEq, Repr

/-- R36: the signal at block row `k / 10`, block column `k mod 10`. -/
def hearthSig (k : Fin 100) : HearthSig :=
  let i := k.val
  if i < 32 then .d (Fin.ofNat 32 i)
  else if i < 64 then .a (Fin.ofNat 32 (i - 32))
  else if i < 68 then .beN (Fin.ofNat 4 (i - 64))
  else
    match i with
    | 68 => .asN | 69 => .dsN | 70 => .rw | 71 => .rdN | 72 => .wrN | 73 => .ackN | 74 => .waitN | 75 => .dampN
    | 76 => .berrN | 77 => .breqN | 78 => .bgntN | 79 => .lockN | 80 => .rstoN | 81 => .pgood | 82 => .sloadN | 83 => .tapN
    | 96 => .presN | 97 => .pwren | 98 => .attnN | 99 => .ind
    | _ => if i < 92 then .irqN (Fin.ofNat 8 (i - 84)) else .irqoN (Fin.ofNat 4 (i - 92))

/-- R194: the direction of a signal, seen from the bridge. -/
inductive Direction
  | input | output | both
  deriving DecidableEq, Repr

def HearthSig.direction : HearthSig → Direction
  | .d _ => .both
  | .a _ => .both
  | .beN _ => .both
  | .asN => .both
  | .dsN => .both
  | .rw => .both
  | .rdN => .both
  | .wrN => .both
  | .ackN => .both
  | .berrN => .both
  | .waitN => .output
  | .dampN => .output
  | .breqN => .output
  | .irqoN _ => .output
  | .tapN => .output
  | .rstoN => .output
  | .pwren => .output
  | .ind => .output
  | _ => .input

/-- R195: the balls powered from VAUX; the other 94 are hearth pads. -/
def HearthSig.island : HearthSig → Bool
  | .pgood => true
  | .presN => true
  | .attnN => true
  | .pwren => true
  | .rstoN => true
  | .ind => true
  | _ => false

/-- R196: a pad that the strapped width and protocol do not use. -/
def HearthSig.unused (c : HearthCfg) : HearthSig → Bool
  | .d i => decide (8 * c.lanes ≤ i.val)
  | .beN j => decide (c.lanes ≤ j.val)
  | .rw => !c.combined
  | .dsN => !c.combined
  | .rdN => c.combined
  | .wrN => c.combined
  | _ => false

/-- R35, R36: grid row and column of signal `k` of a hearth block. -/
def hearthBall (n : HearthId) (k : Nat) : Nat × Nat :=
  (7 + 13 * (n.val / 4) + k / 10, 5 + 14 * (n.val % 4) + 1 + k % 10)

/-- R37: grid row and column of strap `k` of hearth `n`. -/
def strapBall (n : HearthId) (k : Nat) : Nat × Nat :=
  let (tr, tc) := if k < 30 then (k / 3, 11 + k % 3) else (10 + (k - 30) / 13, 1 + (k - 30) % 13)
  (7 + 13 * (n.val / 4) + tr, 5 + 14 * (n.val % 4) + tc)

/-- R42: grid row and column of global strap `g`. -/
def globalBall (g : Nat) : Nat × Nat :=
  if g < 90 then (7 + g / 2, 1 + g % 2) else (7 + (g - 90) / 2, 63 + g % 2)

/-- R38: the power column of a tile. -/
def powerBall (n : HearthId) (tr : Nat) : BallUse :=
  if [0, 2, 5, 7, 10, 12].contains tr then .gnd
  else if [1, 4, 6, 8, 11].contains tr then .vcore
  else if tr = 9 ∧ (n.val ≤ 1 ∨ 14 ≤ n.val) then .gnd
  else .vhearth (hearthBank n)

/-- R35 to R38: a position of the tile field. -/
def tileBall (r c : Nat) : BallUse :=
  let n : HearthId := Fin.ofNat 16 (4 * ((r - 7) / 13) + (c - 5) / 14)
  let tr := (r - 7) % 13
  let tc := (c - 5) % 14
  if tc = 0 then powerBall n tr
  else if tr < 10 then
    (if tc ≤ 10 then .hearth n (Fin.ofNat 100 (10 * tr + (tc - 1))) else .strap n (Fin.ofNat 69 (3 * tr + (tc - 11))))
  else .strap n (Fin.ofNat 69 (30 + 13 * (tr - 10) + (tc - 1)))

/-- R40: the host band. -/
def hostBall (r c : Nat) : BallUse :=
  let pair := fun (x : Fin 16 → Bool → BallUse) =>
    match (c - 7) % 3 with
    | 0 => BallUse.gnd
    | 1 => x (Fin.ofNat 16 ((c - 7) / 3)) true
    | _ => x (Fin.ofNat 16 ((c - 7) / 3)) false
  match r with
  | 2 => if 7 ≤ c ∧ c ≤ 54 then pair .hostTx else if c = 56 then .refclk true else if c = 57 then .refclk false else .gnd
  | 4 =>
    if 7 ≤ c ∧ c ≤ 54 then pair .hostRx
    else if c = 56 then .perst else if c = 57 then .wake else if c = 58 then .clkreq else .gnd
  | 5 =>
    (match (c - 5) % 7 with
      | 0 => .vphy | 1 => .vphyh | 2 => .gnd | 3 => .vphy | 4 => .vphyh | 5 => .gnd | _ => .vphy)
  | 6 => .vcore
  | _ => .gnd

/-- R41: a pair slot of the flue band. -/
def flueSlotBall (x : FlueId → Fin 8 → Bool → BallUse) (clk : FlueId → Bool → BallUse) (c : Nat) : BallUse :=
  if 6 ≤ c ∧ c ≤ 59 then
    let k := (c - 6) / 3
    match (c - 6) % 3 with
    | 0 => .gnd
    | j =>
      let p := j = 1
      if k < 8 then x .a (Fin.ofNat 8 k) p
      else if k = 8 then clk .a p
      else if k = 9 then clk .b p
      else x .b (Fin.ofNat 8 (k - 10)) p
  else .gnd

/-- R41: the flue band. -/
def flueBall (r c : Nat) : BallUse :=
  match r with
  | 59 => .vcore
  | 60 => if [8, 12, 16, 20, 24, 28, 37, 41, 45, 49, 53, 57].contains c then .vflue else .gnd
  | 61 => flueSlotBall .flueTx .flueClockOut c
  | 63 => flueSlotBall .flueRx .flueClockIn c
  | _ => .gnd

/-- R42: the side regions. -/
def sideBall (r c : Nat) : BallUse :=
  if c = 3 ∨ c = 4 ∨ c = 61 ∨ c = 62 then (if (r - 7) % 3 = 0 then .vcore else .gnd)
  else if r ≤ 51 then
    (if c ≤ 2 then .globalStrap (Fin.ofNat 180 (2 * (r - 7) + (c - 1)))
     else .globalStrap (Fin.ofNat 180 (90 + 2 * (r - 7) + (c - 63))))
  else
    match r, c with
    | 52, 1 => .vstrap
    | 52, 63 => .vaux
    | 53, 1 => .tck
    | 53, 2 => .tms
    | 53, 63 => .ready
    | 53, 64 => .calstat
    | 54, 1 => .tdi
    | 54, 2 => .tdo
    | 54, 63 => .fault
    | 54, 64 => .ledger
    | 55, 1 => .trst
    | 56, 1 => .tdiodeP
    | 56, 2 => .tdiodeN
    | 58, 1 => .vstrap
    | 58, 63 => .vaux
    | _, _ => .gnd

/-- R33, R34: what stands at a populated position; each ball has exactly one use. -/
def ballUse (r c : Nat) : Option BallUse :=
  if populated r c then
    some (if r ≤ 6 then hostBall r c
      else if 59 ≤ r then flueBall r c
      else if 5 ≤ c ∧ c ≤ 60 then tileBall r c
      else sideBall r c)
  else none

/-- R342: the idle power of a domain in half milliwatts, an OFF domain at its upper bound. -/
def idleHalfMilliwatts (d : Nat) (x : DomState) : Nat :=
  match x with
  | .off => 1
  | .retained => 12
  | _ => 2 * Config.idleMilliwatts d

/-- R342: the idle power of a state, the island included, in half milliwatts. -/
def State.idlePower (s : State) : Nat :=
  ((List.finRange 162).map fun d => idleHalfMilliwatts d.val (s.dom d)).sum + 2 * Config.islandMilliwatts

/-- R343: the idle power with every domain a mode may use ON, the island included, in milliwatts. -/
def modeIdleMilliwatts (m : Mode) : Nat :=
  (((List.range 162).filter m.usable).map Config.idleMilliwatts).sum + Config.islandMilliwatts

/-- R343: the greatest package power of a mode, in milliwatts. -/
def modeMaxMilliwatts : Mode → Nat
  | .m0 => 60000 | .m1 => 68000 | .m2 => 75000 | .m3 => 60000 | .m4 => 55000 | .m5 => 18000 | .m6 => 18000 | .m7 => 12000

/-- R343: idle power that counts in a window for a domain that took the states `l` in it, in half milliwatts: a domain that was neither ON
nor RETAINED in any tick of the window counts nothing. -/
def windowIdle (d : Nat) (l : List DomState) : Nat :=
  if l.any DomState.isOn then 2 * Config.idleMilliwatts d else if l.contains .retained then 12 else 0

/-- R11, R343: the most energy of the package over a budget window, in hundredths of an ember, the ledger being on: the idle energy of the
domains that were ON or RETAINED in it and of the island, and B. A watt over 1,024 ticks is 10,240 embers. -/
def windowEnergy (ticks : List State) (budget : Nat) : Nat :=
  512 * (((List.finRange 162).map fun d => windowIdle d.val (ticks.map fun s => s.dom d)).sum + 2 * Config.islandMilliwatts) + 100 * budget

/-- R16, R343: the most average package power over a window, in milliwatts: the idle power of the mode and the budget, 10,240
embers a watt, with the ledger on; never above the mode's maximum. -/
def powerBoundMilliwatts (m : Mode) (budgetCode : BitVec 4) : Nat :=
  if budgetCode = 15 then modeMaxMilliwatts m
  else min (modeMaxMilliwatts m) (modeIdleMilliwatts m + (budgetCode.toNat + 1) * Config.budgetStep * 1000 / 10240)

end Sys2Proof.Machine
end

