-- ==== Sys2Proof/Machine/Pads.lean ====
section
/-! DEFINITION. What the bridge does with each ball of a hearth (R194 to R196, R199, R201, R207, R208, R213, R223, R246). -/

namespace Sys2Proof.Machine

open Sys2Proof

/-- R208, R223: the data strobe of the bridge's cycle on hearth `n`'s bus has fallen: the cycle starts in the tick after the grant, or
after the cycle before it. -/
def State.strobed (s : State) (n : HearthId) : Bool :=
  match (s.hearth n).bus.strobe with
  | some e => s.reached e
  | none => false

/-- R223: the cycle the bridge, as master, has open on hearth `n`'s bus, and whether it reads. -/
def State.openMaster (s : State) (n : HearthId) : Option (TCycle × Bool) :=
  if s.strobed n then
    match (s.hearth n).bus.jobs with
    | j :: _ => j.cycles.head?.map fun c => (c, j.read)
    | [] => none
  else none

/-- R208: the bridge drives the bus: from the tick after it recognizes the grant, its strobes high between cycles. -/
def State.masters (s : State) (n : HearthId) : Bool :=
  let b := (s.hearth n).bus
  b.granted && (s.strobed n || decide (0 < b.count))

def level (high : Bool) : Level3 := if high then .high else .low

/-- R195: a line driven low while it is asserted and high otherwise. -/
def activeLow (asserted : Bool) : Level3 := level (!asserted)

/-- R195: a shared response line: low with the response, driven high for the tick after it, then released. -/
def Hearth.sharedLine (h : Hearth) (r : Resp) : Level3 :=
  let low := match r with | .ack => h.ackLow | .berr => h.berrLow | .damp => h.dampLow
  if low then .low else if h.rising = some r then .high else .floating

/-- R195 to R200, R207, R208: a used hearth pad while the pads are active. As master the bridge drives the bus in a tenure, with the
strobes high between cycles. -/
def State.activePad (s : State) (n : HearthId) (sig : HearthSig) : Level3 :=
  let h := s.hearth n
  let m := s.openMaster n
  let master := fun (l : Level3) => if s.masters n then l else .floating
  match sig with
  | .d i =>
    (match m with
      | some (c, read) => if read then .floating else level (c.data.getLsbD i.val)
      | none => match h.hd with | some w => level (w.getLsbD i.val) | none => .floating)
  | .a i => (match m with | some (c, _) => level (c.addr.getLsbD i.val) | none => .floating)
  | .beN j => (match m with | some (c, _) => activeLow (c.be.getLsbD j.val) | none => .floating)
  | .rw => (match m with | some (_, read) => level read | none => .floating)
  | .asN => master (activeLow m.isSome)
  | .dsN => master (activeLow m.isSome)
  | .rdN => master (activeLow (match m with | some (_, read) => read | none => false))
  | .wrN => master (activeLow (match m with | some (_, read) => !read | none => false))
  | .ackN => h.sharedLine .ack
  | .berrN => h.sharedLine .berr
  | .waitN => activeLow h.waitLow
  | .dampN => activeLow h.dampLow
  | .breqN => activeLow h.bus.breqLow
  | .tapN => activeLow h.tapTill.isSome
  | .irqoN l => s.irqoLevel n l
  | _ => .floating

/-- R195, R196, R213, R246, R318, R350: what the mission logic does with a ball of hearth `n`; an input floats. HnRSTO_N is low or
released, never high; without VAUX HnPWREN is held low and HnIND is off. HnIRQO and HnTAP_N stay driven in a hearth reset, HnIRQO from
the tick of entry. -/
def State.padLevel (s : State) (n : HearthId) (sig : HearthSig) : Level3 :=
  match sig with
  | .pwren => level (s.pwren n && s.island.vaux)
  | .ind => if s.island.vaux then level (s.indOn n) else .floating
  | .rstoN => if s.rstoReleased n then .floating else .low
  | .irqoN l => if (s.hearth n).slot.pads then s.irqoLevel n l else .floating
  | .tapN => if s.receiversOn n then s.activePad n .tapN else .floating
  | _ => if s.padsActive n ∧ !sig.unused (s.hearth n).cfg then s.activePad n sig else .floating

end Sys2Proof.Machine
end

