-- ==== Sys2Proof/Machine/Ikiog.lean ====
section
/-! DEFINITION. The Ikiog block: lane-blocks with their parity and frame bits (R289), the control types, the bytes of an
advertisement, a FLOW, a PIECE and a REPORT block (R290, R292, R298, R305), what makes a received block a link error (R291), the
advertisement of this bridge (R292, R295), the blocks it sends and its clock-out pairs (R292, R293, R330). -/

namespace Sys2Proof.Machine

open Sys2Proof

/-! ### Lane-blocks -/

/-- R289: a lane-block, bit 0 sent first. -/
abbrev LaneBlock := BitVec 66

/-- R289: an odd number of ones. -/
def oddOnes (x : LaneBlock) : Bool := (List.range 66).foldl (fun p i => p != x.getLsbD i) false

/-- R289: frame bit in bit 0, payload in bits [64:1], and bit 65 makes the number of ones even. -/
def laneBlock (control : Bool) (payload : BitVec 64) : LaneBlock :=
  let x : LaneBlock := (payload.setWidth 66 <<< 1) ||| (if control then 1 else 0)
  if oddOnes x then x ||| BitVec.twoPow 66 65 else x

/-- R289: the payload of lane `l`: payload byte `b` of a block is byte `b mod 8` of lane `b div 8`. -/
def lanePayload (bytes : List Byte) (l : Nat) : BitVec 64 :=
  (List.range 8).foldl (fun w i => w ||| ((bytes.getD (8 * l + i) 0).setWidth 64 <<< (8 * i))) 0

/-- R289: a block of 64 payload bytes. -/
def ikiogBlock (control : Bool) (bytes : List Byte) : Vector LaneBlock 8 :=
  Vector.ofFn fun l => laneBlock control (lanePayload bytes l.val)

/-- R289: payload byte `b` of a received block. -/
def payloadByte (x : Vector LaneBlock 8) (b : Nat) : Byte :=
  (vget x (Fin.ofNat 8 (b / 8))).extractLsb' (8 * (b % 8) + 1) 8

/-! ### Control blocks -/

/-- R289: control types. -/
inductive BlockType
  | filler | train | piece | flow | receipt | backoff | levels | report | func
  deriving DecidableEq, Repr

def BlockType.code : BlockType → Byte
  | .filler => 0 | .train => 1 | .piece => 2 | .flow => 3 | .receipt => 4 | .backoff => 5 | .levels => 6 | .report => 7 | .func => 8

def allTypes : List BlockType := [.filler, .train, .piece, .flow, .receipt, .backoff, .levels, .report, .func]

def blockType (b : Byte) : Option BlockType := allTypes.find? fun t => t.code = b

/-- R106, R289: a data block and a PIECE block cost the embers of a flue block; no other is charged. -/
def BlockType.cost : BlockType → Nat
  | .piece => Config.costFlueBlock
  | _ => 0

/-- A list filled with 0 to 64 bytes. -/
def pad64 (l : List Byte) : List Byte := (List.range 64).map fun i => l.getD i 0

/-- R292: bytes 1 to 4 of a FILLER or TRAIN block. -/
def advBytes (a : Adv) : List Byte :=
  [BitVec.ofNat 8 (a.pos.val + 4 * (a.csize - 1) + bitField a.fwd 4 + bitField a.hold 5 + bitField a.clkHere 6),
   BitVec.ofNat 8 a.hop.val, BitVec.ofNat 8 a.xoff.toNat,
   BitVec.ofNat 8 (((List.finRange 4).map fun i => (vget a.know i).val * 4 ^ i.val).sum)]

/-- R290: the bytes a piece sends: a request to read sends none. -/
def piecePayload (b : PieceBlk) : List (Nat × Byte) := if blkReads b then [] else b.bytes

/-- R290: the PIECE header, its type in byte 0. -/
def pieceHeader (b : PieceBlk) : List Byte :=
  [BlockType.code .piece,
   BitVec.ofNat 8 (Cls.code b.cls + 4 * b.srcPos.val + 16 * b.dstPos.val + bitField b.locked 6),
   BitVec.ofNat 8 (b.srcPort.val + 32 * AccKind.code b.kind),
   BitVec.ofNat 8 (b.dstPort.val + 32 * statusCode b.status),
   BitVec.ofNat 8 b.key.toNat,
   BitVec.ofNat 8 (piecePayload b).length]
  ++ leBytes b.tag 2 ++ leBytes b.addr 8 ++ leBytes b.num.toNat 2

/-- R290: the crossing address that places the data: a completion, whose address is 0, goes by its first byte. -/
def dataBase (b : PieceBlk) : Nat :=
  (match b.cls, b.bytes with
    | .completion, x :: _ => x.1
    | _, _ => b.addr) / 64 * 64

/-- R290: the data block: byte `i` is the byte at crossing address (address AND NOT 63) + i. -/
def dataBytes (b : PieceBlk) : List Byte := (List.range 64).map fun i => (byteAt b.bytes (dataBase b + i)).getD 0

/-- R290: the blocks of a piece, the flag telling a control block. -/
def pieceBlocks (b : PieceBlk) : List (Bool × List Byte) :=
  (true, pad64 (pieceHeader b)) :: (if (piecePayload b).isEmpty then [] else [(false, dataBytes b)])

/-- R298: a FLOW block. -/
def flowBytes (xoff : BitVec 4) : List Byte := pad64 [BlockType.code .flow, BitVec.ofNat 8 xoff.toNat]

/-- R305: a REPORT block: report number in byte 1, dword offset in bytes 2 to 3, 14 dwords in bytes 8 to 63. -/
def reportBytes (r off : Nat) (dwords : List Dword) : List Byte :=
  [BlockType.code .report, BitVec.ofNat 8 (r % 4)] ++ leBytes off 2 ++ leBytes 0 4 ++
    (List.range 14).flatMap fun i => leBytes (dwords.getD i 0).toNat 4

/-! ### Received blocks (R291) -/

/-- R290, R292, R298, R305: the bits of payload byte `b` that a control block of type `t` leaves reserved. The blocks whose layout the
spec does not give have none (entry 17). -/
def reservedBits (t : BlockType) (b : Nat) : Byte :=
  match t with
  | .filler => (match b with | 0 => 0 | 1 => 0x80 | 2 => 0xF0 | 3 => 0xF0 | 4 => 0 | _ => 0xFF)
  | .piece =>
    (match b with
      | 0 => 0 | 1 => 0x80 | 2 => 0 | 3 => 0 | 4 => 0xF0 | 5 => 0x80 | 6 => 0 | 7 => 0xFC
      | _ => if b ≤ 17 then 0 else 0xFF)
  | .flow => (match b with | 0 => 0 | 1 => 0xF0 | _ => 0xFF)
  | .report => (match b with | 0 => 0 | 1 => 0xFC | _ => if 4 ≤ b ∧ b < 8 then 0xFF else 0)
  | _ => 0

/-- R291: why a received block is a link error: odd parity on a lane, frame bits that differ, a type not in the table, or a
reserved field that is not 0. -/
def blockFault (x : Vector LaneBlock 8) : Option BlockFault :=
  match (List.finRange 8).find? fun l => oddOnes (vget x l) with
  | some l => some (.parity l)
  | none =>
    let frame := (vget x 0).getLsbD 0
    if (List.finRange 8).any fun l => (vget x l).getLsbD 0 != frame then some .frameBits
    else if frame then
      match blockType (payloadByte x 0) with
      | none => some .badType
      | some t => if (List.range 64).any fun b => payloadByte x b &&& reservedBits t b != 0 then some .reserved else none
    else none

/-! ### The advertisement of this bridge -/

/-- R295: the clock hop count: 0 at position 0 or on an own reference, else one more than the far end of the clock's flue shows;
a member under forwarded clocking that uses no flue's clock has no clock source and shows 15. -/
def State.hop (s : State) : Fin 16 :=
  match s.clk.source with
  | .refclk => if s.cfg.fwd ∧ s.mode = .m3 then 15 else 0
  | c =>
    let f := if c = .flueA then FlueId.a else .b
    if s.clk.memberLost then 15
    else match (s.flue f).far with
      | some a => Fin.ofNat 16 (min 15 (a.hop.val + 1))
      | none => 15

/-- R292, R297: what a FILLER or TRAIN block of flue `f` carries; nothing from a member that has lost its clock. -/
def State.advertisement (s : State) (f : FlueId) : Option Adv :=
  if s.chimney ∧ !s.clk.memberLost then
    some { pos := s.pos, csize := s.cfg.csize, fwd := s.cfg.fwd,
           hold := (match f with | .a => s.cfg.holdA | .b => s.cfg.holdB)
           clkHere := s.clk.source = FlueId.clock f
           hop := s.hop, xoff := (s.flue f).xoff
           know := Vector.ofFn fun i => Fin.ofNat 4 (if i.val < s.cfg.csize then s.linkKnow i.val else 0) }
  else none

/-- R292: the payload of a FILLER or TRAIN block. The training pattern that R289 puts into a TRAIN block has no bits in the spec: zeros
stand behind the advertisement (DESIGN CHOICE, entry 92). -/
def fillerBytes (train : Bool) (a : Adv) : List Byte :=
  pad64 ((if train then BlockType.code .train else BlockType.code .filler) :: advBytes a)

/-- R289, R292, R302, R309: the blocks flue `f` sends for this tick: none before training starts. -/
def State.blocksOut (s : State) (f : FlueId) : List FlueBlk :=
  if s.running ∧ s.slotPower then (s.flue f).sends s.fillerBound else []

/-- R328, R330: a lane of flue `f` under test transmits. -/
def State.testTransmits (s : State) (f : FlueId) : Bool :=
  (flueLanes f).any fun l => s.testRuns l && (s.test l).drivesBalls s.mode

/-- R293, R330: the clock-out pair of flue `f` is driven while the flue is not DISABLED, and in M5 and M6 while a lane of it transmits. -/
def State.clockOut (s : State) (f : FlueId) : Bool := s.running && ((s.flue f).st != .disabled || s.testTransmits f)

end Sys2Proof.Machine
end

