-- ==== Sys2Proof/Machine/Timeline.lean ====
section
/-! DEFINITION. The timeline from T_S (R87): the strap groups (R61, R75) with what their ends decide (R17 to R20, R64, R79,
R88, R181, R214, R278), slot power (R90) and the gate (R89, R90, R130, R328), with their commands. -/

namespace Sys2Proof.Machine

open Sys2Proof

/-! ### Group 0 -/

/-- R17 to R19: the mode from the end of group 0: M7 when S_MODE or S_BUDGET is not VALID. -/
def modeAtGroup0 (v : Vector Ball 180) : Mode := if validField v 6 1 then selectedMode (ballAt v 0) else .m7

/-- The global settings as group 0 shows them, before the checks at the end of group 15. -/
def State.group0Cfg (s : State) : GlobalCfg := globalsOf s.mode s.straps.globals

/-- R17 to R19, R63, R81, R102: what group 0 settles: the mode, and S_BUDGET; S_HAUX is kept by the island. The flues stay out of
the chimney until their fields are checked. -/
def State.takeGroup0 (s : State) : State :=
  let v := s.straps.globals
  let m := modeAtGroup0 v
  let g := globalsOf m v
  { s with
    mode := m
    strapMode := selectedMode (ballAt v 0)
    cfg := { s.cfg with budgetCode := g.budgetCode, fluesOk := false }
    island := { s.island with haux := some g.haux } }

/-- R79, R295: the strapped clock source; where the flue it names does not toggle, the other flue's clock if that toggles. S_FCLK counts
only while every flue strap is VALID, for R64 puts both flues out of service otherwise (DESIGN CHOICE, entry 82). -/
def State.strappedClock (s : State) : ClockSource :=
  let g := s.group0Cfg
  if s.mode = .m3 ∧ g.fwd then
    let f := if g.cpos.val ≤ g.csize - g.cpos.val then FlueId.b else .a
    if s.toggles f then FlueId.clock f
    else if s.toggles (FlueId.other f) then FlueId.clock (FlueId.other f)
    else s.clk.source
  else .refclk

/-- R19, R20: a domain that mode `m` keeps off goes off through GOING_DOWN. -/
def dismissDom (m : Mode) (now : Tally) (d : DomainId) (x : DomState) : DomState :=
  if m.usable d.val then x
  else match x with
    | .retained => .goingDown (tickPlus now Config.goingDownTicks)
    | y => y.fall now

/-- R20, R88, R95, R96, R315: the domains the mode keeps off go off, with the clear mark set and the sticky fields lost where
that follows; D156 to D158 wake in a mode that exposes functions. -/
def State.powerMode (s : State) : State :=
  let keepOn := s.mode.exposes
  let down := fun (d : DomainId) (x : DomState) =>
    if 156 ≤ d.val ∧ d.val < 159 then
      (if keepOn then (match x with | .off => .waking (tickPlus s.now (Config.wakeLatency d.val)) | y => y) else x.fall s.now)
    else dismissDom s.mode s.now d x
  let s1 := { s with doms := vmap down s.doms }
  let s2 := if s.mode.serves then s1 else { s1 with island := { s1.island with clearMark := true } }
  if keepOn then s2
  else { s2 with fns := Vector.replicate 65 FnCfg.reset, link := { s2.link with kept := HostLink.reset.kept } }

/-- R287, R293, R302: from the end of group 0 the flues of a chimney are out of DISABLED, and the wakes of their domains are
presented (R96). -/
def State.enableFlues (s : State) : State :=
  let g := s.group0Cfg
  if g.fluesOk ∧ (s.mode = .m2 ∨ s.mode = .m3 ∨ (s.mode = .m0 ∧ g.csize ≠ 1)) then
    forList bothFlues
      (fun f s => forList (flueDoms f) (fun d s => s.presentWake (fluePort f) d)
        (s.modFlue f fun x => { x with st := .detect })) s
  else s

/-- R79, R94: the bridge changes to the strapped clock, resets the tally and begins again. -/
def State.restart (s : State) (c : ClockSource) : State :=
  let s1 := { s with clk := { s.clk with tally := 0, source := c, stopped := false } }.leaveAll
  s1.startTS

/-- The end of group 0. -/
def State.endGroup0 (s : State) : State :=
  let s1 := s.takeGroup0.powerMode
  if s1.strappedClock = s1.clk.source then s1.enableFlues else s1.restart s1.strappedClock

/-! ### Group 15 -/

/-- R64: the flues of a chimney whose straps are not VALID after the checks go out of service. -/
def State.checkFlues (s : State) : State :=
  if s.chimney then s
  else
    forList bothFlues
      (fun f s => forList (flueDoms f) (fun d s => s.sleepDom d) (s.modFlue f fun x => { x with st := .disabled })) s

/-- R19, R88: the change to M7 at the end of group 15. A clear in progress is abandoned, its mark set. -/
def State.quarantine (s : State) : State :=
  let gone := fun (it : Item) => it.path.any fun d => !Mode.usable .m7 d.val
  let s1 := (s.dropItems gone).dropAdmitted gone
  { s1 with
    mode := .m7
    doms := vmap (dismissDom .m7 s1.now) s1.doms
    lanes := vmap (fun (l : LaneId) (x : Lane) => if Mode.usable .m7 (laneDom l).val then x else x.leave) s1.lanes
    island := { s1.island with clearMark := true, clearFrom := none }
    flueA := s1.flueA.leave
    flueB := s1.flueB.leave }

/-- The end of group 15: the global fields are checked, and their units take the new values (R60, R63, R64, R67, R75, R278,
R325). In M5 and M6 the spread and the checks are those of the test mode, though a change to M7 follows in the same tick (DESIGN
CHOICE, entry 83: R19 and R60 do not order the two). -/
def State.endGroup15 (s : State) : State :=
  let v := finishGlobals s.strapMode s.mode s.straps.globals
  let cfg := globalsOf s.mode v
  let s1 := { s with
    straps := { s.straps with globals := v, checkedOnce := true, checked := true }
    cfg := cfg
    prot := if s.mode.tests then s.prot else protOf v cfg.regions
    tests := if s.mode.tests then testsOf s.mode v else s.tests }
  if s1.mode.exposes ∧ s1.mode ≠ .m7 ∧ !configUnitOk v then s1.quarantine else s1.checkFlues

/-! ### Hearth groups -/

/-- R87, R214: the PARKED row: where a hearth goes at the end of its groups; READY begins in the next tick. -/
def State.leaveParked (s : State) (n : HearthId) : State :=
  let h := s.hearth n
  if !s.mode.serves then s
  else if !h.cfg.ok then (if h.presLow ∨ h.pgood then s.strapFault n else s.enter n .empty false)
  else if h.pgood ∧ h.goodAtGroup then (s.tick.enter n .ready false).padsOn n
  else if h.goodNew then s.enterSampling n
  else if h.presLow then s.enter n .powering false
  else s.enter n .empty false

/-- R68, R75, R181, R212: the end of a hearth's second group. A ball of HnPRES_N that reads low counts at once, the BAR-0
size is fixed, the fields are checked and the new settings apply. -/
def State.endHearthGroups (s : State) (n : HearthId) : State :=
  let h := s.hearth n
  let ok := validField (spreadHearth h.balls) 0 5
  let code := codeAt h.balls 4 % 8
  let v := finishHearth s.strapMode s.cfg n (barSize (if ok then code else 0)) h.balls
  (s.modHearth n fun h => { h with
    presLow := h.presLow || h.presBall
    barCode := if ok then code else 0
    barFallback := !ok
    balls := v
    cfg := hearthCfgOf s.pos v
    irqLow := 0 }).leaveParked n

/-- R89: the counted level of HnPGOOD at the start of the hearth's groups. -/
def State.startHearthGroups (s : State) (n : HearthId) : State :=
  s.modHearth n fun h => { h with goodAtGroup := h.pgood, goodNew := false }

/-! ### Commands -/

/-- R61, R75: the readings of group `g` are taken. -/
def State.sampleGroup (s : State) (g : Fin 48) (readings : List Reading) : State :=
  let s1 := { s with straps := { s.straps with
      groupTally := vset s.straps.groupTally g s.now
      lastGroup := g.val
      globals := sampleBalls (assignedGlobal s.mode) (groupStart g.val) (groupSize g.val) readings s.straps.globals } }
  if g.val < 16 then s1 else s.sampleHearthGroup (Fin.ofNat 16 ((g.val - 16) / 2)) (g.val % 2 = 1) readings

/-- What the end of group `g` decides. -/
def State.endGroup (s : State) (g : Fin 48) : State :=
  let s0 := { s with straps := { s.straps with seq := if g.val = 47 then none else some (Fin.ofNat 48 (g.val + 1)).val
                                               seqDone := g.val = 47 } }
  let s1 := if g.val = 0 then s0.endGroup0
    else if g.val = 15 then s0.endGroup15
    else if 16 ≤ g.val ∧ g.val % 2 = 1 then s0.endHearthGroups (Fin.ofNat 16 ((g.val - 16) / 2))
    else s0
  if 15 ≤ g.val ∧ g.val < 47 ∧ g.val % 2 = 1 then s1.startHearthGroups (Fin.ofNat 16 ((g.val - 15) / 2)) else s1

/-- STRAP_GROUP_END (R61, R75, R91): group g ends at T_S + 2,500g + 2,499. Outside a sequence, the first group of the reload or
resample under way ends. -/
def execStrapGroupEnd (readings : List Reading) (s : State) : Host.Outcome State Fault Refusal :=
  match s.straps.seq with
  | some g =>
    if s.running ∧ !s.island.perstLow then
      let k : Fin 48 := Fin.ofNat 48 g
      let s1 := ((s.advanceTS (Config.groupTicks * k.val + (Config.groupTicks - 1))).sampleGroup k readings).endGroup k
      .next (if k.val = 47 then s1.setDom 161 (.on s1.now) else s1).woken
    else .next s
  | none => .next (s.halfRead readings)

/-- R309: the flues of a chimney start training. -/
def State.startTraining (s : State) : State :=
  if s.chimney then forList bothFlues (fun f s => s.modFlue f fun x => { x with trainTick := s.now }) s else s

/-- SLOT_POWER_ENABLE (R87, R90, R309): T_S + 120,000, once the sequence is complete. -/
def execSlotPowerEnable (s : State) : Host.Outcome State Fault Refusal :=
  if s.running ∧ s.clk.live ∧ s.straps.seqDone ∧ !s.slotPower then
    let s1 := s.advanceTS Config.slotPowerTick
    .next { s1 with slotPower := true }.startTraining.woken
  else .next s

/-- R328: the wakes of a test lane, in switch-port order. -/
def State.startTestLane (s : State) (l : LaneId) : State :=
  let t := s.test l
  if t.underTest s.mode then
    let port : PortId := if l.val < 16 then 16 else if l.val < 24 then 17 else 18
    forList (testDomains s.mode l t) (fun d s => s.presentWake port d) s
  else s

/-- GATE_OPEN (R87, R90, R130, R214, R309, R328): T_S + 200,000. READY rises, READY hearths enter service, the host link enters
Detect, test lanes start, flue paths in use carry traffic, and pieces that came before go on. -/
def execGateOpen (s : State) : Host.Outcome State Fault Refusal :=
  if s.running ∧ s.slotPower ∧ !s.gate then
    let s1 := s.advanceTS Config.gateTick
    let s2 := { s1 with gate := true, readyOnce := true }
    let s3 := forHearths (fun n s => if (s.hearth n).slot = .ready then s.enterService n else s) s2
    let s4 := forList (List.finRange 32) (fun l s => s.startTestLane l) s3.enterDetect
    .next (State.linksChanged s1 s4).landAll
  else .next s

end Sys2Proof.Machine
end

