-- ==== Sys2Proof/Machine/TestLanes.lean ====
section
/-! DEFINITION. Test lanes (R325 to R335): their streams, injection, the checker and the self-check hold, with their commands. -/

namespace Sys2Proof.Machine

open Sys2Proof

/-! ### The streams -/

/-- R330: degree and tap of a pattern's polynomial x^n + x^m + 1. -/
def prbsTaps (pattern : Nat) : Option (Nat × Nat) :=
  match pattern with
  | 1 => some (7, 6) | 2 => some (15, 14) | 3 => some (23, 18) | 4 => some (31, 28) | _ => none

/-- R330, R332: the next bit after the bits `past`, the latest first: the sum of the bits n and m places back. -/
def prbsNext (n m : Nat) (past : List Bool) : Bool := past.getD (n - 1) false != past.getD (m - 1) false

/-- R330: one more bit, the oldest of the `n` falls out. -/
def prbsStep (n m : Nat) (past : List Bool) : List Bool := prbsNext n m past :: past.take (n - 1)

/-- R330: the last `n` bits after `k` more, the latest first. -/
def prbsRun (n m : Nat) : Nat → List Bool → List Bool
  | 0, past => past
  | k + 1, past => prbsRun n m k (prbsStep n m past)

/-- R330: the generator's state `k` bits after E, when it holds all ones; its last bit goes out next. -/
def prbsAfter (n m k : Nat) : List Bool := prbsRun n m k (List.replicate n true)

/-- R330: bit `j` of the generator from E; the all-ones state goes out first. -/
def prbsBit (pattern j : Nat) : Bool :=
  match prbsTaps pattern with
  | some (n, m) => (prbsAfter n m j).getD (n - 1) false
  | none => false

/-- R122, R330: bits of a lane in one tick; flue lanes run at 25.0 Gb/s. -/
def bitsPerTick (lane : LaneId) (r : Rate) : Nat :=
  if lane.val < 16 then
    (match r with | .g2p5 => 25 | .g5 => 50 | .g8 => 80 | .g16 => 160 | .g32 => 320)
  else 250

/-- R333: bit `j` from E lies in injection `k`, with `b` bits in a tick. -/
def TestLane.injects (t : TestLane) (b k j : Nat) : Bool :=
  match injectionAt t.period k with
  | some d => decide (1 ≤ k ∧ d * b ≤ j ∧ j < d * b + t.burst)
  | none => false

/-- R330, R333: bit `j` of the generator stream from E, injections applied. -/
def TestLane.sentBit (t : TestLane) (b j : Nat) : Bool :=
  prbsBit t.pattern j != (List.range (j + 1)).any fun k => t.injects b k j

/-- R329: the lane takes what arrives at its receive balls. -/
def TestLane.readsBalls (m : Mode) (t : TestLane) : Bool :=
  !(m = .m5 && (t.loop = 1 || t.loop = 2)) && !(m = .m6 && t.loop = 1)

/-- R329: what a checker compares. -/
inductive Stream
  | looped | received
  deriving DecidableEq, Repr

/-- R329, R332: the stream that the lane checks, `none` without a checker. -/
def TestLane.checked (m : Mode) (t : TestLane) : Option Stream :=
  if t.pattern = 0 then none
  else if m = .m5 then (if t.loop = 1 ∨ t.loop = 2 then some .looped else some .received)
  else if t.loop = 1 then none
  else some .received

/-- R329, R333: bit `j` from E on the transmit balls of a far-end loop: the bit received `delay` unit intervals before, injections
applied. The delay is 32 to 40 unit intervals. -/
def TestLane.loopedBit (t : TestLane) (b delay : Nat) (received : Int → Bool) (j : Nat) : Bool :=
  received ((j : Int) - delay) != (List.range (j + 1)).any fun k => t.injects b k j

/-- R329: the delay of the far-end loop of a lane, in unit intervals (a free value within its bounds, entry 57). -/
def farLoopDelay (lane : LaneId) : Nat := 32 + Config.freeLoopDelay lane.val % 9

/-- R329: bit `j` from E on the transmit balls of a lane under test, `none` while they are high-impedance. -/
def TestLane.txBit (m : Mode) (t : TestLane) (lane : LaneId) (b : Nat) (received : Int → Bool) (j : Nat) : Option Bool :=
  if t.drivesBalls m then
    some (if m = .m5 ∧ t.loop = 3 then t.loopedBit b (farLoopDelay lane) received j else t.sentBit b j)
  else none

/-- R329: bit `j` from E at the transmit balls of lane `l`, given what arrives at its receive balls. -/
def State.testBit (s : State) (l : LaneId) (received : Int → Bool) (j : Nat) : Option Bool :=
  if s.testRuns l then (s.test l).txBit s.mode l (bitsPerTick l s.cfg.hrate) received j else none

/-- R330: how the transmitter of a host lane under test shapes its bits. -/
inductive TestTx
  | preset (p : Fin 11) | plain
  deriving DecidableEq, Repr

/-- R330: preset P4 at 8.0 GT/s and above, no de-emphasis below. -/
def testPreset (r : Rate) : TestTx := if fastRate r then .preset 4 else .plain

/-- R330: the transmitter of a host lane while the lane under test drives its balls. -/
def State.testTransmitter (s : State) (i : Fin 16) : Option TestTx :=
  if s.testRuns (hostLane i) ∧ (s.test (hostLane i)).drivesBalls s.mode then some (testPreset s.cfg.hrate) else none

/-! ### The checker -/

/-- R332, R334: a window of 1,024 compared bits is over: its errors count, and 64 or more lose the lock. -/
def TestLane.window (t : TestLane) (wrong : Nat) : TestLane :=
  { t with
    compared := t.compared + Config.windowBits
    errors := min 0xFFFFFFFF (t.errors + wrong)
    inWindow := 0
    wrong := 0
    losses := if Config.lossBits ≤ wrong then satInc 0xFF t.losses else t.losses
    checker := if Config.lossBits ≤ wrong then .seeking else .locked
    reg := if Config.lossBits ≤ wrong then [] else t.reg
    matched := 0 }

/-- R331: the bit just compared, the latest in `reg`, follows the last of the `burst` injected ones: the generator, in the recorded
state at the first of them, comes to the state in which the register then runs on. -/
def Hold.recognises (n m burst : Nat) (reg : List Bool) (h : Hold) : Bool :=
  decide (prbsRun n m n reg = prbsRun n m (burst + 1) h.state)

/-- R331: a hold whose bit has been compared counts the bits from there. -/
def Hold.seen (n m burst : Nat) (reg : List Bool) (h : Hold) : Hold :=
  if h.after = none ∧ h.recognises n m burst reg then { h with after := some 0 } else h

/-- R331: one more bit received. -/
def Hold.pass (h : Hold) : Hold := { h with after := h.after.map fun k => k + 1 }

/-- R331, R332: one bit received in SEEKING: `n` bits load the register, then 256 matches in a row lock; a mismatch starts the seeding
again with the bit after it. A bit that is not compared only moves the register on. -/
def TestLane.seek (n m : Nat) (t : TestLane) (bit : Bool) : TestLane :=
  if t.reg.length < n then { t with reg := bit :: t.reg, skip := t.skip - 1 }
  else if 0 < t.skip then { t with reg := prbsStep n m t.reg, skip := t.skip - 1 }
  else if bit = prbsNext n m t.reg then
    let t1 := { t with reg := prbsStep n m t.reg, matched := t.matched + 1 }
    if t.matched + 1 = Config.lockBits then { t1 with checker := .locked, matched := 0, inWindow := 0, wrong := 0 } else t1
  else { t with reg := [], matched := 0 }

/-- R331, R332: one bit received in LOCKED: the register runs free, and the bit is compared unless it follows a move too closely. -/
def TestLane.compare (n m : Nat) (t : TestLane) (bit : Bool) : TestLane :=
  let reg := prbsStep n m t.reg
  if 0 < t.skip then { t with reg := reg, skip := t.skip - 1 }
  else
    let wrong := t.wrong + (if bit = prbsNext n m t.reg then 0 else 1)
    let t1 := { t with reg := reg, holds := t.holds.map (Hold.seen n m t.burst reg) }
    if t.inWindow + 1 = Config.windowBits then t1.window wrong else { t1 with inWindow := t.inWindow + 1, wrong := wrong }

/-- R332: one received bit. -/
def TestLane.feed (n m : Nat) (t : TestLane) (bit : Bool) : TestLane :=
  let t1 := { t with holds := t.holds.map Hold.pass }
  match t.checker with
  | .seeking => t1.seek n m bit
  | .locked => t1.compare n m bit
  | .waiting => t1
  | .off => t1

/-- R329: what a checker takes in: in a near-end parallel loop the lane's own stream from where it stands, `b` bits in a tick. -/
def TestLane.stream (m : Mode) (t : TestLane) (b : Nat) (bits : List Bool) : List Bool :=
  if m = .m5 ∧ t.loop = 2 then (List.range bits.length).map fun i => t.sentBit b (t.taken + i) else bits

/-- R331, R332: the bits received on lane `l` pass its checker. -/
def TestLane.take (m : Mode) (b : Nat) (bits : List Bool) (t : TestLane) : TestLane :=
  match prbsTaps t.pattern with
  | some (n, k) => { (t.stream m b bits).foldl (TestLane.feed n k) t with taken := t.taken + bits.length }
  | none => t

/-- R335: an error or a lock loss has been counted. -/
def TestLane.counted (old new : TestLane) : Bool := new.errors != old.errors || new.losses != old.losses

/-- R332, R335: the bits received on lane `l`. -/
def State.takeBits (s : State) (l : LaneId) (bits : List Bool) : State :=
  let t := (s.test l).take s.mode (bitsPerTick l s.cfg.hrate) bits
  { s.modTest l (fun _ => t) with testSeen := s.testSeen || TestLane.counted (s.test l) t }

/-! ### Commands -/

/-- R331: an injection on a self-checking lane records the generator's state at its first bit, `j` bits after E. -/
def TestLane.record (m : Mode) (t : TestLane) (j : Nat) : List Hold :=
  match prbsTaps t.pattern with
  | some (n, k) => if t.selfChecks m then [{ state := prbsAfter n k j, after := none }] else []
  | none => []

/-- TEST_INJECTION (R331, R333): injection k inverts the first L bits at or after E + kP; on a self-checking lane the
bellows holds its moves from here. -/
def execTestInjection (lane : LaneId) (s : State) : Host.Outcome State Fault Refusal :=
  let t := s.test lane
  match t.since, injectionAt t.period (t.injected + 1) with
  | some e, some d =>
    if s.running ∧ t.underTest s.mode ∧ t.transmits s.mode then
      let s1 := s.advanceTo (tickPlus e d)
      .next (s1.modTest lane fun t => { t with
        injected := t.injected + 1, holds := t.holds ++ t.record s.mode (d * bitsPerTick lane s.cfg.hrate) })
    else .next s
  | _, _ => .next s

/-- CHECKER_LOCK (R332): the bits received in SEEKING; 256 matches in a row after seeding lock. -/
def execCheckerLock (rx : LaneBits) (s : State) : Host.Outcome State Fault Refusal :=
  if s.running ∧ (s.test rx.lane).checker = .seeking then .next (s.takeBits rx.lane rx.bits) else .next s

/-- CHECKER_WINDOW_END (R332, R334, R335): the bits received in LOCKED, to the end of a window. -/
def execCheckerWindowEnd (lane : LaneId) (bits : List Bool) (s : State) : Host.Outcome State Fault Refusal :=
  if s.running ∧ (s.test lane).checker = .locked then .next (s.takeBits lane bits) else .next s

/-- R331: a hold is over 1,024 bits after its compare, or `received` bits after its injection when no compare has come. -/
def Hold.over (received : Nat) (h : Hold) : Bool :=
  match h.after with
  | some k => decide (Config.holdBits ≤ k)
  | none => decide (Config.holdLimit ≤ received)

/-- R331: the oldest hold ends. -/
def TestLane.endHold (received : Nat) (t : TestLane) : TestLane :=
  match t.holds with
  | h :: rest => if h.over received then { t with holds := rest } else t
  | [] => t

/-- SELF_CHECK_HOLD_END (R331): the bits received since; the oldest hold ends 1,024 bits after the bit behind its injection has
been compared in LOCKED, or when 2^16 bits have passed without that. -/
def execSelfCheckHoldEnd (lane : LaneId) (bits : List Bool) (received : Nat) (s : State) : Host.Outcome State Fault Refusal :=
  if s.running ∧ !(s.test lane).holds.isEmpty then .next ((s.takeBits lane bits).modTest lane (TestLane.endHold received))
  else .next s

end Sys2Proof.Machine
end

