-- ==== Sys2Proof/Machine/Tap.lean ====
section
/-! DEFINITION. Boundary scan (R52 to R54, R336 to R339): the instructions, what each captures, and what a cell may drive,
with the TAP's commands. Registers are listed from the bit next to TDO, which shifts out first. -/

namespace Sys2Proof.Machine

open Sys2Proof

/-- The bits of a number, least significant first. -/
def bitsOf (n k : Nat) : List Bool := (List.range k).map fun i => n.testBit i

/-- R336: the instruction codes. -/
def TapInstr.code : TapInstr → Nat
  | .extest => 0x00 | .idcode => 0x01 | .samplePreload => 0x02 | .clamp => 0x04 | .highz => 0x05 | .extestPulse => 0x08
  | .extestTrain => 0x09 | .mirror => 0x10 | .lanereport => 0x11 | .bypass => 0xFF

/-- R336: the instruction that a code selects: BYPASS for every code not listed. -/
def TapInstr.ofCode (c : BitVec 8) : TapInstr :=
  (([.extest, .idcode, .samplePreload, .clamp, .highz, .extestPulse, .extestTrain, .mirror, .lanereport] : List TapInstr).find?
    fun i => BitVec.ofNat 8 (TapInstr.code i) = c).getD .bypass

/-- R336: the instruction register captures 0b0000_0001. -/
def irCapture : BitVec 8 := 0b00000001

/-- R337: cells of the boundary register. -/
def boundaryCells : Nat := 1740

/-- R336: version 0x1, part 0x4016, manufacturer field 0x2C7. -/
def idcodeWord : Nat := 0x1401658F

/-- R337: what a boundary cell belongs to. -/
inductive CellKind
  | status (k : Fin 4)                     -- READY, CALSTAT, FAULT_N, LEDGER_N
  | hostTx (l : Fin 16)
  | hostRx (l : Fin 16)
  | refclk
  | sideband (k : Fin 3)                   -- PERST_N, WAKE_N, CLKREQ_N
  | control (n : HearthId) (g : Fin 4)
  | ball (n : HearthId) (k : Fin 100)      -- hearth-block order
  | flueTx (f : FlueId) (l : Fin 8)
  | flueRx (f : FlueId) (l : Fin 8)
  | flueClockOut (f : FlueId)
  | flueClockIn (f : FlueId)
  deriving DecidableEq, Repr

/-- R337: the flue cells from the first of a flue. -/
def flueCell (f : FlueId) (k : Nat) : CellKind :=
  if k < 8 then .flueTx f (Fin.ofNat 8 k)
  else if k < 16 then .flueRx f (Fin.ofNat 8 (k - 8))
  else if k = 16 then .flueClockOut f
  else .flueClockIn f

/-- R337: the order of the cells. -/
def cellKind (i : Nat) : CellKind :=
  if i < 4 then .status (Fin.ofNat 4 i)
  else if i < 20 then .hostTx (Fin.ofNat 16 (i - 4))
  else if i < 36 then .hostRx (Fin.ofNat 16 (i - 20))
  else if i = 36 then .refclk
  else if i < 40 then .sideband (Fin.ofNat 3 (i - 37))
  else if i < 1704 then
    let n : HearthId := Fin.ofNat 16 ((i - 40) / 104)
    let k := (i - 40) % 104
    if k < 4 then .control n (Fin.ofNat 4 k) else .ball n (Fin.ofNat 100 (k - 4))
  else if i < 1722 then flueCell .a (i - 1704)
  else flueCell .b (i - 1722)

/-- R337: the control cell of a hearth ball: HnD; the master's address and control balls; HnACK_N and HnBERR_N; the bridge's
own outputs. An input or island ball has none. -/
def HearthSig.group : HearthSig → Option (Fin 4)
  | .d _ => some 0
  | .a _ => some 1
  | .beN _ => some 1
  | .asN => some 1
  | .dsN => some 1
  | .rw => some 1
  | .rdN => some 1
  | .wrN => some 1
  | .ackN => some 2
  | .berrN => some 2
  | .waitN => some 3
  | .dampN => some 3
  | .breqN => some 3
  | .tapN => some 3
  | .irqoN _ => some 3
  | _ => none

/-- R52, R53, R196, R337: a hearth out of service keeps its balls high-impedance, and so does an unused pad; in each hearth
control value 1 enables drivers. HnIND has an output cell, the other island balls only observe. -/
def State.ballDrives (s : State) (upd : List Bool) (n : HearthId) (k : Fin 100) : Bool :=
  let sig := hearthSig k
  match sig.group with
  | some g =>
    (s.hearth n).slot.pads && (s.dom (padDom n)).isOn && !sig.unused (s.hearth n).cfg && upd.getD (40 + 104 * n.val + g.val) false
  | none => sig = .ind && (s.hearth n).slot.pads

/-- R52, R53, R338, R351: cell `i` drives its ball under EXTEST with the update register `upd`; WAKE_N and CLKREQ_N are open drain
and are driven low or released. -/
def State.cellDrives (s : State) (upd : List Bool) (i : Nat) : Bool :=
  match cellKind i with
  | .status _ => true
  | .hostTx _ => s.mode = .m0 || s.mode = .m3 || s.island.perstLow
  | .sideband k => k.val != 0 && !upd.getD i true
  | .ball n k => s.ballDrives upd n k
  | .flueTx f _ => (s.flue f).st = .disabled
  | .flueClockOut f => (s.flue f).st = .disabled
  | _ => false

/-- R52: cell `i` stands at an output or a bidirectional ball; HnPWREN and HnRSTO_N are only observed. -/
def outputCell (i : Nat) : Bool :=
  match cellKind i with
  | .status _ => true
  | .hostTx _ => true
  | .sideband k => k.val != 0
  | .ball _ k => (hearthSig k).group.isSome || hearthSig k = .ind
  | .flueTx _ _ => true
  | .flueClockOut _ => true
  | _ => false

/-- R336: the boundary outputs have the update register's values: under the EXTEST instructions, and held under CLAMP (PRESUMED, entry
93: R336 names CLAMP and HIGHZ, and IEEE 1149.1 says what they do). -/
def State.scanOutputs (s : State) : Bool := s.scanDrives || s.tap.instr = .clamp

/-- R338, R52, R53: what boundary scan does with the ball of cell `i`; `none` leaves it to the mission logic. A hearth ball whose
control cell is 0, or of a hearth out of service, is high-impedance. HnIND of such a hearth keeps its mission level, for R195 has it
driven in every slot state (DESIGN CHOICE, entry 85: R53 keeps high-impedance a ball that scan would drive). -/
def State.scanOutput (s : State) (i : Nat) : Option Level3 :=
  if s.tap.instr = .highz then (if outputCell i then some .floating else none)
  else if s.scanOutputs then
    if s.cellDrives s.tap.upd i then some (level (s.tap.upd.getD i false))
    else match cellKind i with
      | .ball _ k => if (hearthSig k).group.isSome then some .floating else none
      | .sideband k => if k.val != 0 then some .floating else none
      | _ => none
  else none

/-- R53, R195, R338: the level at ball `k` of hearth `n`, by boundary scan or the mission logic. -/
def State.ballLevel (s : State) (n : HearthId) (k : Fin 100) : Level3 :=
  (s.scanOutput (44 + 104 * n.val + k.val)).getD (s.padLevel n (hearthSig k))

/-- R351: TDO, with the bit that a shift presents, `none` outside the shift states: high-impedance without a supply-valid event. -/
def State.tdo (s : State) (bit : Option Bool) : Level3 :=
  match bit with
  | some b => if s.clk.counting then level b else .floating
  | none => .floating

/-- Capture-DR of the boundary register: control cells capture the update register, all others the level at the ball. -/
def captureBoundary (upd levels : List Bool) : List Bool :=
  (List.range boundaryCells).map fun i =>
    match cellKind i with
    | .control _ _ => upd.getD i false
    | _ => levels.getD i false

/-- R339: the 1,284 Strap Mirror bytes: global straps, then the hearths' in order; byte `i` of the mirror body starts at
offset 0x10. -/
def State.mirrorBits (s : State) : List Bool :=
  (s.straps.globals.toList ++ s.hearths.toList.flatMap fun h => h.balls.toList).flatMap fun b => bitsOf b.byte 8

/-- R339: the 32 lane results, 0 outside M5 and M6. -/
def State.laneBits (s : State) : List Bool :=
  (List.finRange 32).flatMap fun l =>
    if s.mode.tests then bitsOf (s.testDword l false).toNat 32 ++ bitsOf (s.testDword l true).toNat 32 else bitsOf 0 64

/-- R336: an instruction's code is shifted in while the captured pattern is shifted out, and the instruction captures `dr`. -/
def Tap.load (x : Tap) (code : BitVec 8) (dr : List Bool) : Tap :=
  { x with ir := code, irCap := irCapture, instr := TapInstr.ofCode code, dr := dr }

/-- A boundary instruction is selected: the register captures, shifts and updates. -/
def State.boundary (s : State) (i : TapInstr) (levels values : List Bool) : State :=
  { s with tap := { s.tap.load (BitVec.ofNat 8 (TapInstr.code i)) (captureBoundary s.tap.upd levels) with upd := values } }

/-- An instruction that leaves the update register as it is. -/
def State.select (s : State) (i : TapInstr) (dr : List Bool) : State :=
  { s with tap := s.tap.load (BitVec.ofNat 8 (TapInstr.code i)) dr }

/-- EXTEST (R336 to R338, R53, R54). -/
def execExtest (levels values : List Bool) (s : State) : Host.Outcome State Fault Refusal :=
  .next (s.boundary .extest levels values)

/-- IDCODE (R336). -/
def execIdcode (s : State) : Host.Outcome State Fault Refusal := .next (s.select .idcode (bitsOf idcodeWord 32))

/-- SAMPLE/PRELOAD (R336, R337). -/
def execSamplePreload (levels values : List Bool) (s : State) : Host.Outcome State Fault Refusal :=
  .next (s.boundary .samplePreload levels values)

/-- CLAMP (R336): the boundary outputs are held, and the bypass register captures 0. -/
def execClamp (s : State) : Host.Outcome State Fault Refusal := .next (s.select .clamp [false])

/-- HIGHZ (R336): the outputs are high-impedance. -/
def execHighz (s : State) : Host.Outcome State Fault Refusal := .next (s.select .highz [false])

/-- EXTEST_PULSE (R336, R338). -/
def execExtestPulse (levels values : List Bool) (s : State) : Host.Outcome State Fault Refusal :=
  .next (s.boundary .extestPulse levels values)

/-- EXTEST_TRAIN (R336, R338). -/
def execExtestTrain (levels values : List Bool) (s : State) : Host.Outcome State Fault Refusal :=
  .next (s.boundary .extestTrain levels values)

/-- MIRROR (R336, R339). -/
def execMirror (s : State) : Host.Outcome State Fault Refusal := .next (s.select .mirror s.mirrorBits)

/-- LANEREPORT (R336, R339). -/
def execLanereport (s : State) : Host.Outcome State Fault Refusal := .next (s.select .lanereport s.laneBits)

/-- BYPASS (R336): code 0xFF, and every code not listed; a listed code selects its own instruction by its own command. -/
def execBypass (code : BitVec 8) (s : State) : Host.Outcome State Fault Refusal :=
  if TapInstr.ofCode code = .bypass then .next { s with tap := s.tap.load code [false] } else .next s

/-- TEST_LOGIC_RESET (R54, R336): IDCODE is selected, and the bridge resumes. -/
def execTestLogicReset (s : State) : Host.Outcome State Fault Refusal := .next { s with tap := Tap.reset }

end Sys2Proof.Machine
end

