-- ==== Sys2Proof/Machine/Dispatch.lean ====
section
/-! DEFINITION. The effect of each command on everything but the queue: one arm per constructor of `Instr`. -/

namespace Sys2Proof.Machine

open Sys2Proof

def exec (i : Instr) (s : State) : Host.Outcome State Fault Refusal :=
  match i with
  | .supplyValidEvent volts toggles perst => Sys2Proof.Machine.execSupplyValidEvent volts toggles perst s
  | .supplyInvalid volts => Sys2Proof.Machine.execSupplyInvalid volts s
  | .auxOnlyWake volts change => Sys2Proof.Machine.execAuxOnlyWake volts change s
  | .vhearthBankInvalid level => Sys2Proof.Machine.execVhearthBankInvalid level s
  | .vhearthBankValid level => Sys2Proof.Machine.execVhearthBankValid level s
  | .perstAssertion held => Sys2Proof.Machine.execPerstAssertion held s
  | .perstDeassertion held => Sys2Proof.Machine.execPerstDeassertion held s
  | .strapGroupEnd readings => Sys2Proof.Machine.execStrapGroupEnd readings s
  | .ledgerWindowStart => Sys2Proof.Machine.execLedgerWindowStart s
  | .ledgerAdmission => Sys2Proof.Machine.execLedgerAdmission s
  | .domainWakeComplete d => Sys2Proof.Machine.execDomainWakeComplete d s
  | .hearthstoneClearComplete => Sys2Proof.Machine.execHearthstoneClearComplete s
  | .domainIdleExpiry d => Sys2Proof.Machine.execDomainIdleExpiry d s
  | .goingDownEnd d => Sys2Proof.Machine.execGoingDownEnd d s
  | .slotPowerEnable => Sys2Proof.Machine.execSlotPowerEnable s
  | .gateOpen => Sys2Proof.Machine.execGateOpen s
  | .linkTrainingComplete lanes rate inverted terms => Sys2Proof.Machine.execLinkTrainingComplete lanes rate inverted terms s
  | .equalizationPhase2 rate lane edges => Sys2Proof.Machine.execEqualizationPhase2 rate lane edges s
  | .txL0sEntry idle => Sys2Proof.Machine.execTxL0sEntry idle s
  | .aspmL1Request idle => Sys2Proof.Machine.execAspmL1Request idle s
  | .clkreqRelease nextAlarm => Sys2Proof.Machine.execClkreqRelease nextAlarm s
  | .clkreqAssertOnWake event => Sys2Proof.Machine.execClkreqAssertOnWake event s
  | .refclkStop => Sys2Proof.Machine.execRefclkStop s
  | .refclkReturn => Sys2Proof.Machine.execRefclkReturn s
  | .bellowsFrameEnd lane stats => Sys2Proof.Machine.execBellowsFrameEnd lane stats s
  | .acquireFrameEnd lane stats => Sys2Proof.Machine.execAcquireFrameEnd lane stats s
  | .bellowsGap gaps => Sys2Proof.Machine.execBellowsGap gaps s
  | .laneStarved lane => Sys2Proof.Machine.execLaneStarved lane s
  | .tlpTransmit => Sys2Proof.Machine.execTlpTransmit s
  | .ackReceived seq => Sys2Proof.Machine.execAckReceived seq s
  | .nakReceived seq => Sys2Proof.Machine.execNakReceived seq s
  | .replayTimerExpiry => Sys2Proof.Machine.execReplayTimerExpiry s
  | .tlpReceived seq lcrcOk tlp => Sys2Proof.Machine.execTlpReceived seq lcrcOk tlp s
  | .dllpCrcError => Sys2Proof.Machine.execDllpCrcError s
  | .updatefcSend ty => Sys2Proof.Machine.execUpdatefcSend ty s
  | .updatefcPeriodic => Sys2Proof.Machine.execUpdatefcPeriodic s
  | .updatefcReceived cls hdr dat => Sys2Proof.Machine.execUpdatefcReceived cls hdr dat s
  | .configWrite fn off be data bus tag => Sys2Proof.Machine.execConfigWrite fn off be data bus tag s
  | .sootReportRead pos half tag => Sys2Proof.Machine.execSootReportRead pos half tag s
  | .busMasterEnableClear fn => Sys2Proof.Machine.execBusMasterEnableClear fn s
  | .busMasterEnableSet fn => Sys2Proof.Machine.execBusMasterEnableSet fn s
  | .memorySpaceEnableWrite fn value => Sys2Proof.Machine.execMemorySpaceEnableWrite fn value s
  | .interruptDisableWrite fn value => Sys2Proof.Machine.execInterruptDisableWrite fn value s
  | .powerStateWrite fn state => Sys2Proof.Machine.execPowerStateWrite fn state s
  | .ltrMechanismEnableWrite fn value => Sys2Proof.Machine.execLtrMechanismEnableWrite fn value s
  | .tenBitTagEnableWrite fn value => Sys2Proof.Machine.execTenBitTagEnableWrite fn value s
  | .extendedTagEnableWrite fn value => Sys2Proof.Machine.execExtendedTagEnableWrite fn value s
  | .initiateFlr h => Sys2Proof.Machine.execInitiateFlr h s
  | .hearthResetRelease n => Sys2Proof.Machine.execHearthResetRelease n s
  | .flrComplete h => Sys2Proof.Machine.execFlrComplete h s
  | .flrFunction0 => Sys2Proof.Machine.execFlrFunction0 s
  | .flrFunction0Complete => Sys2Proof.Machine.execFlrFunction0Complete s
  | .linkReset cause => Sys2Proof.Machine.execLinkReset cause s
  | .memoryReadBar0 h req => Sys2Proof.Machine.execMemoryReadBar0 h req s
  | .memoryWriteBar0 h req => Sys2Proof.Machine.execMemoryWriteBar0 h req s
  | .memoryReadBar2 req => Sys2Proof.Machine.execMemoryReadBar2 req s
  | .memoryWriteBar2 req => Sys2Proof.Machine.execMemoryWriteBar2 req s
  | .completionReceived tag status poisoned data fn hdr => Sys2Proof.Machine.execCompletionReceived tag status poisoned data fn hdr s
  | .pmeTurnOff => Sys2Proof.Machine.execPmeTurnOff s
  | .setSlotPowerLimit value => Sys2Proof.Machine.execSetSlotPowerLimit value s
  | .vendorDefinedType1 => Sys2Proof.Machine.execVendorDefinedType1 s
  | .completionTimeout tag => Sys2Proof.Machine.execCompletionTimeout tag s
  | .hostRequestDeadline id => Sys2Proof.Machine.execHostRequestDeadline id s
  | .hearthCycleStart n st => Sys2Proof.Machine.execHearthCycleStart n st s
  | .hearthCycleWithdraw n => Sys2Proof.Machine.execHearthCycleWithdraw n s
  | .hearthStrobeRelease n => Sys2Proof.Machine.execHearthStrobeRelease n s
  | .waitAssert n => Sys2Proof.Machine.execWaitAssert n s
  | .busRequest n => Sys2Proof.Machine.execBusRequest n s
  | .busGrant n lines => Sys2Proof.Machine.execBusGrant n lines s
  | .targetResponse n ack berr data => Sys2Proof.Machine.execTargetResponse n ack berr data s
  | .grantWithdrawn n => Sys2Proof.Machine.execGrantWithdrawn n s
  | .watchdogTargetResponse n => Sys2Proof.Machine.execWatchdogTargetResponse n s
  | .watchdogStrobeRelease n => Sys2Proof.Machine.execWatchdogStrobeRelease n s
  | .watchdogGrant n => Sys2Proof.Machine.execWatchdogGrant n s
  | .watchdogMasterResponse n => Sys2Proof.Machine.execWatchdogMasterResponse n s
  | .lockIdleExpiry n => Sys2Proof.Machine.execLockIdleExpiry n s
  | .lockRelease n => Sys2Proof.Machine.execLockRelease n s
  | .irqInputChange n input low held => Sys2Proof.Machine.execIrqInputChange n input low held s
  | .sinkUpdate => Sys2Proof.Machine.execSinkUpdate s
  | .reloadRequest n held => Sys2Proof.Machine.execReloadRequest n held s
  | .reloadSamplingStart n => Sys2Proof.Machine.execReloadSamplingStart n s
  | .reloadDrainExpiry n => Sys2Proof.Machine.execReloadDrainExpiry n s
  | .reloadApply n readings => Sys2Proof.Machine.execReloadApply n readings s
  | .pgoodFall n => Sys2Proof.Machine.execPgoodFall n s
  | .pgoodRise n held => Sys2Proof.Machine.execPgoodRise n held s
  | .presenceFall n held => Sys2Proof.Machine.execPresenceFall n held s
  | .presenceRise n held => Sys2Proof.Machine.execPresenceRise n held s
  | .attnPress n held => Sys2Proof.Machine.execAttnPress n held s
  | .drainWorkDone n => Sys2Proof.Machine.execDrainWorkDone n s
  | .drainExpiry n => Sys2Proof.Machine.execDrainExpiry n s
  | .drainRemovable n => Sys2Proof.Machine.execDrainRemovable n s
  | .resampleStart => Sys2Proof.Machine.execResampleStart s
  | .resampleEnd readings => Sys2Proof.Machine.execResampleEnd readings s
  | .indicatorBlink n => Sys2Proof.Machine.execIndicatorBlink n s
  | .switchGrant => Sys2Proof.Machine.execSwitchGrant s
  | .sampleRecordSend => Sys2Proof.Machine.execSampleRecordSend s
  | .bankBeat => Sys2Proof.Machine.execBankBeat s
  | .pieceReceived f fault blk => Sys2Proof.Machine.execPieceReceived f fault blk s
  | .xoffExit f cls => Sys2Proof.Machine.execXoffExit f cls s
  | .receiptReceived r => Sys2Proof.Machine.execReceiptReceived r s
  | .flowReceived f xoff => Sys2Proof.Machine.execFlowReceived f xoff s
  | .backoffReceived src port tag => Sys2Proof.Machine.execBackoffReceived src port tag s
  | .levelsReceived src blk => Sys2Proof.Machine.execLevelsReceived src blk s
  | .reportReceived src report off dwords last => Sys2Proof.Machine.execReportReceived src report off dwords last s
  | .funcReceived blk => Sys2Proof.Machine.execFuncReceived blk s
  | .trainReceived f => Sys2Proof.Machine.execTrainReceived f s
  | .flueTrainingComplete f adv => Sys2Proof.Machine.execFlueTrainingComplete f adv s
  | .flueDownTimeout f => Sys2Proof.Machine.execFlueDownTimeout f s
  | .flueTrainingTimeout f => Sys2Proof.Machine.execFlueTrainingTimeout f s
  | .clockInLost f otherToggles => Sys2Proof.Machine.execClockInLost f otherToggles s
  | .clockReturn f periods => Sys2Proof.Machine.execClockReturn f periods s
  | .reportSend => Sys2Proof.Machine.execReportSend s
  | .funcRepeat => Sys2Proof.Machine.execFuncRepeat s
  | .flueHoldExpiry id => Sys2Proof.Machine.execFlueHoldExpiry id s
  | .testInjection lane => Sys2Proof.Machine.execTestInjection lane s
  | .checkerLock rx => Sys2Proof.Machine.execCheckerLock rx s
  | .checkerWindowEnd lane bits => Sys2Proof.Machine.execCheckerWindowEnd lane bits s
  | .selfCheckHoldEnd lane bits received => Sys2Proof.Machine.execSelfCheckHoldEnd lane bits received s
  | .extest levels values => Sys2Proof.Machine.execExtest levels values s
  | .idcode => Sys2Proof.Machine.execIdcode s
  | .samplePreload levels values => Sys2Proof.Machine.execSamplePreload levels values s
  | .clamp => Sys2Proof.Machine.execClamp s
  | .highz => Sys2Proof.Machine.execHighz s
  | .extestPulse levels values => Sys2Proof.Machine.execExtestPulse levels values s
  | .extestTrain levels values => Sys2Proof.Machine.execExtestTrain levels values s
  | .mirror => Sys2Proof.Machine.execMirror s
  | .lanereport => Sys2Proof.Machine.execLanereport s
  | .bypass code => Sys2Proof.Machine.execBypass code s
  | .testLogicReset => Sys2Proof.Machine.execTestLogicReset s
  | .vauxValid => Sys2Proof.Machine.execVauxValid s
  | .receiverError => Sys2Proof.Machine.execReceiverError s
  | .marginCommand lane cmd => Sys2Proof.Machine.execMarginCommand lane cmd s
  | .l1Entry sub => Sys2Proof.Machine.execL1Entry sub s
  | .l1Exit => Sys2Proof.Machine.execL1Exit s
  | .receiveL0sChange enter => Sys2Proof.Machine.execReceiveL0sChange enter s
  | .advertisementReceived f adv => Sys2Proof.Machine.execAdvertisementReceived f adv s
  | .targetResponseRelease n => Sys2Proof.Machine.execTargetResponseRelease n s
  | .clkreqAssertOnAlarm nextAlarm => Sys2Proof.Machine.execClkreqAssertOnAlarm nextAlarm s

end Sys2Proof.Machine
end

