-- ==== Sys2Proof/Safety.lean ====
section
/-! DEFINITION. What statements mean by a state that keeps the spec's promises: the invariants of single parts. -/

namespace Sys2Proof.Machine

open Sys2Proof

/-- R88, R261: the hearthstone's list of bytes is canonical. -/
def stoneOk (s : State) : Prop := Memory.wf s.stone = true

/-- R103: the balance is never above B. -/
def balanceOk (l : Ledger) : Prop := l.balance ≤ l.budget

/-- R191, R192: the Soot Report's counters saturate at 16 bits. -/
def sootOk (x : Soot) : Prop := x.faults ≤ 0xFFFF ∧ x.flueEvents ≤ 0xFFFF

/-- R270: at most 16 records wait. -/
def samplerOk (x : Sampler) : Prop := x.queue.length ≤ 16

def Counts (l : Ledger) (x : Soot) (y : Sampler) : Prop := balanceOk l ∧ sootOk x ∧ samplerOk y

/-- The ledger's balance, the Soot Report's counters and the sampler's queue are within their bounds. -/
def countsOk (s : State) : Prop := Counts s.ledger s.soot s.sampler

/-- Every host request was numbered from the counter of the state, and no two alike. -/
def idsOk (s : State) : Prop := (∀ r ∈ s.reqs, r.id < s.nextId) ∧ (s.reqs.map (·.id)).Nodup

/-- R310: function `d` is `c` with the uncorrectable error of status bit `bit` recorded. A case of Advisory Non-Fatal sets its
correctable bit, and the uncorrectable one only where that is not masked. -/
def uncRecorded (c d : FnCfg) (bit : Nat) (advisory : Bool) : Prop :=
  (advisory = false ∨ c.uncSev.getLsbD bit = true → d.uncSta = c.uncSta ||| bitOf 32 bit) ∧
  (advisory = true → c.uncSev.getLsbD bit = false → d.corSta = c.corSta ||| 0x2000 ∧
    d.uncSta = if c.corMask.getLsbD 13 then c.uncSta else c.uncSta ||| bitOf 32 bit)

/-! ### How a hearth cycle goes on -/

/-- R204: the cycle of hearth `n` is answered with HnDAMP_N and leaves no item. -/
def backedOff (s t : State) (n : HearthId) : Prop :=
  (t.hearth n).dampLow = true ∧ (t.hearth n).ackLow = false ∧ (t.hearth n).berrLow = false ∧
    (∀ i, ∀ it ∈ vget t.items.slots i, it ∈ vget s.items.slots i) ∧ t.items.host = s.items.host ∧ t.items.service = s.items.service

/-- R236: the cycle `c` of hearth `n` ends under the far-side error mode of its window; it is not acknowledged under EXTEST (R338). -/
def farEnded (s t : State) (n : HearthId) (c : Cycle) : Prop :=
  (c.win.errResp = true → (t.hearth n).berrLow = true) ∧
    (c.win.errResp = false → c.read = false → s.scanDrives = false → (t.hearth n).ackLow = true) ∧
    (c.win.errResp = false → c.read = true → ∃ d, (t.hearth n).hd = some d ∧
      ∀ i, i < 8 * (s.hearth n).cfg.lanes → i < 32 → d.getLsbD i = true)

/-- R231, R234: the cycle `c` of hearth `n` is PAYING: the last item of the hearth's slot, of `cost` embers, carries its piece
toward port `dst`. Its lock, if it is locked, is taken (R265). -/
def paysItem (s t : State) (n : HearthId) (c : Cycle) (cost : Nat) (dst : PortId) : Prop :=
  (t.hearth n).cyc = some { c with phase := .paying } ∧ t.items.host = s.items.host ∧ t.items.service = s.items.service ∧
    t.soot = s.soot ∧ t.fns = s.fns ∧
    (c.locked = true → ∃ l, (t.hearth n).lock = some l ∧ ((s.hearth n).lock = none →
      l = { scope := s.lockScope c.win ((c.bytes.head?.map (·.1)).getD 0), last := none, contested := false })) ∧
    ∃ it p, vget t.items.slots (hearthSlot n) = vget s.items.slots (hearthSlot n) ++ [it] ∧ it.cost = cost ∧ it.port = hearthPort n ∧
      it.work = .piece p ∧ p.dst = dst ∧ p.src = hearthPort n ∧ p.cls = c.cls ∧ p.key = (s.hearth n).cfg.ktag ∧ p.bytes = c.bytes

/-! ### What work in progress leaves alone -/

/-- A hearth but for its open or unanswered cycle, the response lines, the data driven, HnTAP_N, the locks on its bus, the posted writes on their
way and the jobs and strobe of its bus. -/
def Hearth.steady (h : Hearth) : Hearth :=
  { h with cyc := none, strobeStuck := false, waitLow := false, waitNoClock := false, rising := none, ackLow := false, berrLow := false, dampLow := false, hd := none, tapTill := none,
           lock := none, farLock := none, farMasked := [], lockMasked := false, posted := [], bus := { h.bus with jobs := [], strobe := none } }

/-- A function but for what an error or an interrupt records: the Status register, the AER status bits with the header log,
and PME_Status. -/
def FnCfg.steady (c : FnCfg) : FnCfg :=
  { c with status := 0, devsta := 0, uncSta := 0, corSta := 0, hdrLog := noHeader, firstErr := 0, pmeStatus := false }

/-- A flue end but for its tags in use and the blocks it has to send. -/
def Flue.steady (x : Flue) : Flue := { x with tags := [], out := [] }

/-- The steady parts of the hearths and of the functions. -/
@[irreducible] def steadyHearths (v : Vector Hearth 16) : Vector Hearth 16 := vmap (fun _ h => h.steady) v
@[irreducible] def steadyFns (v : Vector FnCfg 65) : Vector FnCfg 65 := vmap (fun _ c => c.steady) v

/-- Everything that the progress of a cycle, a request, an interrupt change or a message leaves alone. -/
structure Standing where
  pending : List Instr
  clk : Clock
  island : Island
  straps : Straps
  mode : Mode
  strapMode : Mode
  slotPower : Bool
  gate : Bool
  readyOnce : Bool
  cfg : GlobalCfg
  prot : Prot
  doms : Vector DomState 162
  ledger : Ledger
  link : HostLink
  dll : Dll
  tags : List HostTag
  fns : Vector FnCfg 65
  hearths : Vector Hearth 16
  stone : List Host.Cell
  flueA : Flue
  flueB : Flue
  lanes : Vector Lane 32
  tapMoves : BitVec 32
  tests : Vector TestLane 32
  testSeen : Bool
  tap : Tap
  faultPrev : Bool
  deriving DecidableEq, Repr

/-- The standing part of a state: queue, clock, supplies, straps, modes, settings, protection, domains, ledger, host link,
data link, tags in flight, functions, hearths, hearthstone bytes, flue ends, lanes, tests and TAP. -/
def State.standing (s : State) : Standing :=
  { pending := s.pending, clk := s.clk, island := s.island, straps := s.straps, mode := s.mode, strapMode := s.strapMode,
    slotPower := s.slotPower, gate := s.gate, readyOnce := s.readyOnce, cfg := s.cfg, prot := s.prot, doms := s.doms,
    ledger := s.ledger, link := s.link, dll := s.dll, tags := s.tags, fns := steadyFns s.fns,
    hearths := steadyHearths s.hearths, stone := s.stone, flueA := s.flueA.steady, flueB := s.flueB.steady,
    lanes := s.lanes, tapMoves := s.tapMoves, tests := s.tests, testSeen := s.testSeen, tap := s.tap,
    faultPrev := s.faultPrev }

end Sys2Proof.Machine
end

