-- ==== Sys2Proof/WellFormed.lean ====
section
/-! DEFINITION. Well-formed commands: the operands have the shape the spec gives the event. `exec` is total on ill-formed
ones too; statements name the check they need. -/

namespace Sys2Proof

/-- R137, R138: the statistics of a frame: 64 bins, no more edges than bits, counts that add up. -/
def FrameStats.wf (f : FrameStats) : Bool :=
  decide (f.edges.length = 64) && decide (0 < f.ones + f.zeros) && decide (f.edges.sum ≤ f.ones + f.zeros) &&
    decide (f.onesAfterOne ≤ f.afterOne) && decide (f.onesAfterZero ≤ f.afterZero) &&
    decide (f.afterOne + f.afterZero ≤ f.ones + f.zeros)

/-- R126: one histogram of 64 bins for each of the 11 presets and 16 CTLE values. -/
def histogramsWf (l : List (List Nat)) : Bool := decide (l.length = 176) && l.all fun h => decide (h.length = 64)

/-- R160: a memory request of 1 to 4,096 bytes, with a payload only as long as the request. -/
def MemReq.wf (q : MemReq) (read : Bool) : Bool :=
  decide (0 < q.len ∧ q.len ≤ 4096) && decide (q.be.length ≤ q.len) &&
    (if read then q.data.isEmpty else decide (q.data.length = q.len))

/-- The numbers of a TLP's fields: a tag of 10 bits, a length of at most 4,096 bytes and a payload no longer than it. -/
def Tlp.wf (t : Tlp) : Bool := decide (t.tag < 1024) && decide (t.len ≤ 4096) && decide (t.data.length ≤ 4096)

/-- The addresses of a list rise strictly. -/
def risingBytes : List (Nat × Byte) → Bool
  | [] => true
  | [_] => true
  | a :: b :: rest => decide (a.1 < b.1) && risingBytes (b :: rest)

/-- R290: a PIECE block: at most 64 bytes, ascending, and a tag of 10 bits. -/
def PieceBlk.wf (b : PieceBlk) : Bool := decide (b.bytes.length ≤ 64) && risingBytes b.bytes && decide (b.tag < 1024)

/-- R199: a data strobe falls. -/
def Strobe.wf (st : Strobe) : Bool := st.rd || st.wr

/-- R336: the codes of the named instructions do not select BYPASS. -/
def bypassCode (c : BitVec 8) : Bool := !([0x00, 0x01, 0x02, 0x04, 0x05, 0x08, 0x09, 0x10, 0x11] : List (BitVec 8)).contains c

/-- R331, R332: at most 2^16 bits of a lane in one command. -/
def bitsWf (l : List Bool) : Bool := decide (l.length ≤ 2 ^ 16)

/-- R337: levels and values of a boundary register. -/
def boundaryWf (levels values : List Bool) : Bool := decide (levels.length = 1740) && decide (values.length = 1740)

/-- R56: 300 readings of the convert phase. -/
def Reading.wf (r : Reading) : Bool := decide (r.convertUv.length = 300)

/-- At most `n` readings, each with its 300 values. -/
def readingsWf (n : Nat) (l : List Reading) : Bool := decide (l.length ≤ n) && l.all Reading.wf

/-- Well-formed commands. -/
def Instr.wf : Instr → Bool
  | .strapGroupEnd r => readingsWf 35 r
  | .equalizationPhase2 r _ e => histogramsWf e && decide (r ≠ .g2p5 ∧ r ≠ .g5)
  | .bellowsFrameEnd _ f => f.wf
  | .acquireFrameEnd _ f => f.wf
  | .tlpReceived _ _ t => t.wf
  | .configWrite _ off _ _ _ tag => decide (off.val % 4 = 0) && decide (tag < 1024)
  | .sootReportRead _ _ tag => decide (tag < 1024)
  | .memoryReadBar0 _ q => q.wf true
  | .memoryWriteBar0 _ q => q.wf false
  | .memoryReadBar2 q => q.wf true
  | .memoryWriteBar2 q => q.wf false
  | .completionReceived tag _ _ d _ _ => decide (tag < 1024) && decide (d.length ≤ 4096)
  | .hearthCycleStart _ st => st.wf
  | .reloadApply _ r => readingsWf 34 r
  | .resampleEnd r => readingsWf 34 r
  | .pieceReceived _ _ b => b.wf
  | .reportReceived _ _ off d _ => decide (d.length = 14) && decide (off < 1024)
  | .checkerLock x => bitsWf x.bits
  | .checkerWindowEnd _ l => bitsWf l
  | .selfCheckHoldEnd _ l _ => bitsWf l
  | .extest l v => boundaryWf l v
  | .samplePreload l v => boundaryWf l v
  | .extestPulse l v => boundaryWf l v
  | .extestTrain l v => boundaryWf l v
  | .bypass c => bypassCode c
  | .linkTrainingComplete lanes _ _ terms => decide (lanes ≠ 0) && decide (terms.asked.length ≤ 16)
  | .supplyValidEvent _ t l => decide (l.length = t.periods)
  | .supplyInvalid _ => true
  | .auxOnlyWake _ _ => true
  | .vhearthBankInvalid _ => true
  | .vhearthBankValid _ => true
  | .perstAssertion _ => true
  | .perstDeassertion _ => true
  | .ledgerWindowStart => true
  | .ledgerAdmission => true
  | .domainWakeComplete _ => true
  | .hearthstoneClearComplete => true
  | .domainIdleExpiry _ => true
  | .goingDownEnd _ => true
  | .slotPowerEnable => true
  | .gateOpen => true
  | .txL0sEntry _ => true
  | .aspmL1Request _ => true
  | .clkreqRelease _ => true
  | .clkreqAssertOnWake _ => true
  | .refclkStop => true
  | .refclkReturn => true
  | .bellowsGap _ => true
  | .laneStarved _ => true
  | .tlpTransmit => true
  | .ackReceived _ => true
  | .nakReceived _ => true
  | .replayTimerExpiry => true
  | .dllpCrcError => true
  | .updatefcSend _ => true
  | .updatefcPeriodic => true
  | .updatefcReceived _ _ _ => true
  | .busMasterEnableClear _ => true
  | .busMasterEnableSet _ => true
  | .memorySpaceEnableWrite _ _ => true
  | .interruptDisableWrite _ _ => true
  | .powerStateWrite _ _ => true
  | .ltrMechanismEnableWrite _ _ => true
  | .tenBitTagEnableWrite _ _ => true
  | .extendedTagEnableWrite _ _ => true
  | .initiateFlr _ => true
  | .hearthResetRelease _ => true
  | .flrComplete _ => true
  | .flrFunction0 => true
  | .flrFunction0Complete => true
  | .linkReset _ => true
  | .pmeTurnOff => true
  | .setSlotPowerLimit _ => true
  | .vendorDefinedType1 => true
  | .completionTimeout _ => true
  | .hostRequestDeadline _ => true
  | .hearthCycleWithdraw _ => true
  | .hearthStrobeRelease _ => true
  | .waitAssert _ => true
  | .busRequest _ => true
  | .busGrant _ _ => true
  | .targetResponse _ _ _ _ => true
  | .grantWithdrawn _ => true
  | .watchdogTargetResponse _ => true
  | .watchdogStrobeRelease _ => true
  | .watchdogGrant _ => true
  | .watchdogMasterResponse _ => true
  | .lockIdleExpiry _ => true
  | .lockRelease _ => true
  | .irqInputChange _ _ _ _ => true
  | .sinkUpdate => true
  | .reloadRequest _ _ => true
  | .reloadSamplingStart _ => true
  | .reloadDrainExpiry _ => true
  | .pgoodFall _ => true
  | .pgoodRise _ _ => true
  | .presenceFall _ _ => true
  | .presenceRise _ _ => true
  | .attnPress _ _ => true
  | .drainWorkDone _ => true
  | .drainExpiry _ => true
  | .drainRemovable _ => true
  | .resampleStart => true
  | .indicatorBlink _ => true
  | .switchGrant => true
  | .sampleRecordSend => true
  | .bankBeat => true
  | .xoffExit _ _ => true
  | .receiptReceived _ => true
  | .flowReceived _ _ => true
  | .backoffReceived _ _ _ => true
  | .levelsReceived _ _ => true
  | .funcReceived _ => true
  | .trainReceived _ => true
  | .flueTrainingComplete _ _ => true
  | .flueDownTimeout _ => true
  | .flueTrainingTimeout _ => true
  | .clockInLost _ _ => true
  | .clockReturn _ _ => true
  | .reportSend => true
  | .funcRepeat => true
  | .flueHoldExpiry _ => true
  | .testInjection _ => true
  | .idcode => true
  | .clamp => true
  | .highz => true
  | .mirror => true
  | .lanereport => true
  | .testLogicReset => true
  | .vauxValid => true
  | .receiverError => true
  | .marginCommand _ _ => true
  | .l1Entry _ => true
  | .l1Exit => true
  | .receiveL0sChange _ => true
  | .advertisementReceived _ _ => true
  | .targetResponseRelease _ => true
  | .clkreqAssertOnAlarm _ => true

end Sys2Proof
end

