-- ==== Sys2Proof/Certificates/Slice0/Obligations.lean ====
section
/-! DEFINITION. The statements about the bridge, one definition for each obligation. `State.standing` and the other
`steady` projections (Sys2Proof/Safety.lean) are what work in progress leaves alone: a statement's clause on `standing` says
which of its parts a command changes. A command of an event at a fixed tick brings the clock to that tick (`advanceTo`,
`advanceTS`; the model's choice, entry 1 of the assumption log). -/

open Sys2Proof Sys2Proof.Machine

/-! ### The machine as a whole -/

/-- One step takes the command at the front of the queue and runs it on the state with the rest of the queue. -/
def Obligations.StepRunsFrontCommand : Prop :=
  ∀ (c : Instr) (rest : List Instr) (s : State), step { s with pending := c :: rest } = exec c { s with pending := rest }

/-- On an empty queue one tick passes (the model's choice, entry 1): the tally counts by one modulo 2^48 (R8, R10), what
lasts one tick ends, a domain under the idle rule that has work is in use (R98) and the last use of another stands, but that a
tick 2^47 ticks back is followed (R10), CLKREQ_N stays released only while the
bridge is quiescent (R132), and the blocks of the flues leave (R292). Of each hearth: read data driven in the tick before
become the response (R201), but for the acknowledgment under boundary scan (R338); the data of a beat are driven (R262);
HnBREQ_N of a bus let go rises (R208); a POWERING hearth whose HnPGOOD is counted high enters SAMPLING and joins the queue of
resamples, and only so does a slot state change (R214). Nothing else changes at all. With the clock stopped, absent or not yet
counting nothing changes (R78, R133, R297). -/
def Obligations.EmptyQueueTicks : Prop :=
  ∀ (s t : State) (enters : HearthId → Bool) (now : Tally), s.pending = [] → t = s.tick →
    (∀ n, enters n = ((s.hearth n).slot = .powering && (s.hearth n).pgood)) → now = s.clk.tally + 1 →
    step s = .next t ∧ (s.running = false → t = s) ∧
    (s.running = true →
      (∀ d, t.dom d = match s.dom d with
        | .on last => if (Config.idlePeriod d.val).isSome = true ∧ s.domBusy d = true then .on now else .on (followTick now last)
        | x => x) ∧
      (∀ n, t.hearth n = { (s.hearth n).tick s.scanDrives now with slot := if enters n then .sampling else (s.hearth n).slot }) ∧
      (∀ n, (t.hearth n).rising = none ∧ (t.hearth n).balls = (s.hearth n).balls ∧ (t.hearth n).cfg = (s.hearth n).cfg ∧
        (t.hearth n).bus = { (s.hearth n).bus with
          breqLow := (s.hearth n).bus.breqLow && (s.hearth n).bus.breqFrom.isNone, breqFrom := (t.hearth n).bus.breqFrom } ∧
        ((s.hearth n).cyc = none → (t.hearth n).cyc = none ∧ (t.hearth n).hd = (s.hearth n).hd) ∧
        (∀ c, (s.hearth n).cyc = some c →
          (c.phase = .driving → s.scanDrives = false → (t.hearth n).cyc = some { c with phase := .answered .ack now } ∧
            (t.hearth n).ackLow = true ∧ (t.hearth n).waitLow = false ∧ (t.hearth n).hd = (s.hearth n).hd) ∧
          (∀ d, c.phase ≠ .driving ∨ s.scanDrives = true → c.fetched = some d → (t.hearth n).hd = some d ∧
            (t.hearth n).cyc = some { c with phase := .driving, rdata := d, fetched := none }) ∧
          (c.phase ≠ .driving ∨ s.scanDrives = true → c.fetched = none → (t.hearth n).cyc = some c ∧
            (t.hearth n).hd = (s.hearth n).hd ∧ (t.hearth n).ackLow = (s.hearth n).ackLow))) ∧
      t = { s with
        clk := { s.clk with tally := now }
        wake := allHearths.any enters
        upNow := []
        doms := t.doms
        link := { s.link with clkreqReleased := s.link.clkreqReleased && s.quiet && !s.wake }
        ledger := { s.ledger with low := s.anyHeld, lowSeen := s.ledger.lowSeen || s.anyHeld }
        dll := { s.dll with ackDue := false }
        lockEnds := []
        sampler := { s.sampler with taken := false }
        hearths := t.hearths
        straps := { s.straps with
          resampleQ := s.straps.resampleQ ++ allHearths.filter fun n => enters n && !s.straps.resampleQ.contains n
          free := followTick now s.straps.free }
        flueA := { s.flueA with out := [], sinceFill := t.flueA.sinceFill }
        flueB := { s.flueB with out := [], sinceFill := t.flueB.sinceFill }
        chim := { s.chim with reportTick := followTick now s.chim.reportTick, funcTick := followTick now s.chim.funcTick }
        faultPrev := s.faultCond } ∧
      (∀ f, (t.flue f).sinceFill = if ((s.flue f).sends s.fillerBound).contains .filler = true
        then (((s.flue f).out.map FlueBlk.blocks).sum) else (s.flue f).sinceFill + ((s.flue f).out.map FlueBlk.blocks).sum))

/-- Every command, in every state, answers a next state (none stops with a fault or a refusal), and leaves the queue of
waiting commands as it is. -/
def Obligations.EveryCommandCompletes : Prop :=
  ∀ (c : Instr) (s : State), ∃ t : State, exec c s = .next t ∧ t.pending = s.pending

/-- R17 to R20, R78, R80: the operating mode changes at the end of a strap group, at the supply-valid event and when the
voltage of a supply is sensed (a loss of supply), and at no other command. -/
def Obligations.ModeChangesOnlyThere : Prop :=
  ∀ (c : Instr) (s t : State), exec c s = .next t → t.mode ≠ s.mode →
    (∃ r, c = .strapGroupEnd r) ∨ (∃ v g p, c = .supplyValidEvent v g p) ∨ (∃ v, c = .supplyInvalid v) ∨
      (∃ v x, c = .auxOnlyWake v x)

/-- R88, R101, R262, R267: a byte of the hearthstone changes at a beat of a bank, at the end of a clear, and where every unit
leaves service with a locked write captured, which is performed whole (PERST_N asserted or a member's clock lost), and at no
other command while the supplies are valid; what a loss of supply leaves is the model's choice (entry 3). -/
def Obligations.HearthstoneChangesOnlyThere : Prop :=
  ∀ (c : Instr) (s t : State) (a : Nat), exec c s = .next t → stoneRead t.stone a ≠ stoneRead s.stone a →
    c = .bankBeat ∨ c = .hearthstoneClearComplete ∨ (s.lockedStores ≠ [] ∧ ((∃ k, c = .perstAssertion k) ∨ ∃ f b, c = .clockInLost f b)) ∨
      (∃ v g p, c = .supplyValidEvent v g p) ∨ (∃ v, c = .supplyInvalid v) ∨ (∃ v x, c = .auxOnlyWake v x)

/-- Every step keeps the hearthstone's canonical form (R261), the ledger's balance at or below B (R103), the Soot Report's
counters within 16 bits (R191, R192), at most 16 queued sample records (R270), and host requests told apart by numbers below
the next one to give, no two of them alike (the number is the model's own, entry 4). -/
def Obligations.InvariantKept : Prop :=
  ∀ s t : State, stoneOk s → countsOk s → idsOk s → step s = .next t → stoneOk t ∧ countsOk t ∧ idsOk t

/-- The state after reset: the invariant holds, and the machine stands at T_S = tally 0 with every hearth PARKED, the
ledger CLOSED, D158, D159 and D161 the only domains ON, the clear mark set, group 0 of the sequence begun, and no request, item,
TLP or piece anywhere (R78, R87, R88, R105, R213, R315). That reset is this supply-valid event is the model's choice (entry 2),
and so is M7 as the mode before the end of group 0 (entry 8). -/
def Obligations.ResetState : Prop :=
  stoneOk State.reset ∧ countsOk State.reset ∧ idsOk State.reset ∧ State.reset.pending = [] ∧ State.reset.clk.tally = 0 ∧
    State.reset.clk.tS = 0 ∧ State.reset.running = true ∧ State.reset.mode = .m7 ∧ State.reset.straps.seq = some 0 ∧
    (∀ n, (State.reset.hearth n).slot = .parked) ∧ State.reset.ledger.st = .closed ∧
    (∀ d, State.reset.dom d = if d.val = 158 ∨ d.val = 159 ∨ d.val = 161 then .on 0 else .off) ∧ State.reset.island.clearMark = true ∧
    State.reset.waitingItems = [] ∧ State.reset.items.admitted = [] ∧ State.reset.reqs = [] ∧ State.reset.txq = [] ∧
    State.reset.tags = [] ∧ (∀ p, vget State.reset.sw.q p = []) ∧ (∀ f, State.reset.fn f = FnCfg.reset)

/-! ### Supplies, PERST_N -/

/-- R76, R78, R79, R84, R88, R213: the 1,000th period with all six supplies sensed valid, of the first clock to toggle, is
tally 0. PERST_N is filtered through those periods: the filter starts at the ball's level in the first, and 16 consecutive
periods of the other level change it. With PERST_N filtered high it is T_S and the sequence begins; with PERST_N low the
sequence is abandoned in the same tick. Everything outside the always-on island is at its reset value; the clear mark is set.
The mode is M7 until group 0 ends (the model's choice, entry 8). With fewer periods, no clock or a
running tally, the island senses the voltages and nothing else changes. A supply is valid above its rising threshold and
invalid below its falling one; of clocks that begin in one period REFCLK goes first, then Flue A. R80, R81: when one of the
six supplies becomes invalid every unit outside the always-on island is lost and no tick passes; without VAUX the island
loses the S_HAUX code, WAKE_N is released and the TAP resets, else the island keeps them with the levels of the slots'
inputs (that the island keeps the TAP is the model's choice, entry 50). R81: while VAUX is valid and another of the six supplies is not, a change of level of HnPRES_N or a press drives
WAKE_N low when the kept S_HAUX code is 1 or 15; otherwise WAKE_N keeps its level. Nothing else changes but that level and
what the island senses. When VAUX becomes valid the island holds no S_HAUX code yet. -/
def Obligations.SupplyEvents : Prop :=
  (∀ (v : Volts) (g : Toggles) (perst : List Bool) (perstLow : Bool) (s : State), perstLow = perstAtZero perst →
     (∀ clock, s.clk.counting = false → 1000 ≤ g.periods → (s.island.sense v).supplies = true → Toggles.first g = some clock →
       ∃ t, exec (.supplyValidEvent v g perst) s = .next t ∧
       t.clk = { tally := 0, counting := true, stopped := false, source := clock, tS := 0, live := !perstLow, memberLost := false,
                 toggleA := g.flueA.isSome, toggleB := g.flueB.isSome } ∧
       t.mode = .m7 ∧ t.straps.seq = (if perstLow then none else some 0) ∧ (∀ n, (t.hearth n).slot = .parked) ∧
       t.island = { s.island.sense v with haux := if s.island.vaux then s.island.haux else none
                                          clearMark := true, clearFrom := none, perstLow := perstLow } ∧
       (∀ d, t.dom d = if d.val = 159 ∨ ((d.val = 158 ∨ d.val = 161) ∧ perstLow = false) then .on 0 else .off) ∧
       t.ledger = Ledger.reset ∧ t.items = Items.reset ∧ t.link = HostLink.reset ∧ t.dll = Dll.reset ∧
       (∀ f, t.fn f = FnCfg.reset) ∧ t.soot = Soot.reset ∧ t.gate = false ∧ t.slotPower = false ∧
       t.pending = s.pending ∧ t.tap = s.tap) ∧
     (s.clk.counting = true ∨ g.periods < 1000 ∨ Toggles.first g = none → s.island.falls (s.island.sense v) = false →
       exec (.supplyValidEvent v g perst) s = .next { s with
         island := { s.island.sense v with haux := if s.island.vaux then s.island.haux else none } }) ∧
     (∀ b, perst.length = 1000 →
       ((∀ i, 984 ≤ i → i < 1000 → perst.getD i b = b) → perstLow = b) ∧
       (perst.getD 0 b = b → (∀ i, i + 16 ≤ 1000 → ∃ j, j < 16 ∧ perst.getD (i + j) b = b) → perstLow = b))) ∧
  ((∀ (i : Island) (v : Volts),
     (690 < v.vcore → 830 < v.vphy → 1100 < v.vphyh → 830 < v.vflue → 3040 < v.vaux → 1660 < v.vstrap → (i.sense v).supplies = true) ∧
     (v.vcore < 660 ∨ v.vphy < 790 ∨ v.vphyh < 1060 ∨ v.vflue < 790 ∨ v.vaux < 2900 ∨ v.vstrap < 1580 →
       (i.sense v).supplies = false) ∧
     (i.supplies = true → 660 ≤ v.vcore → 790 ≤ v.vphy → 1060 ≤ v.vphyh → 790 ≤ v.vflue → 2900 ≤ v.vaux → 1580 ≤ v.vstrap →
       i.falls (i.sense v) = false ∧ (i.sense v).supplies = true)) ∧
   (∀ (g : Toggles) (a : Nat),
     (g.refclk = some a → (∀ b, g.flueA = some b → a ≤ b) → (∀ b, g.flueB = some b → a ≤ b) → Toggles.first g = some .refclk) ∧
     (g.flueA = some a → (∀ b, g.refclk = some b → a < b) → (∀ b, g.flueB = some b → a ≤ b) → Toggles.first g = some .flueA) ∧
     (g.flueB = some a → (∀ b, g.refclk = some b → a < b) → (∀ b, g.flueA = some b → a < b) → Toggles.first g = some .flueB) ∧
     (g.refclk = none → g.flueA = none → g.flueB = none → Toggles.first g = none))) ∧
  (∀ (v : Volts) (s : State),
     (s.island.falls (s.island.sense v) = true → ∃ t, exec (.supplyInvalid v) s = .next t ∧
       t.running = false ∧ t.clk.tally = 0 ∧ t.island.supplies = false ∧ t.island.clearMark = true ∧ t.mode = .m7 ∧
       (∀ d, t.dom d = .off) ∧ (∀ n, (t.hearth n).slot = .parked) ∧ (∀ f, t.fn f = FnCfg.reset) ∧ t.ledger = Ledger.reset ∧
       t.items = Items.reset ∧ t.txq = [] ∧ t.reqs = [] ∧ t.tags = [] ∧ t.gate = false ∧ t.pending = s.pending ∧
       (s.island.vaux = false ∨ (s.island.sense v).vaux = true →
         t.island.haux = (if s.island.vaux then s.island.haux else none) ∧ t.island.wakeLow = s.island.wakeLow ∧ t.tap = s.tap ∧
         ∀ n, (t.hearth n).presBall = (s.hearth n).presBall ∧ (t.hearth n).pgood = (s.hearth n).pgood) ∧
       (s.island.vaux = true → (s.island.sense v).vaux = false →
         t.island.haux = none ∧ t.island.wakeLow = false ∧ t.tap = Tap.reset)) ∧
     (s.island.falls (s.island.sense v) = false → exec (.supplyInvalid v) s = .next { s with
       island := { s.island.sense v with haux := if s.island.vaux then s.island.haux else none } })) ∧
  ((∀ (v : Volts) (n : HearthId) (what : SlotInput) (s : State), s.island.falls (s.island.sense v) = false →
     ∀ i : Island, i = { s.island.sense v with haux := if s.island.vaux then s.island.haux else none } →
     ∃ t, exec (.auxOnlyWake v ⟨n, what⟩) s = .next t ∧
     t.island = { i with wakeLow := s.island.wakeLow ||
       (i.vaux && !i.supplies && (i.haux = some 1 || i.haux = some 15) &&
         (match what with | .presence low => low != (s.hearth n).presBall | .press => true)) } ∧
     (∀ m, t.hearth m = if m = n then { s.hearth n with
         presBall := match what with | .presence low => low | .press => (s.hearth n).presBall } else s.hearth m) ∧
     t.standing = { s.standing with island := t.island, hearths := t.standing.hearths }) ∧
   (∀ s : State, exec .vauxValid s = .next { s with
     island := { s.island with vaux := true, haux := if s.island.vaux then s.island.haux else none } }))

/-- R45, R76, R82, R212, R218: below 2.90 V a valid bank becomes invalid: it takes the counted HnPGOOD of its hearths low, and
a hearth on it in SAMPLING, READY, IN_SERVICE or DRAINING is COLLAPSED with its bus released, no open cycle and no lock; the other hearths
keep slot and settings. Above 3.04 V an invalid bank becomes valid, which raises no counted level. Between the thresholds
nothing changes. -/
def Obligations.VhearthBanks : Prop :=
  ∀ (b : Fin 14) (mv : Nat) (s : State),
    (vget s.island.banks b = true → mv < 2900 → ∃ t, exec (.vhearthBankInvalid ⟨b, mv⟩) s = .next t ∧
      t.island = { s.island with banks := vset s.island.banks b false } ∧
      (∀ n, n ∈ bankHearths b → (t.hearth n).pgood = false ∧
        ((s.hearth n).slot.powered = true → (t.hearth n).slot = .collapsed ∧ (t.hearth n).cyc = none ∧ (t.hearth n).lock = none ∧
          (t.hearth n).bus.breqLow = false ∧
          (t.hearth n).bus.granted = false ∧ (t.hearth n).irqLow = 0 ∧ (t.hearth n).drain = none ∧ (t.hearth n).reload = none) ∧
        ((s.hearth n).slot.powered = false → (t.hearth n).slot = (s.hearth n).slot)) ∧
      (∀ n, n ∉ bankHearths b → (t.hearth n).steady = (s.hearth n).steady) ∧
      t.standing = { s.standing with
        island := t.island, doms := t.doms, straps := t.straps, hearths := t.standing.hearths }) ∧
    (vget s.island.banks b = false → 3040 < mv → ∃ t, exec (.vhearthBankValid ⟨b, mv⟩) s = .next t ∧
      t.island = { s.island with banks := vset s.island.banks b true } ∧
      (∀ n, t.hearth n = if n ∈ bankHearths b then { s.hearth n with pgood := false } else s.hearth n) ∧
      t.standing = { s.standing with island := t.island, hearths := t.standing.hearths }) ∧
    (2900 ≤ mv → mv ≤ 3040 → exec (.vhearthBankInvalid ⟨b, mv⟩) s = .next s ∧ exec (.vhearthBankValid ⟨b, mv⟩) s = .next s)

/-- R83, R86, R115, R267: at the 16th consecutive low tick of PERST_N every hearth is PARKED and every other unit leaves service:
the ledger is CLOSED, nothing waits anywhere, no tag, lock or FLR stands. The mode, the straps, the hearthstone's bytes but for
the locked writes captured, which are performed whole, and the functions' registers stand. Where each power domain goes is the
model's choice (entry 76). A shorter low changes nothing. R83, R87, R115, R192, R269, R315, R334: the 16th consecutive high
tick of PERST_N is T_S: group 0 begins, D159 and D161 are ON, and D158 where it was OFF in a mode with functions, WAKE_N is
released, and the counts of the Ember Report, the Soot Report, the Bellows Report, the sampler and the test lanes start over.
The flue settings are out of service until group 15 is checked (the model's choice, entry 14). A shorter high changes nothing. -/
def Obligations.PerstFilter : Prop :=
  (∀ (held : Nat) (s : State), s.running = true → s.island.perstLow = false →
     (16 ≤ held → ∃ t, exec (.perstAssertion held) s = .next t ∧
       t.island = { s.island with perstLow := true, clearFrom := none } ∧ t.clk = { s.clk with live := false } ∧
       (∀ n, t.hearth n = (s.hearth n).park) ∧ t.ledger.st = .closed ∧ t.ledger.low = false ∧ t.items = Items.reset ∧
       t.txq = [] ∧ t.reqs = [] ∧ t.tags = [] ∧ t.xtags = [] ∧ t.sw = Switch.reset ∧ t.irq = Irq.reset ∧ t.dll = Dll.reset ∧
       t.fc = Fc.reset ∧ t.gate = false ∧ t.slotPower = false ∧ t.straps.seq = none ∧ t.prot.inService = false ∧
       (∀ f, t.fn f = { s.fn f with flr := none }) ∧
       (∀ d, t.dom d = (s.dom d).leave s.now d) ∧
       t.mode = s.mode ∧ t.cfg = s.cfg ∧ t.straps.globals = s.straps.globals ∧ t.pending = s.pending ∧
       t.stone = s.lockedStores.foldl (fun m p => stoneWriteAll m p.bytes) s.stone ∧ (s.lockedStores = [] → t.stone = s.stone) ∧
       t.tap = s.tap) ∧
     (held < 16 → exec (.perstAssertion held) s = .next s)) ∧
  (∀ (held : Nat) (s : State), s.running = true → s.island.perstLow = true →
     (16 ≤ held → ∃ t, exec (.perstDeassertion held) s = .next t ∧
       t.island = { s.island with perstLow := false, wakeLow := false } ∧ t.clk = { s.clk with tS := s.clk.tally, live := true } ∧
       t.straps = { s.straps with seq := some 0, seqDone := false, checked := false, free := s.clk.tally } ∧ t.ledger = Ledger.reset ∧ t.soot = Soot.reset ∧
       t.sampler = Sampler.reset ∧ t.tapMoves = 0 ∧ t.testSeen = false ∧ (∀ l, t.test l = TestLane.reset) ∧
       (∀ l, t.lane l = { s.lane l with moves := 0, deferred := 0 }) ∧
       (∀ d, t.dom d = if d.val = 159 ∨ d.val = 161 ∨ (d.val = 158 ∧ s.strapMode.exposes = true ∧ s.dom 158 = .off)
         then .on s.clk.tally else s.dom d) ∧
       (∀ f, (t.fn f).bme = false ∧ (t.fn f).mse = false ∧ (t.fn f).power = .d0 ∧ (t.fn f).flr = none ∧
         (t.fn f).uncSta = (s.fn f).uncSta ∧ (t.fn f).corSta = (s.fn f).corSta ∧ (t.fn f).pmeStatus = (s.fn f).pmeStatus) ∧
       t.hearths = s.hearths ∧ t.mode = s.mode ∧ t.cfg = { s.cfg with fluesOk := false } ∧ t.stone = s.stone ∧ t.items = s.items ∧
       t.pending = s.pending) ∧
     (held < 16 → exec (.perstDeassertion held) s = .next s))

/-! ### Straps and the timeline -/

/-- R57: the code of a mean voltage in microvolts. Code c from 1 to 14 has the window from 100c - 40 mV to 100c + 40 mV,
code 0 lies below 40 mV, code 15 from 1,540 mV up, and a voltage in none of the windows gives status GAP. The mean of the
300 readings of R56 is classified exactly: it lies in the window of c when 300 times the bounds hold their sum. -/
def Obligations.CodeWindows : Prop :=
  (∀ uv c : Nat, windowCode uv = some c ↔
    (c = 0 ∧ uv < 40000) ∨ (c = 15 ∧ 1540000 ≤ uv) ∨
      (1 ≤ c ∧ c ≤ 14 ∧ 100000 * c ≤ uv + 40000 ∧ uv ≤ 100000 * c + 40000)) ∧
  (∀ (r : Reading) (c : Nat), r.wf = true → r.checkUv ≤ 150000 → c < 16 →
    ((classify r = (BitVec.ofNat 4 c, .valid) ↔
      (c = 0 ∧ r.convertUv.sum < 300 * 40000) ∨ (c = 15 ∧ 300 * 1540000 ≤ r.convertUv.sum) ∨
        (1 ≤ c ∧ c ≤ 14 ∧ 300 * (100000 * c) ≤ r.convertUv.sum + 300 * 40000 ∧
          r.convertUv.sum ≤ 300 * (100000 * c + 40000))) ∧
      ((classify r).2 = .gap ↔ ∀ k, windowOf 300 r.convertUv.sum ≠ some k)))

/-- R17, R18, R61, R79: at the end of group 0 the mode becomes the one S_MODE selects when S_MODE reads VALID code 0 to 6
and S_BUDGET is VALID, and M7 in every other case; the reading's tick is recorded. The sequence goes on with group 1, or
begins again with T_S at tally 0 when the strapped clock is another one. Where the command stands for an event at a fixed
tick, the clock is brought to that tick (the model's choice, entry 1). -/
def Obligations.GroupZeroSetsTheMode : Prop :=
  ∀ (readings : List Reading) (s : State), s.running = true → s.island.perstLow = false → s.straps.seq = some 0 →
    ∃ t, exec (.strapGroupEnd readings) s = .next t ∧
      t.mode = (if (classify (readings.getD 6 openReading)).2 = .valid ∧ (classify (readings.getD 0 openReading)).2 = .valid then
          match (classify (readings.getD 0 openReading)).1.toNat with
          | 0 => .m0 | 1 => .m1 | 2 => .m2 | 3 => .m3 | 4 => .m4 | 5 => .m5 | 6 => .m6 | _ => .m7
        else .m7) ∧
      t.stone = s.stone ∧ t.pending = s.pending ∧ t.island.haux.isSome = true ∧
      (t.clk.source = s.clk.source → t.straps.seq = some 1 ∧ vget t.straps.groupTally 0 = (s.advanceTS 2499).clk.tally ∧
        t.clk = (s.advanceTS 2499).clk) ∧
      (t.clk.source ≠ s.clk.source → t.straps.seq = some 0 ∧ t.clk.tally = 0 ∧ t.clk.tS = 0 ∧ t.clk.live = true)

/-- R61, R63, R64, R75, R181, R278: a later group ends at T_S + 2,500g + 2,499. Its balls take their readings then; no other
command of the sequence reads them. At the end of group 15 the global fields are checked, the settings in use and, outside
M5 and M6, the hearthstone unit follow from them. At the end of a hearth's second group the BAR-0 size in effect is 64 KiB x
4^SHnBSIZE[2:0] when its five settings are VALID, else 64 KiB; a hearth that is READY then is so in the next tick. Groups 1 to 14 and the first group of a hearth decide nothing
else. The hearthstone's bytes, the functions' registers and the host link stand. Where the command stands for an event at a
fixed tick, the clock is brought to that tick (the model's choice, entry 1). -/
def Obligations.LaterGroups : Prop :=
  ∀ (g : Nat) (readings : List Reading) (s : State), s.running = true → s.island.perstLow = false → s.straps.seq = some g →
    0 < g → g < 48 →
    ∃ t, exec (.strapGroupEnd readings) s = .next t ∧
      ((∀ n : HearthId, g = 17 + 2 * n.val → (t.hearth n).slot ≠ .ready) → t.clk = (s.advanceTS (2500 * g + 2499)).clk) ∧
      (∀ n : HearthId, g = 17 + 2 * n.val → s.mode.serves = true → (t.hearth n).slot = .ready →
        t.clk = (s.advanceTS (2500 * g + 2499)).tick.clk) ∧
      t.straps.seq = (if g = 47 then none else some (g + 1)) ∧ t.straps.seqDone = decide (g = 47) ∧ t.straps.lastGroup = g ∧
      t.stone = s.stone ∧ t.link = { s.link with clkreqReleased := t.link.clkreqReleased } ∧ t.pending = s.pending ∧
      t.dll = { s.dll with ackDue := t.dll.ackDue } ∧
      (g < 15 → t.straps.globals =
          sampleBalls (assignedGlobal s.mode) (groupStart g) (groupSize g) readings s.straps.globals ∧
        t.standing = { (s.advanceTS (2500 * g + 2499)).standing with straps := t.straps }) ∧
      (g = 15 → t.straps.globals = finishGlobals s.strapMode s.mode
          (sampleBalls (assignedGlobal s.mode) (groupStart 15) (groupSize 15) readings s.straps.globals) ∧
        t.straps.checkedOnce = true ∧ t.straps.checked = true ∧ t.cfg = globalsOf s.mode t.straps.globals ∧
        (s.mode.tests = false → t.prot = protOf t.straps.globals t.cfg.regions)) ∧
      (∀ n : HearthId, g = 17 + 2 * n.val →
        (t.hearth n).barCode = (if validField (spreadHearth (sampleBalls assignedHearth 35 34 readings (s.hearth n).balls)) 0 5
          then codeAt (sampleBalls assignedHearth 35 34 readings (s.hearth n).balls) 4 % 8 else 0) ∧
        (∀ m, m ≠ n → (t.hearth m).balls = (s.hearth m).balls ∧ (t.hearth m).cfg = (s.hearth m).cfg))

/-- R87, R90, R309: at T_S + 120,000, with the sequence complete, slot power may rise and the flues of a chimney start to
train; at T_S + 200,000 the gate opens: READY rises, every READY hearth is IN_SERVICE with its HnBREQ_N held high for 1,000
ticks (R216), no other hearth changes its slot state, and the host link of a mode that exposes functions enters Detect.
Where the command stands for an event at a fixed tick, the clock is brought to that tick (the model's choice, entry 1). -/
def Obligations.SlotPowerAndGate : Prop :=
  (∀ s : State, s.running = true → s.clk.live = true → s.straps.seqDone = true → s.slotPower = false →
    ∃ t, exec .slotPowerEnable s = .next t ∧ t.slotPower = true ∧ t.clk = (s.advanceTS 120000).clk ∧
      (t.chimney = true → t.flueA.trainTick = t.now ∧ t.flueB.trainTick = t.now) ∧
      t.standing = { (s.advanceTS 120000).standing with slotPower := true, flueA := t.flueA.steady, flueB := t.flueB.steady }) ∧
  (∀ s : State, s.running = true → s.slotPower = true → s.gate = false →
    ∃ t, exec .gateOpen s = .next t ∧ t.gate = true ∧ t.readyOnce = true ∧ t.clk = (s.advanceTS 200000).clk ∧
      (t.clk.live = true → t.readyHigh = true) ∧
      (∀ n, (t.hearth n).slot = if ((s.advanceTS 200000).hearth n).slot = .ready then .inService
        else ((s.advanceTS 200000).hearth n).slot) ∧
      (∀ n, ((s.advanceTS 200000).hearth n).slot = .ready → (t.hearth n).bus.breqFrom = some (tickPlus t.now 1000)) ∧
      (s.mode.exposes = true → t.link.st = .detect) ∧ (s.mode.exposes = false → t.link = (s.advanceTS 200000).link) ∧
      t.mode = s.mode ∧ t.cfg = s.cfg ∧ t.stone = s.stone ∧ t.ledger = (s.advanceTS 200000).ledger)

/-! ### Ember ledger and power domains -/

/-- R102, R103, R105: the first window opens the ledger with B = (S_BUDGET + 1) x 51,200 embers, or turns it OFF with code
15; it is the first window and the first refill. While group 0 has not ended, or no tick passes, nothing changes. Where the
command stands for an event at a fixed tick, the clock is brought to that tick (the model's choice, entry 1). -/
def Obligations.FirstWindow : Prop :=
  ∀ s : State, s.ledger.st = .closed →
    (s.running = true → s.pastGroup0 = true →
      ∃ t, exec .ledgerWindowStart s = .next t ∧ t.clk = (s.advanceTS (2500 + 1024 * s.ledger.windows)).clk ∧
        t.ledger.st = (if s.cfg.budgetCode = 15 then .off else .opened) ∧
        t.ledger.budget = (if s.cfg.budgetCode = 15 then 0 else (s.cfg.budgetCode.toNat + 1) * 51200) ∧
        t.ledger.windows = 1 ∧ t.ledger.refills = 1 ∧ t.stone = s.stone ∧
        t.link = (s.advanceTS (2500 + 1024 * s.ledger.windows)).link ∧ t.mode = s.mode) ∧
    (s.running = false ∨ s.pastGroup0 = false → exec .ledgerWindowStart s = .next s)

/-- R26, R103, R106, R110, R119: embers are conserved. While the ledger is open and the core runs, a tick's admission moves embers from the balance
to the total charged and to nothing else; a later window start sets the balance to B before it admits, unless the core is
frozen, where the refill falls due and is applied before the next admission (R104). Where the command stands for an event at
a fixed tick, the clock is brought to that tick (the model's choice, entry 1). -/
def Obligations.EmbersConserved : Prop :=
  (∀ s : State, s.running = true → s.coreRuns = true → s.ledger.st = .opened →
    ∃ t, exec .ledgerAdmission s = .next t ∧ t.ledger.st = .opened ∧ t.ledger.budget = s.ledger.budget ∧ t.ledger.refillDue = false ∧
    t.ledger.balance + t.ledger.charged = (if s.ledger.refillDue then s.ledger.budget else s.ledger.balance) + s.ledger.charged) ∧
  (∀ s : State, s.running = true → s.pastGroup0 = true → s.ledger.st = .opened →
    ∃ t, exec .ledgerWindowStart s = .next t ∧ t.ledger.st = .opened ∧ t.ledger.windows = s.ledger.windows + 1 ∧
      ((s.advanceTS (2500 + 1024 * s.ledger.windows)).coreRuns = true → t.ledger.refillDue = false ∧
        t.ledger.balance + t.ledger.charged = s.ledger.budget + s.ledger.charged) ∧
      ((s.advanceTS (2500 + 1024 * s.ledger.windows)).coreRuns = false → t.ledger.refillDue = true ∧
        t.ledger.balance = s.ledger.balance ∧ t.ledger.charged = s.ledger.charged))

/-- R26, R109, R110, R117: while the core runs, admission follows what the tick brings; it goes level by level and stops at the first item it cannot pay for or that needs a domain
going down. After a tick's admission the service level is empty or its head is barred; while it is not empty, no host item
has left; and where the head could not be paid, every waiting item is held and LEDGER_N is low. R114, R121: with the ledger
OFF a tick's admission leaves no item waiting, unless one needs a domain that is going down (R100). -/
def Obligations.Admission : Prop :=
  (∀ s : State, s.running = true → s.coreRuns = true → s.ledger.st = .opened → ∃ t, exec .ledgerAdmission s = .next t ∧
     (∀ it rest, t.items.service = it :: rest → t.barred it ≠ none ∧ t.items.host.length = s.coreTick.askReader.items.host.length ∧
       (t.barred it = some .short → t.ledger.low = true ∧ ∀ x ∈ t.waitingItems, x.heldAt.isSome = true))) ∧
  (∀ s : State, s.running = true → s.ledger.st = .off → (∀ d, (s.dom d).falling = false) →
     ∃ t, exec .ledgerAdmission s = .next t ∧ t.waitingItems = [] ∧ t.ledger.st = .off)

/-- R97, R121: a domain that is WAKING reaches ON at its tick, but for a host lane direction that the link needs no longer (R123,
R130), which goes down again; admitted work whose path is now complete starts, unless it stays
behind earlier work of its class between the same ports, and the rest waits on. No other domain but the bellows engine changes,
and no ember is charged; the last lane domain of a Recovery lets an LTR message put off in L1 leave (R118). R95, R98, R100, R101: a domain under the idle
rule that owns nothing falls at the end of its idle period; one that is busy, or under no idle rule, stays ON. After 8 ticks
of GOING_DOWN it is OFF, or RETAINED for a bank the mode keeps; the bellows engine wakes again while a receiver lane is ON
(R96). The contents of the hearthstone stand. Where the command
stands for an event at a fixed tick, the clock is brought to that tick (the model's choice, entry 1). -/
def Obligations.DomainsWakeAndSleep : Prop :=
  (∀ (d : DomainId) (done : Tally) (s : State), s.running = true → s.dom d = .waking done →
     ∃ t, exec (.domainWakeComplete d) s = .next t ∧ t.clk = (s.advanceTo done).clk ∧
       (s.laneNeeded d = true → t.dom d = .on t.now) ∧ (s.laneNeeded d = false → t.dom d = .goingDown (tickPlus t.now 8)) ∧
       (32 ≤ d.val → s.laneNeeded d = true) ∧
       (∀ e, e ≠ d → e.val ≠ 160 → t.dom e = (s.advanceTo done).dom e) ∧ t.ledger.st = s.ledger.st ∧
       t.ledger.balance = s.ledger.balance ∧ t.ledger.charged = s.ledger.charged ∧ t.ledger.windows = s.ledger.windows ∧
       (s.link.st ≠ .recovery ∨ s.ledger.ltrPending = false → t.ledger = (s.advanceTo done).ledger) ∧
       (∀ it ∈ t.items.admitted, it ∈ s.items.admitted) ∧
       (rxLane d = none → s.laneNeeded d = true → (∀ it ∈ s.items.admitted, t.pathOn it.path = false → it ∈ t.items.admitted) ∧
         (∀ it ∈ t.items.admitted, t.pathOn it.path = true →
           ∃ x ∈ t.items.admitted, t.pathOn x.path = false ∧ x.work.keepsBack it.work = true)) ∧
       t.stone = s.stone ∧ (s.link.st ≠ .recovery → t.link = (s.advanceTo done).link) ∧ t.dll = (s.advanceTo done).dll ∧ t.mode = s.mode ∧ t.straps.globals = s.straps.globals) ∧
  ((∀ (d : DomainId) (last : Tally) (s : State), s.running = true → s.dom d = .on last →
     (∀ p, Config.idlePeriod d.val = some p → s.domBusy d = false →
       (s.advanceTo (tickPlus last (p + 1))).dom d = .on last → (s.advanceTo (tickPlus last (p + 1))).domBusy d = false →
       exec (.domainIdleExpiry d) s = .next ((s.advanceTo (tickPlus last (p + 1))).setDom d
         (.goingDown (tickPlus (s.advanceTo (tickPlus last (p + 1))).now 8)))) ∧
     (Config.idlePeriod d.val = none ∨ s.domBusy d = true → exec (.domainIdleExpiry d) s = .next s)) ∧
   (∀ (d : DomainId) (done : Tally) (s : State), s.running = true → s.dom d = .goingDown done →
     ∃ t, exec (.goingDownEnd d) s = .next t ∧ t.clk = (s.advanceTo done).clk ∧
       (d.val ≠ 160 → t.dom d = (if 140 ≤ d.val ∧ d.val < 156 ∧ s.mode.usable d.val then .retained else .off)) ∧
       (d.val = 160 → t.dom d = if ∃ l : LaneId, ((s.advanceTo done).dom (laneDom l)).isOn = true then
         .waking (tickPlus t.now (Config.wakeLatency 160)) else .off) ∧
       (∀ e, e ≠ d → t.dom e = (s.advanceTo done).dom e) ∧ t.stone = s.stone ∧
       t.standing = { (s.advanceTo done).standing with doms := t.doms, island := t.island }))

/-- R88: at the end of the clear's 4,096th tick every byte of the hearthstone reads 0 and the clear mark is removed; nothing
else changes. R88, R97, R262, R263: a beat of a bank writes or reads the enabled bytes of one word at once: of a write with
one word left, alone in its bank and with no lock, each of its bytes reads as written afterwards and every other byte as
before; its slot is free and the bank's pointer has moved past it. While the clear mark is set no beat is granted. Only the
hearthstone and the banks' domains stand changed. Where the command stands for an event at a fixed tick, the clock is
brought to that tick (the model's choice, entry 1). -/
def Obligations.HearthstoneBytes : Prop :=
  (∀ (from' : Tally) (s : State), s.running = true → s.island.clearFrom = some from' →
     ∃ t, exec .hearthstoneClearComplete s = .next t ∧ (∀ a, stoneRead t.stone a = 0) ∧
       t.clk = (s.advanceTo (tickPlus from' 4095)).clk ∧
       t.island = { s.island with clearMark := false, clearFrom := none } ∧
       t.standing = { (s.advanceTo (tickPlus from' 4095)).standing with stone := t.stone, island := t.island }) ∧
  (∀ s : State, s.running = true → ∃ t, exec .bankBeat s = .next t ∧ t.standing = { s.standing with stone := t.stone, doms := t.doms } ∧
     t.txq = s.txq ∧ (s.island.clearMark = true → t = s) ∧
     (∀ b k x w, stoneOk s → (∀ b' k', vget (vget s.banks b').slots k' = if b' = b ∧ k' = k then some x else none) → x.beats = [w] →
       x.piece.kind = .postedWrite → x.piece.origin = .none → risingBytes x.piece.bytes = true → s.bankOn b = true →
       s.island.clearMark = false → s.lockEnds = [] → (∀ n, (s.hearth n).lock = none) →
       (∀ a, stoneRead t.stone a = ((byteAt (bytesIn x.piece.bytes (8 * w) 8) a).getD (stoneRead s.stone a))) ∧
       (∀ k', vget (vget t.banks b).slots k' = none) ∧ (vget t.banks b).ptr = k + 1 ∧
       (∀ b', b' ≠ b → vget t.banks b' = vget s.banks b')))

/-! ### Host link -/

/-- R122, R123, R125, R130, R131, R327: training from Detect with every lane domain the link may use ON, or from L0 or
Recovery, ends in L0 at the widest width within S_HWID and the mode's cap at which every lane trains, unreversed if it can be,
at the highest rate up to S_HRATE. Lanes outside the width read OFF, but for those under test (the model's choice, entry 61);
a lane at a new rate acquires or goes on with kept taps; the transmitter of a lane takes what the host asks at 8.0 GT/s and
above; the credits are those of the host's advertisement after Detect and stand on a retraining. Where no width trains nothing
changes. R126, R131: the spread of a histogram is the width of the narrowest circular window with 99 % of its edges. Phase 2
keeps, for the lane and the rate, the preset and CTLE of the smallest spread, the lowest preset and then the lowest CTLE on a
tie; the lane acquires with them. From L0 the link is in Recovery (R138), where every lane of it acquires, its last taps
kept. The first such command at a rate takes the other lanes of the link to it: each acquires, from the record of that rate where
there is one. Every other record, lane and part stands. -/
def Obligations.LinkTrainsAndEqualizes : Prop :=
  (∀ (lanes : BitVec 16) (rate : Rate) (inverted : BitVec 16) (limits : TxLimits) (asked : List (Option TxEq)) (precode : Bool)
     (s : State), s.running = true → s.mode.exposes = true → s.gate = true →
     (s.link.st = .l0 ∨ s.link.st = .recovery ∨ (s.link.st = .detect ∧ s.detectQuietDone = true)) →
     ((∀ w rev, w ∈ [16, 8, 4, 2, 1] → w ≤ s.maxWidth → s.widthTrains lanes w rev = true → (rev = true → s.mode.tests = false) →
       ∃ t, exec (.linkTrainingComplete lanes rate inverted ⟨limits, asked, precode⟩) s = .next t ∧ t.link.st = .l0 ∧
         t.link.keeper = false ∧ t.link.precoding = (precode && decide (t.link.rate = .g32)) ∧
         w ≤ t.link.width ∧ t.link.width ≤ s.maxWidth ∧ s.widthTrains lanes t.link.width t.link.reversed = true ∧
         (s.widthTrains lanes t.link.width false = true → t.link.reversed = false) ∧
         t.link.rate = Rate.minRate rate s.cfg.hrate ∧ t.link.inverted = inverted ∧ t.link.fcTick = s.now ∧
         t.dll = { s.dll with retrain := false } ∧
         t.fc = (if s.link.st = .detect then { s.fc with limits := limits, used := TxUsed.zero } else s.fc) ∧
         (∀ i : Fin 16, i ∉ t.trainedLanes → (s.test (hostLane i)).underTest s.mode = false → (t.lane (hostLane i)).st = .off ∧
           ((t.dom (txDom i)).isOn || (t.dom (rxDom i)).isOn) = false) ∧
         (∀ i ∈ t.trainedLanes, ∀ e, asked.getD i.val none = some e → TxEq.accepted e = true → fastRate t.link.rate = true →
           ∃ k, t.keptAt (hostLane i) t.link.rate = some k ∧ k.tx = some e) ∧
         (∀ i ∈ t.trainedLanes, s.link.rate ≠ t.link.rate →
           (t.lane (hostLane i)).st = .acquiring ∨ (t.lane (hostLane i)).st = .tracking) ∧
         (∀ l : LaneId, 16 ≤ l.val → t.lane l = s.lane l) ∧ (s.ledger.ltrPending = false → t.ledger = s.ledger ∧ t.txq = s.txq) ∧
         t.standing = { s.standing with link := t.link, dll := t.dll, doms := t.doms, lanes := t.lanes, ledger := t.ledger }) ∧
     (s.bestWidth lanes = none → exec (.linkTrainingComplete lanes rate inverted ⟨limits, asked, precode⟩) s = .next s))) ∧
  (∀ e : List Nat, e.length = 64 → (∃ b, b < 64 ∧ 99 * e.sum ≤ 100 * binsFrom e (spreadOf e) b) ∧
     (∀ w b, w < spreadOf e → b < 64 → 100 * binsFrom e w b < 99 * e.sum)) ∧
  (∀ (rate : Rate) (lane : Fin 16) (edges : List (List Nat)) (s : State), s.running = true → s.mode.exposes = true → s.gate = true →
     fastRate rate = true → rateIdx rate ≤ rateIdx s.cfg.hrate →
     (s.link.st = .l0 ∨ s.link.st = .recovery ∨ s.link.st = .detect) →
     lane ∈ s.linkLanes → (s.dom (rxDom lane)).isOn = true → histogramsWf edges = true →
     ∃ t k, exec (.equalizationPhase2 rate lane edges) s = .next t ∧ k < 176 ∧
       (∀ j, j < 176 → spreadOf (edges.getD k []) ≤ spreadOf (edges.getD j [])) ∧
       (∀ j, j < k → spreadOf (edges.getD k []) < spreadOf (edges.getD j [])) ∧
       (∃ rec', t.keptAt (hostLane lane) rate = some rec' ∧ rec'.preset = k / 16 ∧ rec'.ctle = k % 16 ∧ rec'.tracked = false) ∧
       (t.lane (hostLane lane)).st = .acquiring ∧ (t.lane (hostLane lane)).ctle = k % 16 ∧ t.link.rate = rate ∧
       (∀ l r, l ≠ hostLane lane ∨ rateIdx r ≠ rateIdx rate →
         ((rateIdx r ≠ rateIdx s.link.rate ∧ (s.test l).underTest s.mode = false) ∨ (s.lane l).st = .off ∨ (s.lane l).st = .acquiring) →
         t.keptAt l r = s.keptAt l r) ∧
       (s.link.st ≠ .l0 → (s.link.rate = rate → ∀ l, l ≠ hostLane lane → t.lane l = s.lane l) ∧ t.dll = s.dll ∧
         t.link = { s.link with rate := rate, kept := t.link.kept }) ∧
       (s.link.st = .l0 → t.link.st = .recovery ∧ t.link.width = s.link.width ∧ t.dll = { s.dll with retrain := true } ∧
         (∀ i ∈ s.trainedLanes, (s.dom (rxDom i)).isOn = true → (t.lane (hostLane i)).st = .acquiring)) ∧
       (s.link.rate ≠ rate → ∀ i ∈ s.linkLanes, (s.dom (rxDom i)).isOn = true → (t.lane (hostLane i)).st = .acquiring ∧
         (∀ k, i ≠ lane → (s.test (hostLane i)).underTest s.mode = false → s.keptAt (hostLane i) rate = some k →
           (t.lane (hostLane i)).phase = k.phase ∧ (t.lane (hostLane i)).thr = k.thr ∧ (t.lane (hostLane i)).dfe = k.dfe ∧
           (t.lane (hostLane i)).ctle = k.ctle)) ∧
       (∀ l, (∀ i ∈ s.linkLanes, l ≠ hostLane i) → (∀ i ∈ s.trainedLanes, l ≠ hostLane i) → t.lane l = s.lane l) ∧
       t.txq = s.txq ∧ t.items = s.items ∧
       t.standing = { s.standing with link := t.link, dll := t.dll, lanes := t.lanes })

/-- R128: with the L0s bit set the transmit direction enters L0s after 200 ticks in which no TLP and no DLLP is to be sent, and
the receive direction follows the host's transmitter; the two do so independently, no domain changes, no ember is charged and
the taps are kept. In any other case nothing changes. R129, R130, R131: after 1,000 ticks with nothing for the host the
bridge asks for L1; L1.0 is entered when L1 was asked for or an exposed function has left D0: the keeper is on, and the
lanes of the trained width read OFF and go down; L1.1 and L1.2 follow once CLKREQ_N is released and the bridge is quiescent,
and L1.2 turns the keeper off. The exit goes to Recovery with CLKREQ_N low, the wakes of the lanes presented; with the last
lane domain ON the link is in L0 again, in that tick (the model's choice, entry 32). The taps a tracking lane had are kept. Where the command stands for an event at a
fixed tick, the clock is brought to that tick (the model's choice, entry 1). -/
def Obligations.LinkLowPower : Prop :=
  (∀ (idle : Nat) (enter : Bool) (s : State),
     (s.running = true → s.link.st = .l0 → s.l0sSupported = true →
       (200 ≤ idle → s.txq = [] → s.dll.resend = [] → s.dll.ackDue = false → s.fc.alloc = s.fc.sent →
         exec (.txL0sEntry idle) s = .next { s with link := { s.link with txL0s := true } }) ∧
       (s.link.rxL0s = enter → exec (.receiveL0sChange enter) s = .next s) ∧
       (s.link.rxL0s = false → exec (.receiveL0sChange true) s =
         .next { s with link := { s.link with rxL0s := true, rxL0sFrom := s.now } }) ∧
       (s.link.rxL0s = true → ∃ t, exec (.receiveL0sChange false) s = .next t ∧
         t = { s with link := { s.link with rxL0s := false }, lanes := t.lanes } ∧
         (∀ l, t.lane l = { s.lane l with pendingFrom := (t.lane l).pendingFrom } ∧
           ((t.lane l).pendingFrom = none ↔ (s.lane l).pendingFrom = none)) ∧
         (∀ l, (∀ i ∈ s.trainedLanes, l ≠ hostLane i) → t.lane l = s.lane l))) ∧
     (idle < 200 ∨ s.txq ≠ [] ∨ s.dll.resend ≠ [] ∨ s.dll.ackDue = true ∨ s.fc.alloc ≠ s.fc.sent ∨ s.l0sSupported = false →
       exec (.txL0sEntry idle) s = .next s) ∧
     (s.l0sSupported = false → exec (.receiveL0sChange enter) s = .next s)) ∧
  ((∀ (idle : Nat) (s : State), s.running = true → s.link.st = .l0 → s.l1Supported = true → 1000 ≤ idle →
     s.nothingForHost = true → exec (.aspmL1Request idle) s = .next { s with link := { s.link with l1Asked := true } }) ∧
   (∀ s : State, s.running = true → s.link.st = .l0 → s.l1Wanted = true → ∃ t, exec (.l1Entry .l10) s = .next t ∧
     t.link = { s.link with st := .l1 .l10, keeper := true, txL0s := false, rxL0s := false, l1Asked := false, kept := t.link.kept } ∧
     (∀ i ∈ s.trainedLanes, (t.lane (hostLane i)).st = .off ∧ ((t.dom (txDom i)).isOn || (t.dom (rxDom i)).isOn) = false ∧
       ((s.lane (hostLane i)).st = .tracking → ∃ k, t.keptAt (hostLane i) s.link.rate = some k ∧ k.tracked = true ∧
         k.phase = (s.lane (hostLane i)).phase ∧ k.thr = (s.lane (hostLane i)).thr ∧ k.dfe = (s.lane (hostLane i)).dfe ∧
         k.ctle = (s.lane (hostLane i)).ctle)) ∧
     t.standing = { s.standing with link := t.link, doms := t.doms, lanes := t.lanes }) ∧
   (∀ (a b : L1Sub) (s : State), s.link.st = .l1 a → b ≠ .l10 →
     (s.substates = true → s.link.clkreqReleased = true → s.quiet = true →
       exec (.l1Entry b) s = .next { s with link := { s.link with st := .l1 b, keeper := b != .l12 && s.link.keeper } }) ∧
     (s.substates = false ∨ s.link.clkreqReleased = false ∨ s.quiet = false → exec (.l1Entry b) s = .next s)) ∧
   (∀ (a : L1Sub) (s : State), s.link.st = .l1 a → s.running = true → ∃ t, exec .l1Exit s = .next t ∧
     t.link = { s.link with st := .recovery, clkreqReleased := false } ∧ t.doms = s.doms ∧ t.reqs = s.reqs ∧ t.txq = s.txq ∧
     (∀ i ∈ s.trainedLanes,
       (s.dom (txDom i) = .off ∨ (s.dom (txDom i)).falling = true → ∃ it ∈ t.items.service, it.path = [txDom i] ∧ it.work = .laneWake) ∧
       (s.dom (rxDom i) = .off ∨ (s.dom (rxDom i)).falling = true → ∃ it ∈ t.items.service, it.path = [rxDom i] ∧ it.work = .laneWake)) ∧
     (∀ it ∈ s.items.service, it ∈ t.items.service) ∧ t.standing = { s.standing with link := t.link }) ∧
   (∀ (d : DomainId) (done : Tally) (s : State), s.running = true → s.dom d = .waking done → s.link.st = .recovery →
     s.dll.retrain = false →
     (∀ i ∈ s.trainedLanes, (txDom i = d ∨ (s.dom (txDom i)).isOn = true) ∧ (rxDom i = d ∨ (s.dom (rxDom i)).isOn = true)) →
     ∃ t, exec (.domainWakeComplete d) s = .next t ∧
       t.link = { (s.advanceTo done).link with st := .l0, keeper := false, fcTick := t.now } ∧ t.ledger.ltrPending = false ∧
       (s.ledger.ltrPending = false → t.ledger = (s.advanceTo done).ledger)))

/-- R27, R46, R130, R132, R134: in M1 and M4, in L1 and quiescent with no alarm within 100,000 ticks, CLKREQ_N is released.
An event that wakes the core drives it low, without a clock a data strobe also HnWAIT_N; so does an alarm that comes within
100,000 ticks. A strobe wakes the core while the pads of its hearth are active, an edge of another input while its receivers
are on, an edge of a slot input while the hearth is in a state with active pads; cells that drive its strobes under EXTEST hide a
strobe. In any other case nothing changes. -/
def Obligations.Clkreq : Prop :=
  (∀ (a : Nat) (s : State), s.running = true → (s.mode = .m1 ∨ s.mode = .m4) → s.link.st.isL1 = true → s.substates = true →
    s.quiet = true → 100000 < a → exec (.clkreqRelease a) s = .next { s with link := { s.link with clkreqReleased := true } }) ∧
  (∀ (a : Nat) (s : State), (s.mode ≠ .m1 ∧ s.mode ≠ .m4) ∨ s.link.st.isL1 = false ∨ s.quiet = false ∨ a ≤ 100000 →
    exec (.clkreqRelease a) s = .next s) ∧
  (∀ (e : WakeEvent) (s : State),
    (s.wakes e = true → ∃ t, exec (.clkreqAssertOnWake e) s = .next t ∧
      t.link = { s.link with clkreqReleased := false } ∧ t.wake = true ∧
      (∀ n, e = .strobe n → s.link.clkreqReleased = true → (t.hearth n).waitLow = true) ∧
      (∀ n, e ≠ .strobe n ∨ s.link.clkreqReleased = false → t.hearth n = s.hearth n) ∧ t.reqs = s.reqs ∧ t.items = s.items ∧
      t.txq = s.txq ∧ t.standing = { s.standing with link := t.link }) ∧
    (s.wakes e = false → exec (.clkreqAssertOnWake e) s = .next s)) ∧
  (∀ (n : HearthId) (f : FlueId) (s : State), s.wakes .host = true ∧ s.wakes .alarm = true ∧
    (s.wakes (.flue f) = true ↔ (s.flue f).st = .active) ∧
    (s.wakes (.strobe n) = true ↔ s.padsActive n = true ∧ s.scanHides n 1 = false) ∧
    (s.wakes (.edge n) = true ↔ (s.hearth n).slot.pads = true ∧ (s.dom (padDom n)).isOn = true) ∧
    (s.wakes (.slot n) = true ↔ (s.hearth n).slot.pads = true)) ∧
  (∀ (a : Nat) (s : State), s.link.clkreqReleased = true →
    (a ≤ 100000 → exec (.clkreqAssertOnAlarm a) s = .next { s with link := { s.link with clkreqReleased := false } }) ∧
    (100000 < a → exec (.clkreqAssertOnAlarm a) s = .next s)) ∧
  (∀ (a : Nat) (s : State), s.link.clkreqReleased = false → exec (.clkreqAssertOnAlarm a) s = .next s)

/-- R133: while REFCLK is stopped no tick passes: a step on an empty queue changes nothing, and no watchdog, hold timer,
indicator blink or ledger window comes to its end. When REFCLK returns everything, the tally and every start a timer counts
on from, is as it was; an HnWAIT_N that was held for a strobe without a clock stays low (R134, R202). -/
def Obligations.StoppedClockPauses : Prop :=
  ∀ s : State, s.clk.source = .refclk →
    exec .refclkStop s = .next { s with clk := { s.clk with stopped := true } } ∧
    exec .refclkReturn s = .next { s with clk := { s.clk with stopped := false } } ∧
    (∀ t, exec .refclkStop s = .next t → t.running = false ∧ (t.pending = [] → step t = .next t) ∧
      exec .ledgerWindowStart t = .next t ∧
      (∀ n : HearthId, exec (.watchdogTargetResponse n) t = .next t ∧ exec (.watchdogStrobeRelease n) t = .next t ∧
        exec (.watchdogGrant n) t = .next t ∧ exec (.watchdogMasterResponse n) t = .next t ∧
        exec (.lockIdleExpiry n) t = .next t ∧ exec (.reloadDrainExpiry n) t = .next t ∧ exec (.drainExpiry n) t = .next t ∧
        exec (.drainRemovable n) t = .next t ∧ exec (.hearthResetRelease n) t = .next t ∧
        exec (.indicatorBlink n) t = .next t) ∧
      (s.clk.stopped = false → exec .refclkReturn t = .next s))

/-- R310: a receiver error in L0, and a DLLP with a bad CRC, set their correctable bit and Correctable Error Detected in
every exposed function; no other function and no other part changes, but that one function may send ERR_COR. That every
exposed function records an error of the link is the model's reading (entry 22), the bits are PRESUMED (entry 9). -/
def Obligations.LinkErrorsRecorded : Prop :=
  (∀ s : State, s.hostLinkUp = true → s.link.st = .l0 → ∃ t, exec .receiverError s = .next t ∧ t.standing = s.standing ∧
    t.txq = s.txq ∧ t.reqs = s.reqs ∧ (∀ f, t.fn f = if s.exposed f.val = true then (s.fn f).setCor .receiver else s.fn f)) ∧
  (∀ s : State, s.linkActive = true → ∃ t, exec .dllpCrcError s = .next t ∧ t.standing = s.standing ∧
    t.txq = s.txq ∧ t.reqs = s.reqs ∧ (∀ f, t.fn f = if s.exposed f.val = true then (s.fn f).setCor .badDllp else s.fn f)) ∧
  (∀ c : FnCfg, (c.setCor .receiver).corSta = c.corSta ||| 0x1 ∧ (c.setCor .badDllp).corSta = c.corSta ||| 0x80 ∧
    (∀ e, (c.setCor e).devsta = c.devsta ||| 1 ∧ (c.setCor e).uncSta = c.uncSta ∧ (c.setCor e).bar = c.bar))

/-- R142: a margin command changes no tap and does not pause the bellows; it is answered only on host lanes of the trained
width at 16.0 and 32.0 GT/s, and at every other rate nothing changes at all. R127: a step is answered within 16 timing and 30
voltage steps to either side, and no other; the lane then shows what was asked: 16 timing steps of at most 25 % of a unit
interval, 30 voltage steps, or the errors of the step. -/
def Obligations.MarginChangesNoTap : Prop :=
  ∀ (lane : Fin 16) (cmd : MarginCmd) (s : State),
    (∃ t, exec (.marginCommand lane cmd) s = .next t ∧ t.lanes = s.lanes ∧
      t = { s with link := { s.link with margin := t.link.margin } }) ∧
    (s.hostLinkUp = true → s.link.st = .l0 → (s.link.rate = .g16 ∨ s.link.rate = .g32) → lane ∈ s.trainedLanes →
      (∀ tm v e, cmd = .step tm v e → -16 ≤ tm ∧ tm ≤ 16 ∧ -30 ≤ v ∧ v ≤ 30) → ∃ t,
      exec (.marginCommand lane cmd) s = .next t ∧
        t = { s with link := { s.link with margin := vset s.link.margin lane (some cmd) } } ∧
        (cmd = .report .timingSteps → t.marginDword (8 + 4 * lane.val) = BitVec.ofNat 32 (16 * 2 ^ 24)) ∧
        (cmd = .report .maxTimingOffset → t.marginDword (8 + 4 * lane.val) = BitVec.ofNat 32 (25 * 2 ^ 24)) ∧
        (cmd = .report .voltageSteps → t.marginDword (8 + 4 * lane.val) = BitVec.ofNat 32 (30 * 2 ^ 24)) ∧
        (∀ tm v e, cmd = .step tm v e →
          t.marginDword (8 + 4 * lane.val) = BitVec.ofNat 32 (min e 63 * 2 ^ 24 + 2 ^ 31))) ∧
    (∀ tm v e, cmd = .step tm v e → (tm < -16 ∨ 16 < tm ∨ v < -30 ∨ 30 < v) →
      exec (.marginCommand lane cmd) s = .next s) ∧
    (s.link.rate ≠ .g16 → s.link.rate ≠ .g32 → exec (.marginCommand lane cmd) s = .next s)

/-! ### Bellows -/

/-- R135 to R138: a frame gives three new targets and moves no tap: the phase target is half a unit interval past the centre
of the 16-bin window with the most edges (the lowest on a tie), pursued from a distance of 2; the threshold target follows
the ones and zeros, held within -31 to 31; a target beyond its range is PINNED. In acquisition the taps move to their
targets in one step. This is for a lane that is no test lane or whose moves an injection holds; the DFE step of a frame
without its fractions is free (entry 24). R106, R135, R139, R140, R141: in a gap a lane makes its due moves, threshold, DFE,
one phase step, for 2 embers each, after the refill and the levels above the tap level (R104, R110): all of them with the
ledger OFF or with embers and nothing held; with an item held, no embers, the admission of the tick ended, or the ledger
CLOSED, none, and they count as deferred. The lane is then PINNED or TRACKING. A move pending for
16,384 ticks with no gap makes the lane STARVED. R26, R138, R294: a gap in which no move is due makes no frozen core run; a training
frame on a tracking lane in L0 takes the link to Recovery; a filler passes the elastic buffer of an ACTIVE flue, which deletes
one from 10 blocks up and inserts one at 6 and below, and an inserted one is no gap. Where the command stands for an event at a fixed tick, the clock is brought
to that tick (the model's choice, entry 1). -/
def Obligations.BellowsFramesAndGaps : Prop :=
  (∀ (lane : LaneId) (f : FrameStats) (s : State), s.running = true → f.wf = true →
     ¬(s.isTest lane = true ∧ s.mode = .m5 ∧ (s.test lane).loop = 2) →
     (∃ b, b < 64 ∧ phaseTarget f.edges = BitVec.ofNat 6 (b + 40) ∧
       (∀ c, c < 64 → windowEdges f.edges c ≤ windowEdges f.edges b) ∧ (∀ c, c < b → windowEdges f.edges c < windowEdges f.edges b)) ∧
     ((s.lane lane).calibrates = true → s.receives lane = true → (s.isTest lane = true → s.holdsMoves lane = true) →
       ∃ t, exec (.bellowsFrameEnd lane f) s = .next t ∧
         (t.lane lane).phase = (s.lane lane).phase ∧ (t.lane lane).thr = (s.lane lane).thr ∧
         (t.lane lane).dfe = (s.lane lane).dfe ∧ (t.lane lane).phaseT = phaseTarget f.edges ∧
         ((t.lane lane).phaseDue = true ↔ 2 ≤ phaseApart (phaseTarget f.edges) (s.lane lane).phase) ∧
         (∀ x, (t.lane lane).thrT = some x → -31 ≤ x ∧ x ≤ 31 ∧ x ≠ (s.lane lane).thr) ∧
         (∀ x, (t.lane lane).dfeT = some x → x ≤ 31 ∧ x ≠ (s.lane lane).dfe ∧ s.dfeOn lane = true) ∧
         ((s.lane lane).st ≠ .starved → (t.lane lane).st = if (t.lane lane).pinned then .pinned else .tracking) ∧
         ((s.lane lane).thr + thrStep f < -31 ∨ 31 < (s.lane lane).thr + thrStep f → (t.lane lane).pinned = true) ∧
         (∀ l, l ≠ lane → t.lane l = s.lane l) ∧ t.standing = { s.standing with lanes := t.lanes } ∧ t.items = s.items) ∧
     ((s.lane lane).st = .acquiring → s.engineOn lane = true → ∃ t, exec (.acquireFrameEnd lane f) s = .next t ∧
       (t.lane lane).phase = phaseTarget f.edges ∧
       (t.lane lane).thr = clampInt (-31) 31 ((s.lane lane).thr + thrStep f) ∧
       (t.lane lane).due = 0 ∧ ((t.lane lane).st = .acquiring ∨ (t.lane lane).st = .tracking) ∧
       ((t.lane lane).phase ≠ (s.lane lane).phase → (t.lane lane).st = .acquiring ∧ (t.lane lane).quiet = 0) ∧
       (∀ l, l ≠ lane → t.lane l = s.lane l) ∧
       t.standing = { s.standing with lanes := t.lanes, tests := t.tests } ∧ t.items = s.items) ∧
     (s.hostRetrains lane = true → s.engineOn lane = true → ∃ t, exec (.acquireFrameEnd lane f) s = .next t ∧ t.link.st = .recovery ∧
       t.dll = { s.dll with retrain := true } ∧ ((t.lane lane).st = .acquiring ∨ (t.lane lane).st = .tracking) ∧ t.items = s.items)) ∧
  (∀ (lane : LaneId) (g : GapSet) (s u : State), s.running = true → (s.lane lane).calibrates = true → s.receives lane = true →
     s.isTest lane = false → u = s.admitTick.1 → g.lanes = BitVec.twoPow 32 lane.val → g.inserted = 0 →
     (∀ t, exec (.bellowsGap g) s = .next t → ∀ f, t.flue f = { t.flue f with elastic := (s.flue f).elastic } ∨
       (s.cfg.fwd = false ∧ (s.flue f).st = .active ∧ g.lanes &&& fillerLanes f ≠ 0 ∧
         ∀ k, k = (match f with | .a => g.heldA | .b => g.heldB) →
           (t.flue f).elastic = if 10 ≤ k then k - 1 else if k ≤ 6 then k + 1 else k)) ∧
     (s.coreRuns = false → (s.lane lane).due = 0 → ∃ t, exec (.bellowsGap g) s = .next t ∧ t.ledger = s.ledger ∧ t.items = s.items ∧
       (t.lane lane).st = (if (s.lane lane).pinned then .pinned else .tracking) ∧ (∀ l, l ≠ lane → t.lane l = s.lane l)) ∧
     (s.coreRuns = true ∨ (s.lane lane).due ≠ 0 →
     (s.ledger.st = .off ∨ (s.ledger.st = .opened ∧ s.admitTick.2 = false ∧ u.anyHeld = false ∧ 6 ≤ u.ledger.balance) →
       ∃ t, exec (.bellowsGap g) s = .next t ∧ (t.lane lane).thr = (s.lane lane).thrT.getD (s.lane lane).thr ∧
         (t.lane lane).dfe = (s.lane lane).dfeT.getD (s.lane lane).dfe ∧
         (t.lane lane).phase = (if (s.lane lane).phaseDue then phaseStep (s.lane lane).phase (s.lane lane).phaseT
           else (s.lane lane).phase) ∧
         (t.lane lane).moves = (s.lane lane).moves + BitVec.ofNat 32 (s.lane lane).due ∧
         (t.lane lane).deferred = (s.lane lane).deferred ∧
         t.ledger.charged = u.ledger.charged + 2 * (s.lane lane).due ∧ (t.lane lane).thrT = none ∧ (t.lane lane).dfeT = none ∧
         (t.lane lane).st = (if (s.lane lane).pinned then .pinned else .tracking) ∧ (∀ l, l ≠ lane → t.lane l = s.lane l) ∧
         t.items = u.items ∧
         t.standing = { u.standing with
           lanes := t.lanes, ledger := t.ledger, tapMoves := t.tapMoves, flueA := t.flueA.steady, flueB := t.flueB.steady })) ∧
     (s.ledger.st = .closed ∨ (s.ledger.st = .opened ∧ (s.admitTick.2 = true ∨ u.anyHeld = true ∨ u.ledger.balance < 2)) →
       (s.lane lane).due ≠ 0 → ∃ t, exec (.bellowsGap g) s = .next t ∧ (t.lane lane).thr = (s.lane lane).thr ∧
         (t.lane lane).dfe = (s.lane lane).dfe ∧ (t.lane lane).phase = (s.lane lane).phase ∧
         (t.lane lane).deferred = min 0xFFFF ((s.lane lane).deferred + (s.lane lane).due) ∧
         (t.lane lane).st = (if (s.lane lane).pinned then .pinned else .tracking) ∧ (∀ l, l ≠ lane → t.lane l = s.lane l) ∧
         t.ledger = { u.ledger with shown := t.ledger.shown } ∧ t.items = u.items ∧
         t.standing = { u.standing with
           lanes := t.lanes, ledger := t.ledger, flueA := t.flueA.steady, flueB := t.flueB.steady }) ∧
     (16 ≤ lane.val → ∀ h : GapSet, h.lanes = g.lanes → h.inserted = g.lanes → ∃ t, exec (.bellowsGap h) s = .next t ∧
       t.lanes = s.lanes) ∧
     (∀ p, (s.lane lane).pendingFrom = some p →
       exec (.laneStarved lane) s =
         .next ((s.advanceTo (tickPlus p 16384)).modLane lane fun x => { x with st := .starved })))

/-! ### Data link and flow control -/

/-- R148, R155, R163, R169: the next TLP of a replay leaves first. Else, among the TLPs at the host port that credits, tags
and the replay buffer let go, the first that may pass those ahead of it: none of its own class waits ahead, and only a
posted TLP passes a posted one. It takes the next sequence number, is kept for replay, uses its credits, and a read or flush
takes the lowest free tag of the range. Nothing else stands changed but L0s and the L1 request ended. -/
def Obligations.TlpLeaves : Prop :=
  (∀ (x : BitVec 12 × TxTlp) (rest : List (BitVec 12 × TxTlp)) (s : State), s.linkActive = true → s.dll.resend = x :: rest →
    exec .tlpTransmit s = .next { s with dll := { s.dll with resend := rest }, link := { s.link with txL0s := false } }) ∧
  (∀ (u : TxTlp) (s : State), s.linkActive = true → s.dll.resend = [] → s.pickTlp [] s.txq = some u → s.replayRoom u = true →
    (∃ ahead rest, s.txq = ahead ++ u :: rest ∧ s.creditOk u = true ∧ (∀ v ∈ ahead,
      TxKind.creditClass v.kind ≠ TxKind.creditClass u.kind ∧
        (TxKind.creditClass u.kind = .posted ∨ TxKind.creditClass v.kind ≠ .posted))) ∧
    ∃ t, exec .tlpTransmit s = .next t ∧ t.txq = s.txq.filter (fun v => v.id ≠ u.id) ∧
      t.dll = { s.dll with txSeq := s.dll.txSeq + 1, replay := s.dll.replay ++ [(s.dll.txSeq, u)] } ∧
      t.fc = { s.fc with used := s.fc.used.use u } ∧ t.link = { s.link with txL0s := false, l1Asked := false } ∧
      (TxKind.needsTag u.kind = false → t.tags = s.tags) ∧
      (TxKind.needsTag u.kind = true → ∃ k, s.tagRange.1 ≤ k ∧ k < s.tagRange.1 + s.tagRange.2 ∧ (∀ x ∈ s.tags, x.tag ≠ k) ∧
        (∀ j, s.tagRange.1 ≤ j → j < k → ∃ x ∈ s.tags, x.tag = j) ∧ 
        t.tags = s.tags ++ [HostTag.mk k u.fn u.hearth u.origin (u.kind = .flush) u.addr u.len s.now]) ∧
      t.reqs = s.reqs ∧ t.ledger = s.ledger ∧ t.soot = s.soot ∧
      t.standing = { s.standing with dll := t.dll, link := t.link, tags := t.tags }) ∧
  (∀ s : State, s.dll.resend = [] → s.pickTlp [] s.txq = none → exec .tlpTransmit s = .next s)

/-- R148, R149, R150, R310: an ACK removes what it names from the replay buffer and clears REPLAY_NUM on progress; a NAK
also replays what is left, in order, from the start; the replay timer replays everything unacknowledged. The fourth replay
in a row asks for a retraining, and the link goes to Recovery (R138). A sequence number not sent yet is a Data Link Protocol Error in every exposed function and
removes nothing. No TLP of the transmit queue and no other part changes but error records and messages. That every exposed
function records an error of the link is the model's reading (entry 22); the fourth replay and the bits are PRESUMED (entry 9). -/
def Obligations.AckNakReplay : Prop :=
  ∀ (seq : BitVec 12) (s : State), s.linkActive = true →
    (s.badAck seq = true → ∀ c, c = .ackReceived seq ∨ c = .nakReceived seq → ∃ t, exec c s = .next t ∧ t.standing = s.standing ∧
      t.txq = s.txq ∧ (∀ f, s.exposed f.val = true → (t.fn f).uncSta = (s.fn f).uncSta ||| 0x10) ∧
      (∀ f, s.exposed f.val = false → t.fn f = s.fn f)) ∧
    (s.badAck seq = false →
      (∃ t, exec (.ackReceived seq) s = .next t ∧
        t.dll.replay = s.dll.replay.filter (fun x => !ackedBy seq x.1) ∧ t.dll.resend = s.dll.resend.filter (fun x => !ackedBy seq x.1) ∧
        t.dll.replayNum = (if s.dll.replay.any (fun x => ackedBy seq x.1) then 0 else s.dll.replayNum) ∧
        t.dll.txSeq = s.dll.txSeq ∧ t.fns = s.fns ∧ t.txq = s.txq ∧ t.items = s.items ∧
        t.standing = { s.standing with dll := t.dll }) ∧
      (∃ t, exec (.nakReceived seq) s = .next t ∧ t.dll.replay = s.dll.replay.filter (fun x => !ackedBy seq x.1) ∧
        (t.dll.replay ≠ [] → t.dll.resend = t.dll.replay ∧
          t.dll.replayNum = (if s.dll.replay.any (fun x => ackedBy seq x.1) then 0 else s.dll.replayNum) + 1 ∧
          (t.dll.retrain = true ↔ s.dll.retrain = true ∨
            (s.dll.replayNum = 3 ∧ s.dll.replay.any (fun x => ackedBy seq x.1) = false))) ∧
        (t.dll.replay = [] → t.dll.retrain = s.dll.retrain ∧ t.fns = s.fns) ∧ t.txq = s.txq ∧
        (t.dll.retrain = false → t.link = s.link ∧ t.lanes = s.lanes) ∧ (t.dll.retrain = true → t.link.st = .recovery) ∧
        t.standing = { s.standing with dll := t.dll, link := t.link, lanes := t.lanes })) ∧
    (s.dll.replay ≠ [] → ∃ t, exec .replayTimerExpiry s = .next t ∧ t.dll.replay = s.dll.replay ∧
      t.dll.resend = s.dll.resend ++ s.dll.replay ∧ t.dll.replayNum = s.dll.replayNum + 1 ∧
      (t.dll.retrain = true ↔ s.dll.retrain = true ∨ s.dll.replayNum = 3) ∧
      (∀ f, s.exposed f.val = true → (t.fn f).corSta = (s.fn f).corSta ||| (if s.dll.replayNum = 3 then 0x1100 else 0x1000)) ∧
      (s.dll.replayNum ≠ 3 → t.link = s.link ∧ t.lanes = s.lanes) ∧ (s.dll.replayNum = 3 → t.link.st = .recovery) ∧
      t.txq = s.txq ∧ t.standing = { s.standing with dll := t.dll, link := t.link, lanes := t.lanes })

/-- R151, R156, R310: a TLP with a bad LCRC or out of sequence asks for a NAK and records Bad TLP, a duplicate only asks for
an ACK; neither is handled. Each is answered with a DLLP, so L0s of the transmit direction ends (R128). A good one moves the
sequence on and asks for an ACK, and is handled by its type. One beyond the credits is a Receiver Overflow; a malformed one, or
one with a payload above Max_Payload_Size, is a Malformed TLP of the function it addresses (R160); neither does anything else. A
memory request is the read or write of the BAR it falls in, a configuration request is the read or write of its function, a
completion is that of its tag, PME_Turn_Off is answered; Set_Slot_Power_Limit and a vendor message of type 1 are dropped and
their credits return. One with a prefix, in no BAR, to a function that is not exposed, or of a type the bridge does not support
is an Unsupported Request, with a completion when it is non-posted. That every exposed function records an error of the link is
the model's reading (entry 22); the bits are PRESUMED (entry 9). -/
def Obligations.TlpArrives : Prop :=
  ∀ (seq : BitVec 12) (ok : Bool) (p : Tlp) (s v : State), s.linkActive = true →
    v = { s with dll := { s.dll with rxSeq := s.dll.rxSeq + 1, ackDue := true, nakDue := false }, link := { s.link with txL0s := false } } →
    (ok = false ∨ 2048 < (s.dll.rxSeq - seq).toNat → ∃ t, exec (.tlpReceived seq ok p) s = .next t ∧
      t.standing = { s.standing with dll := { s.dll with nakDue := true }, link := { s.link with txL0s := false } } ∧ t.txq = s.txq ∧ t.reqs = s.reqs ∧ t.fc = s.fc ∧
      (∀ f, t.fn f = if s.exposed f.val = true then (s.fn f).setCor .badTlp else s.fn f)) ∧
    (ok = true → seq ≠ s.dll.rxSeq → (s.dll.rxSeq - seq).toNat ≤ 2048 →
      exec (.tlpReceived seq ok p) s =
        .next { s with dll := { s.dll with ackDue := true }, link := { s.link with txL0s := false }, wake := true }) ∧
    (ok = true → seq = s.dll.rxSeq → s.overflows p = true → ∃ t, exec (.tlpReceived seq ok p) s = .next t ∧ t.standing = v.standing ∧
      t.txq = s.txq ∧ t.reqs = s.reqs ∧ t.fc = s.fc ∧ t.hearths = s.hearths ∧
      (∀ f, t.fn f = { s.fn f with status := (t.fn f).status, devsta := (t.fn f).devsta, hdrLog := (t.fn f).hdrLog,
                                   firstErr := (t.fn f).firstErr, uncSta := (t.fn f).uncSta }) ∧
      ∀ f, (t.fn f).uncSta = if s.exposed f.val = true then (s.fn f).uncSta ||| 0x20000 else (s.fn f).uncSta) ∧
    (ok = true → seq = s.dll.rxSeq → s.overflows p = false → p.malformed = true ∨ (s.fn (s.addressed p)).mps < p.data.length →
      ∃ t, exec (.tlpReceived seq ok p) s = .next t ∧ t.standing = v.standing ∧ t.txq = s.txq ∧ t.reqs = s.reqs ∧
      t.fc.taken = s.fc.taken ∧ t.hearths = s.hearths ∧ uncRecorded (s.fn (s.addressed p)) (t.fn (s.addressed p)) 18 false ∧
      ∀ f, f ≠ s.addressed p → t.fn f = s.fn f) ∧
    (ok = true → seq = s.dll.rxSeq → s.overflows p = false → p.malformed = false → p.data.length ≤ (s.fn (s.addressed p)).mps →
      (p.tlpPrefix = true ∨ (p.kind ∈ [TlpKind.mRd, .mWr] ∧ s.memTarget p.addr = none) ∨
          (p.kind ∈ [TlpKind.cfgRd0, .cfgWr0] ∧ s.exposed p.fn = false) ∨ p.kind ∈ [TlpKind.vendor0, .otherMsg] →
        ∃ t, exec (.tlpReceived seq ok p) s = .next t ∧ t.standing = v.standing ∧ t.reqs = s.reqs ∧ t.fc.taken = s.fc.taken ∧
          t.hearths = s.hearths ∧ (∀ f, f ≠ s.addressed p → t.fn f = s.fn f) ∧
          uncRecorded (s.fn (s.addressed p)) (t.fn (s.addressed p)) 20 (TlpKind.posted p.kind = some false) ∧
          (TlpKind.posted p.kind ≠ some false → t.txq = s.txq) ∧
          (TlpKind.posted p.kind = some false → ∃ u, t.txq = s.txq ++ [u] ∧ u.kind = .cpl ∧ u.fn = s.addressed p ∧ u.tag = p.tag ∧
            u.status = .ur)) ∧
      (∀ c, p.tlpPrefix = false →
        (∃ f h, s.memTarget p.addr = some f ∧ hearthOfFn f = some h ∧ (p.kind = .mRd ∧ c = .memoryReadBar0 h (memReq p (p.addr - s.barValue f)) ∨
            p.kind = .mWr ∧ c = .memoryWriteBar0 h (memReq p (p.addr - s.barValue f)))) ∨
          (∃ f, s.memTarget p.addr = some f ∧ hearthOfFn f = none ∧ (p.kind = .mRd ∧ c = .memoryReadBar2 (memReq p (p.addr - s.barValue f)) ∨
            p.kind = .mWr ∧ c = .memoryWriteBar2 (memReq p (p.addr - s.barValue f)))) ∨
          (∃ f : FnId, f.val = p.fn ∧ s.exposed p.fn = true ∧ p.kind = .cfgWr0 ∧
            c = .configWrite f (Fin.ofNat 4096 p.addr) (beBits p.be) (dataDword p.data) p.bus p.tag) ∨
          (p.kind = .cplD ∧ c = .completionReceived p.tag p.status p.poisoned p.data p.fn p.hdr) ∨
          (p.kind = .cpl ∧ c = .completionReceived p.tag p.status p.poisoned [] p.fn p.hdr) ∨ (p.kind = .pmeTurnOff ∧ c = .pmeTurnOff) →
        ∃ w, exec c v = .next w ∧ exec (.tlpReceived seq ok p) s = .next { w with wake := true }) ∧
      (∀ f : FnId, p.tlpPrefix = false → p.kind = .cfgRd0 → f.val = p.fn → s.exposed p.fn = true → ∃ t u rest,
        exec (.tlpReceived seq ok p) s = .next t ∧ t.txq = s.txq ++ u :: rest ∧ u.kind = .cplD ∧ u.fn = f ∧ u.tag = p.tag ∧
        u.status = .sc ∧ u.len = 4 ∧ t.fns = s.fns ∧ t.reqs = s.reqs ∧ t.fc.taken = s.fc.taken ∧ t.standing = v.standing)) ∧
    (ok = true → seq = s.dll.rxSeq → s.overflows p = false → p.malformed = false → p.tlpPrefix = false →
      p.data.length ≤ (s.fn (s.addressed p)).mps →
      (p.kind = .setSlotPowerLimit → ∃ t, exec (.tlpReceived seq ok p) s = .next t ∧ t.fc.taken = s.fc.taken ∧
        t.fc.alloc.ph = s.fc.alloc.ph + 1 ∧ t.txq = s.txq ∧ t.reqs = s.reqs ∧ t.fns = s.fns ∧ t.items = s.items ∧
        t.standing = v.standing) ∧
      (p.kind = .vendor1 → ∃ t, exec (.tlpReceived seq ok p) s = .next t ∧ t.fc.taken = s.fc.taken ∧
        t.fc.alloc.ph = s.fc.alloc.ph + 1 ∧ t.fc.alloc.pd = s.fc.alloc.pd + dataUnits p.data.length ∧ t.txq = s.txq ∧
        t.reqs = s.reqs ∧ t.fns = s.fns ∧ t.items = s.items ∧
        t.standing = v.standing) ∧
      (p.kind ∈ [TlpKind.ioRd, .ioWr, .mRdLk, .fetchAdd, .swap, .cas, .cfgRd1, .cfgWr1] →
        ∃ t u, exec (.tlpReceived seq ok p) s = .next t ∧ t.txq = s.txq ++ [u] ∧ u.kind = .cpl ∧ u.fn = 0 ∧ u.tag = p.tag ∧
          u.status = .ur ∧ t.reqs = s.reqs ∧ t.fc.taken = s.fc.taken ∧ t.fc.alloc.nph = s.fc.alloc.nph + 1 ∧
          uncRecorded (s.fn 0) (t.fn 0) 20 true ∧ (∀ f, f ≠ 0 → t.fn f = s.fn f) ∧ t.standing = v.standing))

/-- R154, R155, R310: an UpdateFC reports the cumulative count of its type; every 3,000 ticks all four are reported. A
received UpdateFC replaces the limits of its class, an infinite limit stands, and a nonzero count against an infinite limit
is a Flow Control Protocol Error that changes no limit, recorded in every exposed function (the model's reading, entry 22; the bit
is PRESUMED, entry 9). Where the command stands for an event at a fixed tick, the clock is
brought to that tick (the model's choice, entry 1). -/
def Obligations.UpdateFc : Prop :=
  ∀ s : State, s.linkActive = true →
    (∀ ty, ∃ t, exec (.updatefcSend ty) s = .next t ∧
      t = { s with fc := { s.fc with sent := t.fc.sent }, link := { s.link with txL0s := false } } ∧
      t.fc.sent.ph = (if ty = .ph then s.fc.alloc.ph else s.fc.sent.ph) ∧ t.fc.sent.pd = (if ty = .pd then s.fc.alloc.pd else s.fc.sent.pd) ∧
      t.fc.sent.nph = (if ty = .nph then s.fc.alloc.nph else s.fc.sent.nph) ∧
      t.fc.sent.npd = (if ty = .npd then s.fc.alloc.npd else s.fc.sent.npd)) ∧
    (∃ t, exec .updatefcPeriodic s = .next t ∧ t.fc = { s.fc with sent := s.fc.alloc } ∧
      t.clk = (s.advanceTo (tickPlus s.link.fcTick 3000)).clk ∧ t.link = { (s.advanceTo (tickPlus s.link.fcTick 3000)).link with fcTick := t.now, txL0s := false } ∧
      t.standing = { (s.advanceTo (tickPlus s.link.fcTick 3000)).standing with link := t.link }) ∧
    (∀ cls hdr dat, fcViolates s.fc.limits cls hdr dat = false → ∃ t, exec (.updatefcReceived cls hdr dat) s = .next t ∧
      t = { s with fc := { s.fc with limits := t.fc.limits }, wake := true } ∧
      (cls = .posted → t.fc.limits = { s.fc.limits with ph := s.fc.limits.ph.map fun _ => hdr, pd := s.fc.limits.pd.map fun _ => dat }) ∧
      (cls = .nonPosted → t.fc.limits = { s.fc.limits with nph := s.fc.limits.nph.map fun _ => hdr, npd := s.fc.limits.npd.map fun _ => dat }) ∧
      (cls = .completion → t.fc.limits = { s.fc.limits with cplh := s.fc.limits.cplh.map fun _ => hdr, cpld := s.fc.limits.cpld.map fun _ => dat })) ∧
    (∀ cls hdr dat, fcViolates s.fc.limits cls hdr dat = true → ∃ t, exec (.updatefcReceived cls hdr dat) s = .next t ∧
      t.fc = s.fc ∧ t.standing = s.standing ∧ ∀ f, s.exposed f.val = true → (t.fn f).uncSta = (s.fn f).uncSta ||| 0x2000)

/-! ### Configuration -/

/-- R12, R13, R156, R159, R175, R185, R186: a configuration write to an exposed function is completed with one Cpl of its tag
and keeps the bus number; one to any other function is an Unsupported Request, completed with UR and recorded in function 0. An uncorrectable or correctable status bit clears when 1 is written in an enabled byte, a mask or severity
takes the enabled bytes within its writable bits, and a write to a register that R12 does not list changes nothing else.
R13, R180: a BAR write takes the enabled bytes, function 0's at 0x18 and 0x1C, a hearth function's at 0x10 and 0x14; the BAR
reads as its value with the bits below its size 0, so every BAR is aligned to its size. -/
def Obligations.ConfigurationWrites : Prop :=
  (∀ (f : FnId) (off : Fin 4096) (be : BitVec 4) (data : Dword) (bus : Byte) (tag : Nat) (s : State), s.cfgReaches f = true →
     off.val % 4 = 0 →
     ∃ t, exec (.configWrite f off be data bus tag) s = .next t ∧
       (∃ pre u, t.txq = pre ++ [u] ∧ u.kind = .cpl ∧ u.fn = f ∧ u.tag = tag ∧ u.status = .sc) ∧
       (off.val ∉ [0x04, 0x10, 0x14, 0x18, 0x1C, 0x44, 0x58, 0x78, 0x160] →
         t.fns = vset s.fns f { s.fn f with
           bus := bus
           uncSta := if off.val = 0x104 then (s.fn f).uncSta &&& ~~~(data &&& beMask be) else (s.fn f).uncSta
           corSta := if off.val = 0x110 then (s.fn f).corSta &&& ~~~(data &&& beMask be) else (s.fn f).corSta
           uncMask := if off.val = 0x108 then merge (s.fn f).uncMask data be &&& uncWritable else (s.fn f).uncMask
           uncSev := if off.val = 0x10C then merge (s.fn f).uncSev data be &&& uncWritable else (s.fn f).uncSev
           corMask := if off.val = 0x114 then merge (s.fn f).corMask data be &&& corWritable else (s.fn f).corMask } ∧
         t.txq.length = s.txq.length + 1 ∧ t.reqs = s.reqs ∧ t.items = s.items ∧ t.fc.taken = s.fc.taken ∧
         t.fc.alloc.nph = s.fc.alloc.nph + 1 ∧ t.standing = { s.standing with fns := steadyFns t.fns })) ∧
  (∀ (f : FnId) (off : Fin 4096) (be : BitVec 4) (data : Dword) (bus : Byte) (tag : Nat) (s : State), s.cfgReaches f = true →
     (off.val = (if f.val = 0 then 0x18 else 0x10) ∨ off.val = (if f.val = 0 then 0x1C else 0x14)) →
     ∃ t, exec (.configWrite f off be data bus tag) s = .next t ∧
       t.fns = vset s.fns f { s.fn f with bus := bus, bar := (t.fn f).bar } ∧
       (off.val % 8 = 0 →
         (t.fn f).bar = (s.fn f).bar.extractLsb' 32 32 ++ merge ((s.fn f).bar.extractLsb' 0 32) data be) ∧
       (off.val % 8 = 4 → (t.fn f).bar = merge ((s.fn f).bar.extractLsb' 32 32) data be ++ (s.fn f).bar.extractLsb' 0 32) ∧
       t.barValue f % 2 ^ t.barBits f = 0 ∧ t.barBits f = s.barBits f ∧
       (∃ u, t.txq = s.txq ++ [u] ∧ u.kind = .cpl ∧ u.tag = tag ∧ u.fn = f) ∧ t.reqs = s.reqs ∧
       t.standing = { s.standing with fns := steadyFns t.fns }) ∧
  (∀ (f : FnId) (off : Fin 4096) (be : BitVec 4) (data : Dword) (bus : Byte) (tag : Nat) (s : State), s.hostLinkUp = true →
     s.exposed f.val = false → ∃ t u, exec (.configWrite f off be data bus tag) s = .next t ∧ t.txq = s.txq ++ [u] ∧
       u.kind = .cpl ∧ u.fn = 0 ∧ u.tag = tag ∧ u.status = .ur ∧ uncRecorded (s.fn 0) (t.fn 0) 20 true ∧
       (∀ g, g ≠ 0 → t.fn g = s.fn g) ∧ t.reqs = s.reqs ∧ t.fc.taken = s.fc.taken ∧ t.standing = s.standing)

/-- R191, R251: a read of the slot-state dword of this bridge's own Soot Report is completed with data: eight slot-state
codes, hearth 8h + i in bits 4i + 3 to 4i. The slot-event sources whose recorded code it returns are cleared, the others
stand. -/
def Obligations.SootReportRead : Prop :=
  ∀ (half : Fin 2) (tag : Nat) (s : State), s.cfgReaches 0 = true →
    ∃ t u v, exec (.sootReportRead s.pos half tag) s = .next t ∧ (∃ rest, t.txq = s.txq ++ u :: rest) ∧ u.kind = .cplD ∧
      u.fn = 0 ∧ u.tag = tag ∧ u.len = 4 ∧ u.bytes = (leBytes v 4).zipIdx.map (fun p => (p.2, p.1)) ∧
      (∀ i : Fin 8, v / 2 ^ (4 * i.val) % 16 = (s.hearth (Fin.ofNat 16 (8 * half.val + i.val))).slot.code) ∧
      (∀ h : Fin 64, vget t.irq.slotEvents h =
        if posOf h = s.pos ∧ (hearthOf h).val / 8 = half.val ∧
            vget s.irq.slotEvents h = some ((s.hearth (hearthOf h)).slot.code) then none else vget s.irq.slotEvents h) ∧
      t.fns = s.fns ∧ t.reqs = s.reqs ∧ t.standing = s.standing

/-- R92, R118, R161, R162, R178, R179, R183, R184, R237, R270: each of the eight bits of a function that has its own command
takes its value and no other field of a function changes; Interrupt Disable of function 0 does not exist. Clearing Bus
Master Enable discards the unsent TLPs of the function's kind-0 work, function 0's the queued sample records. Setting LTR
Mechanism Enable of function 0 asks for a message. A member hearth's bridge hears of a D0 it leaves or enters (the model's choice,
entry 28). That the skips carried by discarded records are lost is the model's choice (entry 91). -/
def Obligations.FieldWrites : Prop :=
  ∀ (f : FnId) (s : State), s.cfgReaches f = true →
    (∃ t, exec (.busMasterEnableSet f) s = .next t ∧
      (∀ g, (t.fn g).steady = if g = f then { (s.fn f).steady with bme := true } else (s.fn g).steady) ∧
      ((∀ x ∈ s.chim.held, x.2.dstPort.val ≠ 16) → t.fns = vset s.fns f { s.fn f with bme := true } ∧ t.items = s.items) ∧
      t.txq = s.txq ∧ t.reqs = s.reqs ∧ t.standing = { s.standing with fns := steadyFns t.fns }) ∧
    ((s.fn f).bme = true → ∃ t, exec (.busMasterEnableClear f) s = .next t ∧
      (∀ g, (t.fn g).steady = if g = f then { (s.fn f).steady with bme := false } else (s.fn g).steady) ∧
      (∀ h, hearthOfFn f = some h → t.txq = s.txq.filter fun u => !TxTlp.kind0Of h u) ∧
      (f.val = 0 → t.txq = s.txq.filter (fun u => u.origin != .sample) ∧ t.sampler.queue = [] ∧
        t.sampler.skipped = s.sampler.skipped + s.sampler.queue.length +
          (s.txq.filter fun u => u.origin = .sample && !u.awaitsRecord).length) ∧
      t.standing = { s.standing with fns := steadyFns t.fns }) ∧
    (∀ v, ∃ t, exec (.memorySpaceEnableWrite f v) s = .next t ∧ t.fns = vset s.fns f { s.fn f with mse := v } ∧ t.txq = s.txq ∧
      t.items = s.items ∧ t.standing = { s.standing with fns := steadyFns t.fns }) ∧
    (∀ v, ∃ t, exec (.interruptDisableWrite f v) s = .next t ∧
      t.fns = (if f.val = 0 then s.fns else vset s.fns f { s.fn f with intd := v }) ∧ t.txq = s.txq ∧
      t.irq = s.irq ∧ t.items.service = s.items.service ∧ t.items.slots = s.items.slots ∧
      t.standing = { s.standing with fns := steadyFns t.fns }) ∧
    (∀ p, ∃ t, exec (.powerStateWrite f p) s = .next t ∧ t.fns = vset s.fns f { s.fn f with power := p } ∧ t.txq = s.txq ∧
      t.irq = s.irq ∧ t.items.service = s.items.service ∧ t.items.slots = s.items.slots ∧
      t.standing = { s.standing with fns := steadyFns t.fns }) ∧
    (∀ v, ∃ t, exec (.ltrMechanismEnableWrite f v) s = .next t ∧
      t = { s with fns := vset s.fns f { s.fn f with ltr := v }, wake := true
                   ledger := { s.ledger with ltrAsked := s.ledger.ltrAsked || (f.val = 0 && v && !(s.fn f).ltr) } }) ∧
    (∀ v, exec (.tenBitTagEnableWrite f v) s = .next { s with fns := vset s.fns f { s.fn f with tenBit := v }, wake := true }) ∧
    (∀ v, ∃ t, exec (.extendedTagEnableWrite f v) s = .next t ∧ (t.fn f).devctl.getLsbD 8 = v ∧
      (∀ i, i ≠ 8 → (t.fn f).devctl.getLsbD i = (s.fn f).devctl.getLsbD i) ∧
      t = { s with fns := vset s.fns f { s.fn f with devctl := (t.fn f).devctl }, wake := true })

/-! ### Resets of functions and of the link -/

/-- R12, R315, R317, R318, R320, R324: the FLR of a hearth function takes effect in its tick: the function's fields take
their reset values but the sticky ones and the bus number, its requests and the unsent TLPs of its kind-0 work are gone, a read
received in that very tick answered with UR, its wire counts as deasserted and its slot-event source is clear. A hearth of this bridge is reset in any slot state: its cycle
and its lock are gone, HnBREQ_N stays high for 11,000 ticks, its slot state stands. At t + 10,000 the FLR is complete and
HnRSTO_N rises. Other functions and hearths, and everything else, stand. R270, R319: the FLR of function 0 resets its fields
but the sticky ones, drops the requests to the hearthstone, those of that very tick answered with UR, and the sample records not yet
sent, which count as skipped (what they carried is lost: the model's choice, entry 91); no
hearth, no other function and no byte of the hearthstone changes. It is complete 1,000 ticks later. Where the command stands
for an event at a fixed tick, the clock is brought to that tick (the model's choice, entry 1). -/
def Obligations.FunctionResets : Prop :=
  ((∀ (h : Fin 64) (s : State), s.cfgReaches (fnOfChimney h) = true → ∃ t, exec (.initiateFlr h) s = .next t ∧
     (t.fn (fnOfChimney h)).steady =
       { (s.fn (fnOfChimney h)).functionReset with flr := some s.now, flrBar := (s.fn (fnOfChimney h)).bar }.steady ∧
     (∀ g, g ≠ fnOfChimney h → (t.fn g).steady = (s.fn g).steady) ∧
     (∀ r ∈ t.reqs, r.stone = true ∨ r.fn ≠ fnOfChimney h) ∧ (∀ u ∈ t.txq, TxTlp.kind0Of h u = false) ∧
     (∀ r ∈ s.reqs, idsOk s → r.stone = false → r.fn = fnOfChimney h → r.receipt = s.now → r.read = true →
       ∃ u ∈ t.txq, u.kind = .cpl ∧ u.status = .ur ∧ u.tag = r.tag ∧ u.fn = r.fn) ∧
     vget t.irq.wires (fnOfChimney h) = false ∧ vget t.irq.slotEvents h = none ∧
     (posOf h = s.pos → (t.hearth (hearthOf h)).resetFrom = some s.now ∧
       (t.hearth (hearthOf h)).bus.breqFrom = some (tickPlus s.now 11000) ∧ (t.hearth (hearthOf h)).bus.breqLow = false ∧
       (t.hearth (hearthOf h)).slot = (s.hearth (hearthOf h)).slot ∧ (t.hearth (hearthOf h)).cyc = none ∧
       (t.hearth (hearthOf h)).lock = none ∧ (t.hearth (hearthOf h)).irqLow = (s.hearth (hearthOf h)).irqLow) ∧
     (∀ m, m ≠ hearthOf h ∨ posOf h ≠ s.pos → (t.hearth m).steady = (s.hearth m).steady) ∧
     t.standing = { s.standing with fns := steadyFns t.fns, hearths := steadyHearths t.hearths }) ∧
   (∀ (h : Fin 64) (from' : Tally) (s : State), (s.fn (fnOfChimney h)).flr = some from' → s.running = true →
     ∃ t, exec (.flrComplete h) s = .next t ∧ t.clk = (s.advanceTo (tickPlus from' 10000)).clk ∧
       t.fns = vset s.fns (fnOfChimney h) { s.fn (fnOfChimney h) with flr := none } ∧
       (s.intaCount (fnOfChimney h) = true → vget t.irq.wires (fnOfChimney h) = true) ∧ t.reqs = s.reqs ∧ t.txq = s.txq ∧
       t.standing = { (s.advanceTo (tickPlus from' 10000)).standing with fns := steadyFns t.fns }) ∧
   (∀ (n : HearthId) (from' : Tally) (s : State), (s.hearth n).resetFrom = some from' → s.running = true →
     ∃ t, exec (.hearthResetRelease n) s = .next t ∧ t.clk = (s.advanceTo (tickPlus from' 10000)).clk ∧
       (t.hearth n).resetFrom = none ∧
       (t.hearth n).bus.breqFrom = ((s.advanceTo (tickPlus from' 10000)).hearth n).bus.breqFrom ∧
       (t.hearth n).slot = ((s.advanceTo (tickPlus from' 10000)).hearth n).slot ∧
       (∀ m, m ≠ n → t.hearth m = (s.advanceTo (tickPlus from' 10000)).hearth m) ∧ t.reqs = s.reqs ∧ t.txq = s.txq ∧
       t.standing = { (s.advanceTo (tickPlus from' 10000)).standing with hearths := steadyHearths t.hearths })) ∧
  ((∀ s : State, s.cfgReaches 0 = true → ∃ t, exec .flrFunction0 s = .next t ∧
     t.fns = vset s.fns 0 { (s.fn 0).functionReset with flr := some s.now, flrBar := (s.fn 0).bar } ∧
     (∀ r ∈ t.reqs, r.stone = false) ∧
     (∀ r ∈ s.reqs, idsOk s → r.stone = true → r.receipt = s.now → r.read = true →
       ∃ u ∈ t.txq, u.kind = .cpl ∧ u.status = .ur ∧ u.tag = r.tag ∧ u.fn = r.fn) ∧
     t.sampler.queue = [] ∧ (∀ u ∈ t.txq, u.origin ≠ .sample) ∧ (∀ u ∈ s.txq, u.origin ≠ .sample → u ∈ t.txq) ∧ t.irq = s.irq ∧
     t.sampler.skipped = s.sampler.skipped + s.sampler.queue.length +
       (s.txq.filter fun u => u.origin = .sample && !u.awaitsRecord).length ∧
     (∀ n, (t.hearth n).steady = (s.hearth n).steady) ∧ (∀ a, stoneRead t.stone a = stoneRead s.stone a) ∧
     t.standing = { s.standing with fns := steadyFns t.fns }) ∧
   (∀ (from' : Tally) (s : State), (s.fn 0).flr = some from' → s.running = true → ∃ t, exec .flrFunction0Complete s = .next t ∧
     t.clk = (s.advanceTo (tickPlus from' 1000)).clk ∧ t.fns = vset s.fns 0 { s.fn 0 with flr := none } ∧ t.reqs = s.reqs ∧
     t.txq = s.txq ∧ t.standing = { (s.advanceTo (tickPlus from' 1000)).standing with fns := steadyFns t.fns }) ∧
   (∀ c : FnCfg, (c.functionReset).bme = false ∧ (c.functionReset).mse = false ∧ (c.functionReset).bar = 0 ∧
     (c.functionReset).power = .d0 ∧ (c.functionReset).intd = false ∧ (c.functionReset).uncSta = c.uncSta ∧
     (c.functionReset).corSta = c.corSta ∧ (c.functionReset).pmeEn = c.pmeEn ∧ (c.functionReset).pmeStatus = c.pmeStatus))

/-- R130, R151, R315, R316: a Hot Reset, a Link Disable or DL_Down starts the data link, the replay buffer and flow control
over, discards every request, tag and queued TLP, runs the FLR procedure on every exposed function in the same tick and,
from the gate on, enters Detect. The mode, the settings, the ledger and the hearthstone stand. M5 and M6 have no link reset:
there the link alone starts over (the model's reading). -/
def Obligations.LinkFalls : Prop :=
  ∀ (cause : LinkResetCause) (s : State), s.hostLinkUp = true → ∃ t, exec (.linkReset cause) s = .next t ∧
    t.dll = Dll.reset ∧ t.fc = Fc.reset ∧ t.txq = [] ∧ t.reqs = [] ∧ t.tags = [] ∧
    (t.link.st = .detect ∧ t.link.width = 0) ∧
    (s.mode.tests = false → ∀ f, s.exposed f.val = true → (t.fn f).flr = some s.now ∧ (t.fn f).bme = false ∧
      (t.fn f).mse = false ∧ (t.fn f).bar = 0 ∧ (t.fn f).power = .d0) ∧
    (∀ f, s.mode.tests = true ∨ s.exposed f.val = false → (t.fn f).steady = (s.fn f).steady) ∧
    (∀ n, (t.hearth n).slot = (s.hearth n).slot ∧ (t.hearth n).cfg = (s.hearth n).cfg ∧ (t.hearth n).balls = (s.hearth n).balls) ∧
    t.standing = { s.standing with
      dll := Dll.reset, tags := [], link := t.link, lanes := t.lanes, fns := steadyFns t.fns, hearths := steadyHearths t.hearths }

/-! ### Host memory requests -/

/-- R23, R156, R160, R179, R183, R222, R317, R327: a memory request to a function under FLR, without Memory Space Enable,
outside D0, or in M5, M6 or M7 is an Unsupported Request: a read is completed with UR, a write is dropped, the credits return
and the error is recorded in that function, but not during an FLR unless its hearth drains (R323). A request to a function the mode does not expose is an
Unsupported Request of function 0. A write with a payload above Max_Payload_Size is a Malformed TLP and is dropped. -/
def Obligations.RequestsTurnedAway : Prop :=
  (∀ (c : Instr) (f : FnId) (read : Bool) (q : MemReq) (s : State), s.hostLinkUp = true → idsOk s → q.wf read = true →
    ((∃ h, s.exposed (fnOfChimney h).val = true ∧ f = fnOfChimney h ∧ c = if read then .memoryReadBar0 h q else .memoryWriteBar0 h q) ∨
      (f = 0 ∧ c = if read then .memoryReadBar2 q else .memoryWriteBar2 q)) → (read = true ∨ q.len ≤ (s.fn f).mps) →
    ((s.fn f).flr.isSome = true ∨ s.mode.tests = true ∨ s.mode = .m7 ∨ (s.fn f).mse = false ∨ (s.fn f).power ≠ .d0) →
    ∃ t, exec c s = .next t ∧ t.reqs = s.reqs ∧ t.fc.taken = s.fc.taken ∧
      (read = true → t.fc.alloc.nph = s.fc.alloc.nph + 1 ∧
        ∃ u, t.txq = s.txq ++ [u] ∧ u.kind = .cpl ∧ u.status = .ur ∧ u.tag = q.tag ∧ u.fn = f) ∧
      (read = false → t.txq = s.txq ∧ t.fc.alloc.ph = s.fc.alloc.ph + 1 ∧ t.fc.alloc.pd = s.fc.alloc.pd + dataUnits q.len) ∧
      ((s.fn f).flr.isSome = true → s.drainsFor f = false → t.fns = s.fns ∧ t.items = s.items) ∧
      ((s.fn f).flr = none ∨ s.drainsFor f = true → uncRecorded (s.fn f) (t.fn f) 20 read) ∧ (∀ g, g ≠ f → t.fn g = s.fn g) ∧
      t.soot = s.soot ∧ t.irq = s.irq ∧ t.sw = s.sw ∧ t.standing = s.standing) ∧
  (∀ (h : Fin 64) (read : Bool) (q : MemReq) (s : State), s.hostLinkUp = true → idsOk s → q.wf read = true →
    s.exposed (fnOfChimney h).val = false → ∃ t, exec (if read then .memoryReadBar0 h q else .memoryWriteBar0 h q) s = .next t ∧
      t.reqs = s.reqs ∧ t.fc.taken = s.fc.taken ∧ (read = false → t.txq = s.txq) ∧
      (read = true → ∃ u, t.txq = s.txq ++ [u] ∧ u.kind = .cpl ∧ u.status = .ur ∧ u.tag = q.tag ∧ u.fn = 0) ∧
      uncRecorded (s.fn 0) (t.fn 0) 20 read ∧ (∀ g, g ≠ 0 → t.fn g = s.fn g) ∧ t.standing = s.standing) ∧
  (∀ (c : Instr) (f : FnId) (q : MemReq) (s : State), s.hostLinkUp = true → idsOk s → q.wf false = true →
    ((∃ h, s.exposed (fnOfChimney h).val = true ∧ f = fnOfChimney h ∧ c = .memoryWriteBar0 h q) ∨
      (f = 0 ∧ c = .memoryWriteBar2 q)) → (s.fn f).mps < q.len →
    ∃ t, exec c s = .next t ∧ t.reqs = s.reqs ∧ t.txq = s.txq ∧ t.fc.taken = s.fc.taken ∧
      t.fc.alloc.ph = s.fc.alloc.ph + 1 ∧ t.fc.alloc.pd = s.fc.alloc.pd + dataUnits q.len ∧
      (t.fn f).uncSta = (s.fn f).uncSta ||| 0x40000 ∧ (∀ g, g ≠ f → t.fn g = s.fn g) ∧ t.soot = s.soot ∧ t.standing = s.standing)

/-- R107, R153, R160, R261, R279, R282, R283: a request to BAR-2 within 1 MiB whose bytes pass is issued: one host-level
item for each 64-byte block it touches, the credits held. One whose lowest failing byte is a fails: a fault entry with that
address is written in ring order, a read is completed with CA, a write is dropped, Completer Abort is recorded in function
0. One past 1 MiB is an Unsupported Request. Nothing is written yet in any case. -/
def Obligations.StoneRequests : Prop :=
  ∀ (read : Bool) (q : MemReq) (s : State), s.hostLinkUp = true → idsOk s → q.wf read = true →
    (read = true ∨ q.poisoned = false ∧ q.len ≤ (s.fn 0).mps) → (s.fn 0).flr = none → s.mode.tests = false → s.mode ≠ .m7 → (s.fn 0).mse = true → (s.fn 0).power = .d0 →
    ∃ t, exec (if read then .memoryReadBar2 q else .memoryWriteBar2 q) s = .next t ∧ t.standing = s.standing ∧
      (∀ a, stoneRead t.stone a = stoneRead s.stone a) ∧
      (q.off + q.len ≤ 1048576 →
        (∀ l, l = (if read then (List.range q.len).map (q.off + ·) else (enabledBytes q.off q.len q.be q.data).map (·.1)) →
          (s.stoneFault 15 l = none → t.txq = s.txq ∧ t.fns = s.fns ∧ t.soot = s.soot ∧
            t.items.host.length = s.items.host.length + (blocks q.off q.len).length ∧
            t.items.service = s.items.service ∧ t.items.slots = s.items.slots ∧
            (∃ r, t.reqs = s.reqs ++ [r] ∧ r.st = .issued ∧ r.off = q.off ∧ r.len = q.len ∧ r.tag = q.tag ∧ r.stone = true ∧
              r.left = (blocks q.off q.len).length ∧ r.receipt = s.now) ∧
            t.fc.alloc = s.fc.alloc ∧ (read = true → t.fc.taken.nph = s.fc.taken.nph + 1) ∧
            (read = false → t.fc.taken.ph = s.fc.taken.ph + 1 ∧ t.fc.taken.pd = s.fc.taken.pd + dataUnits q.len)) ∧
          (∀ a, s.stoneFault 15 l = some a → t.reqs = s.reqs ∧ t.fc.taken = s.fc.taken ∧
            t.soot.faults = min 0xFFFF (s.soot.faults + 1) ∧ t.soot.next = s.soot.next + 1 ∧
            (∃ e, vget t.soot.entries s.soot.next = some e ∧ e.addr = BitVec.ofNat 32 a ∧ e.key = 15 ∧ e.port = 16 ∧
              e.tally = s.now ∧ e.downstream = false) ∧ uncRecorded (s.fn 0) (t.fn 0) 15 read ∧
            (∀ f, f ≠ 0 → t.fn f = s.fn f) ∧ (read = false → t.txq = s.txq) ∧
            (read = true → ∃ u, t.txq = s.txq ++ [u] ∧ u.kind = .cpl ∧ u.status = .ca ∧ u.tag = q.tag)))) ∧
      (1048576 < q.off + q.len → t.reqs = s.reqs ∧ t.soot = s.soot ∧ uncRecorded (s.fn 0) (t.fn 0) 20 read ∧
        (read = true → ∃ u, t.txq = s.txq ++ [u] ∧ u.kind = .cpl ∧ u.status = .ur ∧ u.tag = q.tag))

/-- R107, R171, R174, R216, R221, R222, R274, R280, R282: a request to BAR-0 of an IN_SERVICE hearth of this bridge that is
not being re-read is decoded by its windows. Wholly in open windows with matching keys it waits to be issued, and is issued,
one item a block, when no other request is there; a miss is an Unsupported Request; a byte whose key does not match is a
fault of the downstream unit. Within the hold-off nothing is issued and the watchdog of the request runs from its end. While
the hearth is re-read the request is held and nothing is sent. -/
def Obligations.HearthRequests : Prop :=
  ∀ (n : HearthId) (h : Fin 64) (read : Bool) (q : MemReq) (s : State), s.hostLinkUp = true → idsOk s → q.wf read = true →
    (read = true ∨ q.poisoned = false ∧ q.len ≤ (s.fn (fnOfChimney h)).mps) → h = chimneyOf s.pos n → s.exposed (fnOfChimney h).val = true →
    (s.fn (fnOfChimney h)).flr = none → s.mode.tests = false → s.mode ≠ .m7 → (s.fn (fnOfChimney h)).mse = true →
    (s.fn (fnOfChimney h)).power = .d0 →
    ∃ t, exec (if read then .memoryReadBar0 h q else .memoryWriteBar0 h q) s = .next t ∧ t.standing = s.standing ∧
      ((s.hearth n).slot = .sampling ∨ ((s.hearth n).slot = .inService ∧ (s.hearth n).reload.isSome = true) →
        (∃ r, t.reqs = s.reqs ++ [r] ∧ r.st = .held ∧ r.tag = q.tag) ∧ t.txq = s.txq ∧ t.items = s.items ∧ t.fns = s.fns) ∧
      ((s.hearth n).slot = .inService → (s.hearth n).reload = none →
        ((s.hearth n).cfg.parts 8 q.off q.len = none → t.reqs = s.reqs ∧ t.soot = s.soot ∧
          uncRecorded (s.fn (fnOfChimney h)) (t.fn (fnOfChimney h)) 20 read ∧
          (read = true → ∃ u, t.txq = s.txq ++ [u] ∧ u.kind = .cpl ∧ u.status = .ur ∧ u.tag = q.tag)) ∧
        (∀ ps, (s.hearth n).cfg.parts 8 q.off q.len = some ps →
          (∀ a, keyMatches (s.hearth n).cfg.hkey (s.hearth n).cfg.ktag = false →
            checkedByte (s.hearth n).cfg (s.newReq (fnOfChimney h) false read q) ps = some a → t.reqs = s.reqs ∧
            uncRecorded (s.fn (fnOfChimney h)) (t.fn (fnOfChimney h)) 15 read ∧ t.soot.next = s.soot.next + 1 ∧
            (∃ e, vget t.soot.entries s.soot.next = some e ∧ e.downstream = true ∧ e.hearth = n ∧ e.port = 16 ∧
              e.addr = BitVec.ofNat 32 a ∧ e.key = (s.hearth n).cfg.hkey ∧ e.tag = (s.hearth n).cfg.ktag) ∧
            (read = true → ∃ u, t.txq = s.txq ++ [u] ∧ u.kind = .cpl ∧ u.status = .ca ∧ u.tag = q.tag)) ∧
          (keyMatches (s.hearth n).cfg.hkey (s.hearth n).cfg.ktag = true ∨
              checkedByte (s.hearth n).cfg (s.newReq (fnOfChimney h) false read q) ps = none →
            t.txq = s.txq ∧ t.fns = s.fns ∧ t.soot = s.soot ∧
            (∃ r, t.reqs = s.reqs ++ [r] ∧ (r.st = .waiting ∨ r.st = .issued) ∧ r.off = q.off ∧ r.len = q.len ∧ r.tag = q.tag ∧
              r.fn = fnOfChimney h ∧ r.nonPosted = (!read && ps.any fun p => p.1.nonPosted)) ∧
            (s.holdoff n = true → t.items = s.items ∧
              ∃ r, t.reqs = s.reqs ++ [r] ∧ r.st = .waiting ∧ some r.wdStart = (s.hearth n).bus.breqFrom) ∧
            (s.holdoff n = false → s.reqs = [] → (∃ r, t.reqs = [r] ∧ r.st = .issued) ∧ t.items.host.length = s.items.host.length +
              (ps.flatMap fun p => blocks p.2.1 p.2.2).length))))

/-- R156, R160, R163, R165, R255, R310, R313: a completion of a tag in flight releases the tag, and the read it answers ends: to a
hearth's open cycle it crosses the switch from port 16 as a piece of class 2 with its data. One with data above Max_Payload_Size is a
Malformed TLP and releases no tag. UR sets Received Master Abort and CA Received Target Abort in
the function of the read; poisoned data are Poisoned TLP there. One whose cycle has ended records nothing. A completion of no
tag is an Unexpected Completion. After
1,000,000 ticks without one the tag is released and Completion Timeout recorded. Where the command stands for an event at a
fixed tick, the clock is brought to that tick (the model's choice, entry 1). -/
def Obligations.CompletionsForReads : Prop :=
  (∀ (tag : Nat) (st : CplStatus) (poisoned : Bool) (data : List Byte) (fn : Nat) (hdr : Vector Dword 4) (s : State),
    s.hostLinkUp = true → ∃ t, exec (.completionReceived tag st poisoned data fn hdr) s = .next t ∧
      ((∀ x, (s.tags.find? fun y => y.tag = tag) = some x → data.length ≤ (s.fn x.fn).mps) → t.tags = s.tags.filter (fun x => x.tag ≠ tag)) ∧
      t.standing = { s.standing with tags := t.tags } ∧ t.reqs = s.reqs ∧
      (∀ x, (s.tags.find? fun y => y.tag = tag) = some x → (s.fn x.fn).mps < data.length → t.tags = s.tags ∧ t.txq = s.txq ∧
        t.hearths = s.hearths ∧ t.sw = s.sw ∧ (s.exposed x.fn.val = true → (t.fn x.fn).uncSta = (s.fn x.fn).uncSta ||| 0x40000)) ∧
      ((∀ x ∈ s.tags, x.tag ≠ tag) → t.txq = s.txq ∧ t.hearths = s.hearths ∧
        uncRecorded (s.fn (if s.exposed fn then Fin.ofNat 65 fn else 0)) (t.fn (if s.exposed fn then Fin.ofNat 65 fn else 0)) 16 true) ∧
      (∀ x, (s.tags.find? fun y => y.tag = tag) = some x → data.length ≤ (s.fn x.fn).mps → s.awaited x.origin = false →
        t.txq = s.txq ∧ t.hearths = s.hearths ∧ ((∀ y ∈ s.chim.held, y.2.dstPort.val ≠ 16) → t.fns = s.fns)) ∧
      (∀ x, (s.tags.find? fun y => y.tag = tag) = some x → data.length ≤ (s.fn x.fn).mps → s.exposed x.fn.val = true →
        s.awaited x.origin = true →
        (poisoned = true → (t.fn x.fn).uncSta.getLsbD 12 = true ∧ (t.fn x.fn).status.getLsbD 15 = true) ∧
        (poisoned = false → (st = .ur → (t.fn x.fn).status.getLsbD 13 = true) ∧
          (st = .ca → (t.fn x.fn).status.getLsbD 12 = true) ∧
          (st = .sc → (∀ y ∈ s.chim.held, y.2.dstPort.val ≠ 16) → t.fns = s.fns)) ∧
        (∀ n serial c, x.origin = .cycle n serial → (s.hearth n).cyc = some c → c.serial = serial → c.phase = .inFlight →
          poisoned = false → ∃ p ∈ vget t.sw.q 16, p.cls = .completion ∧ p.src = 16 ∧ p.dst = hearthPort n ∧ p.origin = x.origin ∧ p.status = st ∧
            p.bytes = data.zipIdx.map (fun y => (x.addr + y.2, y.1))))) ∧
  (∀ (x : HostTag) (s : State), (s.tags.find? fun y => y.tag = x.tag) = some x → s.running = true →
    ∃ t, exec (.completionTimeout x.tag) s = .next t ∧ t.clk = (s.advanceTo (tickPlus x.sent 1000000)).clk ∧
      t.tags = s.tags.filter (fun y => y.tag ≠ x.tag) ∧ (s.exposed x.fn.val = true → (t.fn x.fn).uncSta.getLsbD 14 = true) ∧
      t.reqs = s.reqs ∧ t.standing = { (s.advanceTo (tickPlus x.sent 1000000)).standing with tags := t.tags })

/-- R106, R153, R156: PME_Turn_Off is answered by one PME_TO_Ack message at the host level, for the 26 embers of its own header
and the 26 of the header received; Set_Slot_Power_Limit and
a vendor message of type 1 change no field. The credits of all three return at once and nothing else changes. -/
def Obligations.HostMessages : Prop :=
  ∀ s : State, s.hostLinkUp = true →
    (∃ t it, exec .pmeTurnOff s = .next t ∧ t.items.host.length = s.items.host.length + 1 ∧ it ∈ t.items.host ∧ it.cost = 52 ∧
      it.port = 16 ∧ it.path = [] ∧ it.work = .message (bareTlp .pmeToAck 0) ∧ t.items.service = s.items.service ∧
      t.items.slots = s.items.slots ∧ t.fc.taken = s.fc.taken ∧ t.fc.alloc.ph = s.fc.alloc.ph + 1 ∧ t.fc.alloc.pd = s.fc.alloc.pd ∧
      t.fns = s.fns ∧ t.txq = s.txq ∧ t.reqs = s.reqs ∧ t.standing = s.standing) ∧
    (∀ v, ∃ t, exec (.setSlotPowerLimit v) s = .next t ∧ t.fc.taken = s.fc.taken ∧
      t = { s with fc := { s.fc with taken := t.fc.taken, alloc := { s.fc.alloc with ph := s.fc.alloc.ph + 1, pd := s.fc.alloc.pd + 1 } }
                   wake := true }) ∧
    (∃ t, exec .vendorDefinedType1 s = .next t ∧ t.fc.taken = s.fc.taken ∧
      t = { s with fc := { s.fc with taken := t.fc.taken, alloc := { s.fc.alloc with ph := s.fc.alloc.ph + 1 } }, wake := true })

/-- R166, R174, R221, R236, R305: at its deadline, or when its hearth's watchdog expires, a BAR-0 request is over: it leaves
the pool, and nothing that stands changes but error records and messages; a held read is completed with UR, and a read whose
first byte not yet read lies in a window in error-response mode with that window's status. A non-posted request for another
position, held because no path to it is usable, ends when its target's watchdog expires; with a path nothing ends. Where the command stands for an event at a fixed tick, the clock is
brought to that tick (the model's choice, entry 1). -/
def Obligations.RequestDeadlines : Prop :=
  (∀ (r : HostReq) (s : State), s.req r.id = some r → r.stone = false → s.running = true →
    ∃ t, exec (.hostRequestDeadline r.id) s = .next t ∧ t.clk = (s.advanceTo (s.reqDue r)).clk ∧ (∀ x ∈ t.reqs, x.id ≠ r.id) ∧
      (r.st = .held → r.read = true → ∃ u ∈ t.txq, u.kind = .cpl ∧ u.status = .ur ∧ u.tag = r.tag ∧ u.fn = r.fn) ∧
      (r.st = .held → s.exposed r.fn.val = true → (r.read = false ∨ (s.fn r.fn).uncSev.getLsbD 20 = true ∨
        (s.fn r.fn).corMask.getLsbD 13 = false → (t.fn r.fn).uncSta.getLsbD 20 = true) ∧
        (r.read = true → (s.fn r.fn).uncSev.getLsbD 20 = false → (t.fn r.fn).corSta.getLsbD 13 = true)) ∧
      (∀ p, r.st ≠ .held → r.read = true →
        { r with got := r.got ++ (s.advanceTo (s.reqDue r)).bytesRead r.id }.failing = some p → p.errResp = true →
        ∃ u ∈ t.txq, u.kind = .cpl ∧ u.tag = r.tag ∧ u.status = (if p.ca then .ca else .ur)) ∧
      (r.st ≠ .held → s.exposed r.fn.val = true → (t.fn r.fn).corSta.getLsbD 14 = true) ∧
      t.standing = (s.advanceTo (s.reqDue r)).standing) ∧
  (∀ (r : HostReq) (s : State), s.req r.id = some r → r.stone = false → s.isLocal r = false → s.running = true →
    (r.read = true ∨ r.nonPosted = true) →
    ((s.pathFor (posOf r.chimneyHearth) .nonPosted).isSome = true → exec (.flueHoldExpiry r.id) s = .next s) ∧
    (s.pathFor (posOf r.chimneyHearth) .nonPosted = none → ∃ t, exec (.flueHoldExpiry r.id) s = .next t ∧ t.clk = (s.advanceTo (tickPlus r.receipt (s.reqWatchdog r))).clk ∧
      (∀ x ∈ t.reqs, x.id ≠ r.id) ∧ (s.exposed r.fn.val = true → (t.fn r.fn).corSta.getLsbD 14 = true) ∧
      (∀ p, { r with got := r.got ++ (s.advanceTo (tickPlus r.receipt (s.reqWatchdog r))).bytesRead r.id }.failing = some p →
        r.read = true → p.errResp = true → ∃ u ∈ t.txq, u.kind = .cpl ∧ u.tag = r.tag ∧ u.status = (if p.ca then .ca else .ur)) ∧
      t.standing = (s.advanceTo (tickPlus r.receipt (s.reqWatchdog r))).standing))

/-! ### Hearth cycles with the bridge as target -/

/-- R106, R199, R227, R231, R274, R281, R283: at a data-strobe fall the bridge takes a cycle whose address lies in an open
window. There both strobes in split-strobe are a protocol error, answered with HnBERR_N; an address in no window is not for
the bridge, whatever the strobes. A kind-1 cycle whose bytes pass, with no cause to back off and no lock, is PAYING with one item of 12 + 4 + 2 = 18
embers in its hearth's slot; one whose bytes do not pass is answered with HnBERR_N and leaves a fault entry, and pays
nothing. A cycle of any kind whose bytes pass is backed off in READY, DRAINING, a reload or while HnBREQ_N is low and the
hearth holds no lock (R204). Otherwise: toward the host it ends on the far side in M0 and outside the aperture, is backed off
without Bus Master Enable, outside D0 (a member goes by what it was told, entry 28) and at a bound of R170 or R307, else pays 12 + 4 embers and 26 for each header of the host
link with one for each byte sent, or a member's flue blocks; toward a word another hearth locks it is backed off (R266); toward
hearth m it is backed off while m is re-read, at a bound on crossing tags (R234) and when m's bus is locked, ends on the far
side where m is neither READY nor IN_SERVICE or has no window there (R235), waits BLOCKED for m's bus, and with the grant pays 12 for itself,
4 to cross and 12 for each target cycle; toward another position it is backed off at a bound and else pays 16 and 4 for each flue block. A locked cycle takes its lock with its item. A cycle with
no byte enabled is acknowledged (R198). Only HnLOCK_N's level stands changed. -/
def Obligations.CycleStarts : Prop :=
  ∀ (n : HearthId) (st : Strobe) (s : State), s.running = true → s.hears n = true → st.wf = true →
    ∃ t, exec (.hearthCycleStart n st) s = .next t ∧
      (∀ m, (t.hearth m).steady = if m = n then { (s.hearth n).steady with lockLow := st.lock } else (s.hearth m).steady) ∧
      t.standing = { s.standing with hearths := steadyHearths t.hearths } ∧ t.txq = s.txq ∧ t.reqs = s.reqs ∧
      ((s.hearth n).cfg.up (st.addr.toNat - st.addr.toNat % (s.hearth n).cfg.lanes) = none →
        (t.hearth n).cyc = none ∧ t.items = s.items ∧ t.fns = s.fns) ∧
      (∀ w, (s.hearth n).cfg.up (st.addr.toNat - st.addr.toNat % (s.hearth n).cfg.lanes) = some w →
        st.rd = true → st.wr = true → (s.hearth n).cfg.combined = false → t.items.slots = s.items.slots ∧
        (t.hearth n).berrLow = true ∧ (t.hearth n).ackLow = false ∧ (s.exposed (fnOf n).val = true → (t.fn (fnOf n)).corSta.getLsbD 14 = true)) ∧
      (¬(st.rd = true ∧ st.wr = true ∧ (s.hearth n).cfg.combined = false) →
        (∀ w, (s.hearth n).cfg.up (st.addr.toNat - st.addr.toNat % (s.hearth n).cfg.lanes) = some w → w.kind = 1 →
          (∀ m, (s.hearth m).lock = none) → st.lock = false →
          (∀ a e, s.stoneFault (s.hearth n).cfg.ktag ((s.newCycle n st w).bytes.map (·.1)) = some a →
            s.stoneFaultEntry a (s.hearth n).cfg.ktag (hearthPort n) (cycleKind st.rd false w.nonPosted) = e →
            (t.hearth n).berrLow = true ∧ t.items.slots = s.items.slots ∧ vget t.soot.entries s.soot.next = some e ∧
              t.soot.next = s.soot.next + 1) ∧
          (s.stoneFault (s.hearth n).cfg.ktag ((s.newCycle n st w).bytes.map (·.1)) = none → (s.hearth n).slot = .inService →
            (s.hearth n).reload = none → (s.hearth n).bus.breqLow = false → (s.newCycle n st w).bytes ≠ [] →
            t.soot = s.soot ∧ t.fns = s.fns ∧ t.items.host = s.items.host ∧ t.items.service = s.items.service ∧
            (∃ c, (t.hearth n).cyc = some c ∧ c.phase = .paying ∧ c.addr = st.addr ∧ c.read = st.rd ∧ c.serial = s.nextId ∧
              c.arrival = s.now) ∧
            (∃ it p, vget t.items.slots (hearthSlot n) = vget s.items.slots (hearthSlot n) ++ [it] ∧ it.cost = 18 ∧
              it.port = hearthPort n ∧ it.work = .piece p ∧ p.dst = 19 ∧ p.key = (s.hearth n).cfg.ktag ∧
              p.bytes = (s.newCycle n st w).bytes))) ∧
        (∀ w u c x k, (s.hearth n).cfg.up (st.addr.toNat - st.addr.toNat % (s.hearth n).cfg.lanes) = some w → u = s.lockLevel n st.lock →
          c = u.newCycle n st w → x = (c.bytes.head?.map (·.1)).getD 0 → k = c.bytes.length →
          (c.bytes = [] → u.hearthCause n = false → s.scanDrives = false → t.items = s.items ∧
            (c.read = false → (t.hearth n).ackLow = true) ∧ (c.read = true → (t.hearth n).hd.isSome = true)) ∧
          (∀ e, c.bytes ≠ [] → u.cycleFault n c = some e →
            (t.hearth n).berrLow = true ∧ t.items.slots = s.items.slots ∧ vget t.soot.entries s.soot.next = some e) ∧
          (c.bytes ≠ [] → u.cycleFault n c = none →
            ((s.hearth n).slot = .ready ∨ (s.hearth n).slot = .draining ∨ (s.hearth n).reload.isSome = true ∨
              ((s.hearth n).bus.breqLow = true ∧ (u.hearth n).lock = none) → backedOff s t n) ∧
            ((s.hearth n).slot = .inService → (s.hearth n).reload = none → (s.hearth n).bus.breqLow = false ∨ (u.hearth n).lock ≠ none →
              (w.kind = 0 →
                (s.mode = .m0 ∨ s.inAperture (c.bytes.map (·.1)) = false → farEnded s t n c) ∧
                (s.mode ≠ .m0 → s.inAperture (c.bytes.map (·.1)) = true →
                  (s.mode ≠ .m3 → (s.fn (fnOf n)).bme = false ∨ (s.fn (fnOf n)).power ≠ .d0 → backedOff s t n) ∧
                  (s.mode = .m3 → s.chim.memberBme.getLsbD n.val = false ∨ s.chim.memberD0.getLsbD n.val = false → backedOff s t n) ∧
                  (s.hostBound n = true ∨ (s.mode = .m3 ∧ s.flueBound 0 c.cls = true) → backedOff s t n) ∧
                  (s.busMaster n = true → s.hostBound n = false →
                    (s.mode ≠ .m3 → paysItem u t n c
                      (16 + if st.rd then 26 + 26 + k else if w.nonPosted then 26 + k + 52 else 26 + k) 16) ∧
                    (s.mode = .m3 → s.flueBound 0 c.cls = false →
                      paysItem u t n c (16 + if st.rd then 4 else 8) (s.portToward 0 c.cls))))) ∧
              (w.kind = 1 →
                (∀ o, u.lockedBy (.word (x / 8)) = some o → o ≠ n → backedOff s t n) ∧
                (u.lockedBy (.word (x / 8)) = none ∨ u.lockedBy (.word (x / 8)) = some n → paysItem u t n c 18 19)) ∧
              (w.kind = 2 →
                (s.rereading w.m = true → backedOff s t n) ∧
                (s.rereading w.m = false → ((s.hearth w.m).slot ≠ .ready ∧ (s.hearth w.m).slot ≠ .inService) ∨
                  ((s.hearth w.m).cfg.down x).isNone = true → farEnded s t n c) ∧
                (∀ d, s.rereading w.m = false → (s.hearth w.m).slot = .ready ∨ (s.hearth w.m).slot = .inService →
                  (s.hearth w.m).cfg.down x = some d →
                  (st.rd = true ∨ w.nonPosted = true → 64 ≤ s.xtags.length ∨ 4 ≤ (s.xtags.filter fun z => z.2 = n).length →
                    backedOff s t n) ∧
                  ((∃ o, u.lockedBy (.bus s.pos w.m) = some o ∧ o ≠ n) ∨ (s.hearth w.m).farLock.isSome = true → backedOff s t n) ∧
                  (u.lockedBy (.bus s.pos w.m) = none ∨ u.lockedBy (.bus s.pos w.m) = some n → (s.hearth w.m).farLock = none →
                    (st.rd = true ∨ w.nonPosted = true → s.xtags.length < 64 ∧ (s.xtags.filter fun z => z.2 = n).length < 4) →
                    ((s.hearth w.m).bus.granted = true → (s.hearth w.m).bus.grantGone = false →
                      paysItem u t n c (16 + 12 * ((s.hearth w.m).cfg.downCycles d (!st.rd) c.bytes).length) (hearthPort w.m)) ∧
                    ((s.hearth w.m).bus.granted = false ∨ (s.hearth w.m).bus.grantGone = true → w.m ≠ n →
                      (∀ c', (s.hearth w.m).cyc = some c' → c'.phase ≠ .blocked) →
                      (t.hearth n).cyc = some c ∧ t.items = s.items ∧ (t.hearth n).dampLow = (s.hearth n).dampLow)))) ∧
              (w.kind = 3 →
                (s.flueBound w.pos c.cls = true → backedOff s t n) ∧
                (∀ o, u.lockedBy (.bus w.pos w.m) = some o → o ≠ n → backedOff s t n) ∧
                (s.flueBound w.pos c.cls = false → u.lockedBy (.bus w.pos w.m) = none ∨ u.lockedBy (.bus w.pos w.m) = some n →
                  paysItem u t n c (16 + if st.rd then 4 else 8) (s.portToward w.pos c.cls)))))))

/-- R134, R195, R199, R201, R202, R211, R236: before a response the master may withdraw, and the cycle is gone with the lines high
and an event recorded; HnWAIT_N falls two ticks after the strobe; the response is driven high when the strobe has risen. When the
watchdog of the cycle expires it ends under its window's far-side error mode: HnBERR_N, or HnACK_N for a write, or read data
of ones; where that would acknowledge it under EXTEST it ends without a response (R338; the model's choice, entry 86). When the strobe stays low for the watchdog after the response the lines go high and the strobe is ignored until it
rises. Where the command stands for an event at a fixed tick, the clock is brought to that tick (the model's choice, entry
1). -/
def Obligations.CycleEnds : Prop :=
  ∀ (n : HearthId) (c : Cycle) (s : State), (s.hearth n).cyc = some c →
    (c.phase.isOpen = true ∨ c.phase = .driving → s.scanHides n 1 = false → ∃ t, exec (.hearthCycleWithdraw n) s = .next t ∧ (t.hearth n).cyc = none ∧
      (t.hearth n).waitLow = false ∧ (t.hearth n).ackLow = false ∧ (t.hearth n).berrLow = false ∧ (t.hearth n).dampLow = false ∧
      (s.exposed (fnOf n).val = true → (t.fn (fnOf n)).corSta.getLsbD 14 = true) ∧ t.standing = s.standing) ∧
    (c.phase.isOpen = true → c.fetched = none → ∃ t, exec (.waitAssert n) s = .next t ∧ (t.hearth n).waitLow = true ∧
      (s.running = true → t.clk = (s.advanceTo (tickPlus c.arrival 2)).clk) ∧ (s.running = false → t.clk = s.clk) ∧
      t.items = s.items ∧ t.txq = s.txq) ∧
    (∀ r a, c.phase = .answered r a → s.scanHides n 1 = false → ∃ t, exec (.hearthStrobeRelease n) s = .next t ∧
      t.hearth n = { s.hearth n with
        cyc := none, rising := (s.hearth n).endsHigh, ackLow := false, berrLow := false, dampLow := false, hd := none, strobeStuck := false } ∧
      (∀ m, m ≠ n → t.hearth m = s.hearth m) ∧ t = { s with hearths := t.hearths, wake := true }) ∧
    (c.phase.isOpen = true → c.fetched = none → s.running = true → ∃ t, exec (.watchdogTargetResponse n) s = .next t ∧
      t.clk = (s.advanceTo (tickPlus c.arrival (s.hearth n).cfg.wdog)).clk ∧
      (c.win.errResp = true → (t.hearth n).berrLow = true) ∧
      (c.win.errResp = false → s.scanDrives = true → (t.hearth n).cyc = none ∧ (t.hearth n).strobeStuck = true ∧
        (t.hearth n).hd = none ∧ (t.hearth n).ackLow = (s.hearth n).ackLow) ∧
      (c.win.errResp = false → s.scanDrives = false → c.read = false → (t.hearth n).ackLow = true) ∧
      (c.win.errResp = false → s.scanDrives = false → c.read = true → ∃ d, (t.hearth n).hd = some d ∧
        ∀ i, i < 8 * (s.hearth n).cfg.lanes → i < 32 → d.getLsbD i = true) ∧
      t.standing = (s.advanceTo (tickPlus c.arrival (s.hearth n).cfg.wdog)).standing) ∧
    (∀ r a, c.phase = .answered r a → s.running = true → ∃ t, exec (.watchdogStrobeRelease n) s = .next t ∧
      t.clk = (s.advanceTo (tickPlus a (s.hearth n).cfg.wdog)).clk ∧ (t.hearth n).cyc = none ∧ (t.hearth n).strobeStuck = true ∧
      (t.hearth n).ackLow = false ∧ (t.hearth n).berrLow = false ∧ (t.hearth n).dampLow = false ∧ (t.hearth n).hd = none ∧
      (∀ m, m ≠ n → t.hearth m = (s.advanceTo (tickPlus a (s.hearth n).cfg.wdog)).hearth m) ∧
      t.standing = { (s.advanceTo (tickPlus a (s.hearth n).cfg.wdog)).standing with hearths := steadyHearths t.hearths })

/-! ### The bridge as master -/

/-- R208, R209, R216, R231: with a piece on its way to the hearth, HnBREQ_N falls. The grant is recognized with the four
kinds of lines high, HnBGNT_N low and no lock of the hearth: the tenure's count starts at 0, cycles BLOCKED toward the
hearth are PAYING, and the first job's cycle is driven in the next tick. Otherwise HnBGNT_N changes nothing. -/
def Obligations.BusArbitration : Prop :=
  (∀ (n : HearthId) (s : State), s.running = true → (s.hearth n).slot = .inService → (s.hearth n).resetFrom = none →
    (s.hearth n).bus.breqLow = false → (∀ f, (s.hearth n).bus.breqFrom = some f → s.reached f = true) →
    (∀ r ∈ s.reqs, r.st ≠ .waiting) → s.anyPiece (Piece.forBus n) = true →
    (∀ c, (s.hearth n).cyc = some c → c.phase ≠ .blocked) →
    ∃ t, exec (.busRequest n) s = .next t ∧ (t.hearth n).bus = { (s.hearth n).bus with breqLow := true, breqSince := s.now, breqFrom := none } ∧
      (t.hearth n).cyc = (s.hearth n).cyc ∧ (∀ m, m ≠ n → t.hearth m = s.hearth m) ∧ t.items = s.items ∧ t.reqs = s.reqs ∧
      t.standing = { s.standing with hearths := steadyHearths t.hearths }) ∧
  (∀ (n : HearthId) (ln : GrantLines) (s : State), s.running = true → (s.hearth n).bus.breqLow = true →
    (s.hearth n).bus.breqFrom = none → (s.hearth n).bus.granted = false → (s.hearth n).lock = none → s.scanHides n 1 = false → s.scanHides n 2 = false →
    ((ln.asHigh && ln.strobesHigh && ln.ackHigh && ln.berrHigh && ln.bgntLow) = true → ∃ t, exec (.busGrant n ln) s = .next t ∧
      (t.hearth n).bus.granted = true ∧ (t.hearth n).bus.breqLow = true ∧ (t.hearth n).bus.count = 0 ∧
      (∀ k c, (s.hearth k).cyc = some c → c.phase = .blocked → c.win.kind = 2 → c.win.m = n → s.lockEnds = [] →
        (∀ m, (s.hearth m).lock = none) → (s.hearth n).farLock = none → ∃ c', (t.hearth k).cyc = some c' ∧ c'.phase = .paying) ∧
      (∀ j rest, (s.hearth n).bus.jobs = j :: rest → (s.hearth n).bus.strobe = none → s.lockEnds = [] →
        (∀ m, (s.hearth m).lock = none) → (s.hearth n).farLock = none → (t.hearth n).bus.strobe = some (tickPlus s.now 1)) ∧
      (∀ m, m ≠ n → (t.hearth m).steady = (s.hearth m).steady) ∧ t.reqs = s.reqs ∧ t.txq = s.txq ∧ t.fns = s.fns ∧
      t.standing = { s.standing with hearths := steadyHearths t.hearths }) ∧
    ((ln.asHigh && ln.strobesHigh && ln.ackHigh && ln.berrHigh && ln.bgntLow) = false → exec (.busGrant n ln) s = .next s))

/-- R205, R208, R223, R265: the target's answer raises the strobe and counts one cycle of the tenure. HnACK_N alone takes the read
bytes and goes on to the job's next cycle, the last of which ends the job; HnBERR_N, alone or with HnACK_N, ends the job and
what is left of it.
Once the response is high again the bridge drives its next cycle or, after 64 cycles or with nothing to do, lets go of the
bus for 5 ticks, HnBREQ_N rising in the next tick; a bus that a lock covers stays granted; a withdrawn grant lets go at once,
or after the open cycle. R211: with no grant within the watchdog of the
request HnBREQ_N rises; with no response within the watchdog of the strobe the strobe rises and what is left of the job
ends. No hearth changes its slot state. Where the command stands for an event at a fixed tick, the clock is brought to that
tick (the model's choice, entry 1). -/
def Obligations.BridgeAsMaster : Prop :=
  ((∀ (n : HearthId) (data : BitVec 32) (ack berr : Bool) (j : Job) (rest : List Job) (s : State), s.running = true →
     (s.hearth n).bus.granted = true → (s.hearth n).bus.strobe.isSome = true → s.scanHides n 2 = false → (ack || berr) = true →
     (s.hearth n).bus.jobs = j :: rest → ∃ t, exec (.targetResponse n ack berr data) s = .next t ∧
       (t.hearth n).bus.waitRelease = true ∧ (t.hearth n).bus.count = (s.hearth n).bus.count + 1 ∧
       (∀ c c' cs, berr = false → j.cycles = c :: c' :: cs → (t.hearth n).bus.strobe = none ∧ (t.hearth n).bus.jobs =
         { j with cycles := c' :: cs, got := if j.read then j.got ++ c.lanes.map (fun p => (p.2, laneByte data p.1)) else j.got } :: rest) ∧
       (berr = true ∨ (∃ c, j.cycles = [c]) → ∀ x ∈ (t.hearth n).bus.jobs, x ∈ rest) ∧
       (∀ m, m ≠ n → (t.hearth m).steady = (s.hearth m).steady) ∧
       t.standing = { s.standing with hearths := steadyHearths t.hearths }) ∧
   (∀ (n : HearthId) (s : State), s.running = true → (s.hearth n).bus.waitRelease = true → s.scanHides n 2 = false →
     ∃ t, exec (.targetResponseRelease n) s = .next t ∧ (t.hearth n).bus.waitRelease = false ∧ (t.hearth n).cyc = (s.hearth n).cyc ∧
       ((s.hearth n).bus.grantGone = true ∨ (64 ≤ (s.hearth n).bus.count ∧ s.busLocked n = false) →
         (t.tick.hearth n).bus.breqLow = false ∧ (t.hearth n).bus.granted = false ∧
         (t.hearth n).bus.breqFrom = some (tickPlus s.now 5)) ∧
       ((s.hearth n).bus.grantGone = false → s.busLocked n = true → (t.hearth n).bus.granted = (s.hearth n).bus.granted) ∧
       (∀ m, m ≠ n → t.hearth m = s.hearth m) ∧ t.items = s.items ∧ t.reqs = s.reqs ∧ t.fns = s.fns ∧
       t.standing = { s.standing with hearths := steadyHearths t.hearths }) ∧
   (∀ (n : HearthId) (s : State), s.running = true → (s.hearth n).bus.granted = true → ∃ t, exec (.grantWithdrawn n) s = .next t ∧
     ((s.hearth n).bus.strobe.isSome = true ∨ (s.hearth n).bus.waitRelease = true →
       (t.hearth n).bus = { (s.hearth n).bus with grantGone := true }) ∧
     ((s.hearth n).bus.strobe = none → (s.hearth n).bus.waitRelease = false → (t.hearth n).bus.granted = false ∧
       (t.tick.hearth n).bus.breqLow = false ∧ (t.hearth n).bus.breqFrom = some (tickPlus s.now 5) ∧
       (t.hearth n).bus.jobs = (s.hearth n).bus.jobs) ∧
     (∀ m, m ≠ n → t.hearth m = s.hearth m) ∧ t.items = s.items ∧ t.reqs = s.reqs ∧ t.fns = s.fns ∧
     t.standing = { s.standing with hearths := steadyHearths t.hearths })) ∧
  ((∀ (n : HearthId) (s : State), s.running = true → (s.hearth n).bus.breqLow = true → (s.hearth n).bus.breqFrom = none →
     (s.hearth n).bus.granted = false → ∃ t, exec (.watchdogGrant n) s = .next t ∧
       t.clk = (s.advanceTo (tickPlus (s.hearth n).bus.breqSince (s.hearth n).cfg.wdog)).clk ∧
       (t.tick.hearth n).bus.breqLow = false ∧
       (t.hearth n).bus.granted = false ∧ (t.hearth n).bus.breqFrom = some (tickPlus t.now 5) ∧
       (∀ m, m ≠ n → (t.hearth m).steady = ((s.advanceTo (tickPlus (s.hearth n).bus.breqSince (s.hearth n).cfg.wdog)).hearth m).steady) ∧
       (∀ m, (t.hearth m).slot = ((s.advanceTo (tickPlus (s.hearth n).bus.breqSince (s.hearth n).cfg.wdog)).hearth m).slot) ∧
       t.standing = { (s.advanceTo (tickPlus (s.hearth n).bus.breqSince (s.hearth n).cfg.wdog)).standing with
         hearths := steadyHearths t.hearths }) ∧
   (∀ (n : HearthId) (x : Tally) (s : State), s.running = true → (s.hearth n).bus.granted = true → (s.hearth n).bus.strobe = some x →
     ∃ t, exec (.watchdogMasterResponse n) s = .next t ∧ t.clk = (s.advanceTo (tickPlus x (s.hearth n).cfg.wdog)).clk ∧
       (t.hearth n).bus.strobe = none ∧ (t.hearth n).bus.waitRelease = true ∧ (t.hearth n).bus.count = (s.hearth n).bus.count + 1 ∧
       (∀ y ∈ (t.hearth n).bus.jobs, y ∈ (s.hearth n).bus.jobs.tail) ∧
       (∀ m, m ≠ n → (t.hearth m).steady = ((s.advanceTo (tickPlus x (s.hearth n).cfg.wdog)).hearth m).steady) ∧
       t.standing = { (s.advanceTo (tickPlus x (s.hearth n).cfg.wdog)).standing with hearths := steadyHearths t.hearths }))

/-- R210, R211, R266, R267: a lock that is idle for the watchdog from its last response is released with an event, and HnLOCK_N
counts as high until it rises; HnLOCK_N rising releases the lock. Either way no piece is granted on its scope in that tick,
and only the lock changes. A lock that another position holds on a hearth's bus is idle by that hearth's watchdog, an event of
its holder's function (the model's choice, entry 29). Where the command stands for an event at a fixed tick, the clock is brought to that tick (the model's choice,
entry 1). -/
def Obligations.LocksEnd : Prop :=
  (∀ (n : HearthId) (l : Lock) (s : State), (s.hearth n).lock = some l →
    (∀ x, l.last = some x → s.running = true → ∃ t, exec (.lockIdleExpiry n) s = .next t ∧
      t.clk = (s.advanceTo (tickPlus x (s.hearth n).cfg.wdog)).clk ∧ (t.hearth n).lock = none ∧
      (t.hearth n).lockSeen = false ∧ l.scope ∈ t.lockEnds ∧ (∀ src, t.scopeShut l.scope src = true) ∧
      (s.exposed (fnOf n).val = true → (t.fn (fnOf n)).corSta.getLsbD 14 = true) ∧
      t.standing = (s.advanceTo (tickPlus x (s.hearth n).cfg.wdog)).standing) ∧
    (l.last = none → exec (.lockIdleExpiry n) s = .next s) ∧
    (s.receiversOn n = true → ∃ t, exec (.lockRelease n) s = .next t ∧
      t.hearth n = { s.hearth n with lock := none, lockLow := false, lockMasked := false } ∧ (∀ src, t.scopeShut l.scope src = true) ∧
      (∀ m, m ≠ n → t.hearth m = s.hearth m) ∧ t.fns = s.fns ∧ t.items = s.items ∧
      t.standing = { s.standing with hearths := steadyHearths t.hearths })) ∧
  (∀ (n : HearthId) (l : FarLock) (s : State), (s.hearth n).lock = none → (s.hearth n).farLock = some l → s.running = true →
    ∃ t, exec (.lockIdleExpiry n) s = .next t ∧ t.clk = (s.advanceTo (tickPlus l.last (s.hearth n).cfg.wdog)).clk ∧
      (t.hearth n).farLock = none ∧ (∀ src, t.scopeShut (.bus s.pos n) src = true) ∧ t.items = s.items ∧
      (s.exposed (fnOfChimney (chimneyOf l.pos l.hearth)).val = true → (t.fn (fnOfChimney (chimneyOf l.pos l.hearth))).corSta.getLsbD 14 = true) ∧
      t.standing = (s.advanceTo (tickPlus l.last (s.hearth n).cfg.wdog)).standing)

/-- R27, R241, R242, R247, R248: a level of HnIRQ[q]_N that holds 4 ticks counts; in IN_SERVICE and DRAINING it is one item in
the hearth's slot that stays behind the hearth's posted writes, for 4 embers to a sink HmIRQO, unless its routing entry is
unused. A shorter level wakes the core and changes nothing else. -/
def Obligations.InterruptInputs : Prop :=
  ∀ (n : HearthId) (q : Fin 8) (low : Bool) (held : Nat) (s : State), s.running = true → (s.hearth n).slot.pads = true →
    (s.hearth n).irqLow.getLsbD q.val ≠ low →
    (4 ≤ held → ∃ t, exec (.irqInputChange n q low held) s = .next t ∧
      (∀ i : Fin 8, (t.hearth n).irqLow.getLsbD i.val = if i = q then low else (s.hearth n).irqLow.getLsbD i.val) ∧
      (∀ m, m ≠ n → t.hearth m = s.hearth m) ∧ t.irq = s.irq ∧ t.items.service = s.items.service ∧ t.items.host = s.items.host ∧
      ((s.hearth n).slot.sources = true → vget (s.hearth n).cfg.irq q ≠ .unused → ∃ it c,
        vget t.items.slots (hearthSlot n) = vget s.items.slots (hearthSlot n) ++ [it] ∧ it.work = .change c ∧ c.level = low ∧
          c.hearth = n ∧ c.input = inputOf q ∧ c.waitFor = (s.hearth n).posted ∧ c.entry = vget (s.hearth n).cfg.entries q ∧ c.slotCode = none ∧
          (∀ m l, vget (s.hearth n).cfg.irq q = .irqo m l → it.cost = 4)) ∧
      ((s.hearth n).slot.sources = false ∨ vget (s.hearth n).cfg.irq q = .unused → t.items = s.items) ∧
      t.standing = { s.standing with hearths := steadyHearths t.hearths }) ∧
    (held < 4 → exec (.irqInputChange n q low held) s = .next { s with wake := true })

/-! ### Slots -/

/-- R212, R213, R214, R218: the counted inputs of a slot. A fall of HnPGOOD counts at once and COLLAPSES a hearth that was
powered; a rise counts after 1,000 ticks with its bank valid and brings a POWERING or COLLAPSED hearth, or one in STRAP_FAULT that has
seen a fall in that state, to SAMPLING, in the queue of resamples; a fall of HnPRES_N counts after 2^20 ticks and powers an EMPTY hearth whose settings
are VALID; a rise counts after 4 ticks and empties any hearth but a PARKED one. A level held for less counts nothing. Other
hearths keep their slot state. -/
def Obligations.SlotInputs : Prop :=
  ∀ (n : HearthId) (held : Nat) (s : State),
    (∃ t, exec (.pgoodFall n) s = .next t ∧ (t.hearth n).pgood = false ∧ (t.hearth n).pgoodBall = false ∧
      (t.hearth n).slot = (if (s.hearth n).slot.powered then .collapsed else (s.hearth n).slot) ∧
      ((s.hearth n).slot.powered = true → (t.hearth n).cyc = none ∧ (t.hearth n).lock = none ∧ (t.hearth n).irqLow = 0 ∧
        (t.hearth n).bus.breqLow = false ∧ (t.hearth n).bus.granted = false ∧ (t.hearth n).drain = none ∧ (t.hearth n).reload = none) ∧
      (∀ m, m ≠ n → (t.hearth m).steady = (s.hearth m).steady) ∧
      t.standing = { s.standing with hearths := steadyHearths t.hearths, doms := t.doms, straps := t.straps }) ∧
    (s.running = true → vget s.island.banks (hearthBank n) = true → (s.hearth n).pgood = false → ∃ t, exec (.pgoodRise n held) s = .next t ∧
      (t.hearth n).pgood = decide (1000 ≤ held) ∧ (t.hearth n).slot = (if 1000 ≤ held ∧ ((s.hearth n).slot = .powering ∨
        (s.hearth n).slot = .collapsed ∨ ((s.hearth n).slot = .strapFault ∧ (s.hearth n).fell = true)) then .sampling else (s.hearth n).slot) ∧
      ((t.hearth n).slot = .sampling → (s.hearth n).slot ≠ .sampling → n ∈ t.straps.resampleQ) ∧
      (∀ m, m ≠ n → t.hearth m = s.hearth m) ∧ t.items = s.items ∧
      t.standing = { s.standing with hearths := steadyHearths t.hearths, straps := t.straps }) ∧
    (s.running = true → (s.hearth n).presLow = false → ∃ t, exec (.presenceFall n held) s = .next t ∧ (t.hearth n).presBall = true ∧
      (t.hearth n).presLow = decide (1048576 ≤ held) ∧ (t.hearth n).slot = (if 1048576 ≤ held ∧ (s.hearth n).slot = .empty then
        (if (s.hearth n).cfg.ok then .powering else .strapFault) else (s.hearth n).slot) ∧
      (∀ m, m ≠ n → t.hearth m = s.hearth m) ∧ t.standing = { s.standing with hearths := steadyHearths t.hearths }) ∧
    (s.running = true → (s.hearth n).presLow = true → ∃ t, exec (.presenceRise n held) s = .next t ∧ (t.hearth n).presBall = false ∧
      (t.hearth n).presLow = decide (held < 4) ∧ (t.hearth n).slot = (if 4 ≤ held ∧ (s.hearth n).slot ≠ .parked then .empty
        else (s.hearth n).slot) ∧ (∀ m, m ≠ n → (t.hearth m).steady = (s.hearth m).steady) ∧
      t.standing = { s.standing with hearths := steadyHearths t.hearths, doms := t.doms, straps := t.straps })

/-- R212, R213, R214, R215, R217, R251: a press of 65,536 ticks, after as many high ticks since the press before it, starts a
drain in IN_SERVICE and powers a REMOVABLE hearth, each a slot event where SHnBSIZE[3] is 1: its source is set with the code
of the new state, in one item when it was not set; a member sends each event to position 0. When the work is done and
HnLOCK_N is high, or the watchdog expires after the press, the windows close
and HnRSTO_N goes low; 1,000 ticks later the hearth is REMOVABLE with its pads off. HnIND changes at each half period from
entry to its state. Where the command stands for an event at a fixed tick, the clock is brought to that tick (the model's
choice, entry 1). -/
def Obligations.Drains : Prop :=
  (∀ (n : HearthId) (held high : Nat) (s : State) (counted : Prop), s.running = true →
    (counted ↔ 65536 ≤ held ∧ ∀ x, (s.hearth n).attnLast = some x →
      65536 ≤ high ∧ (held + high ≤ ticksSince s.now x ∨ 2 ^ 46 ≤ ticksSince s.now x)) →
    (counted → ∃ t, exec (.attnPress n ⟨held, high⟩) s = .next t ∧ (t.hearth n).attnLast = some s.now ∧
      (t.hearth n).slot = (match (s.hearth n).slot with | .inService => .draining | .removable => .powering | x => x) ∧
      ((s.hearth n).slot = .inService → (t.hearth n).drain = some { press := s.now, rsto := none }) ∧
      ((s.hearth n).slot = .inService ∨ (s.hearth n).slot = .removable → (s.hearth n).cfg.slotRoute = true →
        (s.mode ≠ .m3 → vget t.irq.slotEvents (chimneyOf s.pos n) = some (t.hearth n).slot.code ∧
          (vget s.irq.slotEvents (chimneyOf s.pos n) ≠ none → t.items = s.items)) ∧
        (s.mode = .m3 ∨ vget s.irq.slotEvents (chimneyOf s.pos n) = none → ∃ it c,
          vget t.items.slots (hearthSlot n) = vget s.items.slots (hearthSlot n) ++ [it] ∧ it.work = .change c ∧
          c.slotCode = (if s.mode = .m3 then some (t.hearth n).slot.code else none) ∧ c.level = true ∧ c.input = 8 ∧
          c.hearth = n ∧ it.cost = (if s.mode = .m3 then 34 else 30))) ∧
      ((s.hearth n).cfg.slotRoute = false → t.items = s.items) ∧ (∀ m, m ≠ n → t.hearth m = s.hearth m) ∧
      t.standing = { s.standing with hearths := steadyHearths t.hearths }) ∧
    (¬counted → ∃ t, exec (.attnPress n ⟨held, high⟩) s = .next t ∧ t = { s with wake := t.wake })) ∧
  (∀ (n : HearthId) (d : Drain) (s : State), (s.hearth n).drain = some d → d.rsto = none →
    (s.hearthBusy n = false → (s.hearth n).lockSeen = false → (s.hearth n).reload = none → ∃ t, exec (.drainWorkDone n) s = .next t ∧
      t.hearth n = { s.hearth n with
        drain := some { d with rsto := some s.now }
        cfg := { (s.hearth n).cfg with dw := Vector.replicate 4 none, uw := Vector.replicate 4 none } } ∧
      ((s.hearth n).slot = .draining → t.rstoReleased n = false) ∧ (∀ m, m ≠ n → t.hearth m = s.hearth m) ∧ t.items = s.items ∧ t.reqs = s.reqs ∧
      t.standing = { s.standing with hearths := steadyHearths t.hearths }) ∧
    (s.running = true → ∃ t, exec (.drainExpiry n) s = .next t ∧
      t.clk = (s.advanceTo (tickPlus d.press (s.hearth n).cfg.wdog)).clk ∧ (t.hearth n).drain = some { d with rsto := some t.now } ∧
      (t.hearth n).cfg.dw = Vector.replicate 4 none ∧ (t.hearth n).cfg.uw = Vector.replicate 4 none ∧ (t.hearth n).lock = none ∧
      (t.hearth n).reload = none ∧ (∀ c, (t.hearth n).cyc = some c → c.phase.isOpen = false) ∧
      t.standing = { (s.advanceTo (tickPlus d.press (s.hearth n).cfg.wdog)).standing with
        hearths := steadyHearths t.hearths, straps := t.straps })) ∧
  (∀ (n : HearthId) (d : Drain) (from' : Tally) (s : State), (s.hearth n).drain = some d → d.rsto = some from' → s.running = true →
    ∃ t, exec (.drainRemovable n) s = .next t ∧ t.clk = (s.advanceTo (tickPlus from' 1000)).clk ∧ (t.hearth n).slot = .removable ∧
      (t.hearth n).drain = none ∧ (t.hearth n).cyc = none ∧ (t.hearth n).irqLow = 0 ∧ t.indOn n = true ∧ t.padsActive n = false ∧
      t.standing = { (s.advanceTo (tickPlus from' 1000)).standing with
        hearths := steadyHearths t.hearths, doms := t.doms, straps := t.straps }) ∧
  (∀ (n : HearthId) (k : Nat) (s : State), s.running = true → ((s.hearth n).slot = .removable ∧ k = 33554432 ∨
      (s.hearth n).slot = .strapFault ∧ k = 8388608) → ∃ t, exec (.indicatorBlink n) s = .next t ∧
    t.clk = (s.advanceTo (tickPlus (s.hearth n).blinkFrom k)).clk ∧ (t.hearth n).blinkOn = !(s.hearth n).blinkOn ∧
    (t.hearth n).blinkFrom = tickPlus (s.hearth n).blinkFrom k ∧ t.indOn n = !s.indOn n ∧ t.items = s.items ∧
    t.standing = { (s.advanceTo (tickPlus (s.hearth n).blinkFrom k)).standing with hearths := steadyHearths t.hearths })

/-- R46, R68 to R75, R91, R181, R204, R214: HnSLOAD_N low for 100 ticks in IN_SERVICE with its receiver on, after as many high
ticks since the last reload, begins a reload and backs off a BLOCKED cycle of the hearth or toward it; a cycle that is PAYING or further
is open work and stays (the model's choice, entry 59). While a reload runs a second low begins none (the model's choice, entry
90). Its work ends at the watchdog at the latest.
The sampling of a reload or resample starts once paid, with D161 ON. Its first 35 balls are read at the end of the first
group. At the end of the second the other 34 are read, all are checked against the BAR-0 size in effect and the new settings
apply in one tick: a reloaded
hearth stays in its slot state with its count of reloads one up, a resampled one is READY, or IN_SERVICE from the gate on;
with settings that are not VALID it is in STRAP_FAULT. Where the command stands for an event at a fixed tick, the clock is
brought to that tick (the model's choice, entry 1). -/
def Obligations.ReloadsAndResamples : Prop :=
  (∀ (n : HearthId) (held high : Nat) (s : State), s.running = true → s.readyHigh = true → 100 ≤ held →
    (((s.hearth n).reload.isSome = true ∨ s.sloadSeen n < 100) → ∃ t, exec (.reloadRequest n ⟨held, high⟩) s = .next t ∧ t = { s with wake := t.wake }) ∧
    (100 ≤ s.sloadSeen n → (∀ x, (s.hearth n).sloadLast = some x → 100 ≤ high ∧ (held + high ≤ ticksSince s.now x ∨ 2 ^ 46 ≤ ticksSince s.now x)) →
    (s.hearth n).slot = .inService → (s.hearth n).reload = none → ∃ t, exec (.reloadRequest n ⟨held, high⟩) s = .next t ∧
      (t.hearth n).reload = some { start := s.now, sampling := false } ∧ (t.hearth n).sloadLast = some s.now ∧
      (t.hearth n).slot = .inService ∧
      (∀ k c, (s.hearth k).cyc = some c → c.phase = .blocked → c.win.kind = 2 → c.win.m = n → (t.hearth k).dampLow = true) ∧
      (∀ c, (s.hearth n).cyc = some c → c.phase = .blocked → (t.hearth n).dampLow = true) ∧
      (∀ c, (s.hearth n).cyc = some c → c.phase ≠ .blocked → (t.hearth n).cyc = some c) ∧
      (∀ m, m ≠ n → (t.hearth m).steady = (s.hearth m).steady) ∧ t.reqs = s.reqs ∧
      t.standing = { s.standing with hearths := steadyHearths t.hearths })) ∧
  (∀ (n : HearthId) (r : Reload) (s : State), (s.hearth n).reload = some r → r.sampling = false → s.running = true →
    ∃ t, exec (.reloadDrainExpiry n) s = .next t ∧ t.clk = (s.advanceTo (tickPlus r.start (s.hearth n).cfg.wdog)).clk ∧
      (t.hearth n).lock = none ∧ (∀ c, (t.hearth n).cyc = some c → c.phase.isOpen = false) ∧ (t.hearth n).bus.jobs = [] ∧
      (t.hearth n).reload = some r ∧ t.standing = (s.advanceTo (tickPlus r.start (s.hearth n).cfg.wdog)).standing) ∧
  (∀ (j : ReadJob) (p : Tally) (s : State), s.straps.asked = some j → s.running = true → s.straps.paid = some p → (s.dom (domOf 161)).isOn = true →
    s.straps.job = none →
    (j.isReload = true → s.hearthBusy j.hearth = false → (s.hearth j.hearth).lockSeen = false →
      ∀ r, (s.hearth j.hearth).reload = some r →
      ∃ t, exec (.reloadSamplingStart j.hearth) s = .next t ∧ (t.hearth j.hearth).reload = some { r with sampling := true } ∧
        (∀ m, m ≠ j.hearth → t.hearth m = (s.advanceTo p).hearth m) ∧
        t = { s.advanceTo p with
          hearths := t.hearths
          straps := { (s.advanceTo p).straps with
            asked := none, paid := none, job := some { j with start := t.now, half := false } } }) ∧
    (j.isReload = false → ∃ t, exec .resampleStart s = .next t ∧ t = { s.advanceTo p with
      straps := { (s.advanceTo p).straps with
        asked := none, paid := none, job := some { j with start := t.now, half := false }
        resampleQ := (s.advanceTo p).straps.resampleQ.filter (· ≠ j.hearth) } })) ∧
  (∀ (j : ReadJob) (readings : List Reading) (s : State), s.straps.seq = none → s.straps.job = some j → j.half = false →
    s.running = true → ∃ t, exec (.strapGroupEnd readings) s = .next t ∧ t.clk = (s.advanceTo (tickPlus j.start 2499)).clk ∧
      (t.hearth j.hearth).balls = sampleBalls assignedHearth 0 35 readings (s.hearth j.hearth).balls ∧
      t.straps.job = some { j with half := true } ∧ t.straps.lastGroup = 16 + 2 * j.hearth.val ∧
      vget t.straps.groupTally (firstGroup j.hearth) = t.now ∧ (t.hearth j.hearth).cfg = (s.hearth j.hearth).cfg ∧
      (∀ m, m ≠ j.hearth → t.hearth m = (s.advanceTo (tickPlus j.start 2499)).hearth m) ∧
      t.standing = { (s.advanceTo (tickPlus j.start 2499)).standing with
        hearths := steadyHearths t.hearths, straps := t.straps }) ∧
  (∀ (j : ReadJob) (readings : List Reading) (s : State), s.straps.job = some j → j.half = true → s.running = true →
    ∀ v : Vector Ball 69,
    v = finishHearth s.strapMode s.cfg j.hearth (barSize (if (s.hearth j.hearth).barFallback then 0 else (s.hearth j.hearth).barCode))
      (sampleBalls assignedHearth 35 34 readings (s.hearth j.hearth).balls) →
    ∃ t, exec (if j.isReload then .reloadApply j.hearth readings else .resampleEnd readings) s = .next t ∧
      t.clk = (s.advanceTo (tickPlus j.start 4999)).clk ∧ (t.hearth j.hearth).balls = v ∧ (t.hearth j.hearth).cfg = hearthCfgOf s.pos v ∧
      (t.hearth j.hearth).barCode = (s.hearth j.hearth).barCode ∧ t.straps.job = none ∧
      (j.isReload = true → (t.hearth j.hearth).reload = none ∧ (t.hearth j.hearth).reloads = (s.hearth j.hearth).reloads + 1) ∧
      ((hearthCfgOf s.pos v).ok = false → (t.hearth j.hearth).slot = .strapFault) ∧
      ((hearthCfgOf s.pos v).ok = true → (t.hearth j.hearth).slot = if j.isReload then
        ((s.advanceTo (tickPlus j.start 4999)).hearth j.hearth).slot else if s.gate then .inService else .ready) ∧
      (∀ m, m ≠ j.hearth → (t.hearth m).steady = ((s.advanceTo (tickPlus j.start 4999)).hearth m).steady) ∧
      t.standing = { (s.advanceTo (tickPlus j.start 4999)).standing with
        hearths := steadyHearths t.hearths, straps := t.straps, doms := t.doms })

/-! ### Interrupt sinks, switch, banks, sampler -/

/-- R244, R245, R247, R254, R317: at the end of a tick every change that the switch has granted in it is applied, in grant order
(that a change on its own bridge crosses the switch under R254 is entry 71); afterwards the INTA wire the host knows of each function is its level: asserted by some source, and no FLR. A change
that asserts a source at HmIRQO puts that source there, once. -/
def Obligations.SinksFollowSources : Prop :=
  ∀ s : State, ∃ t, exec .sinkUpdate s = .next t ∧ t.irq.granted = [] ∧
    (∀ f, vget t.irq.wires f = ((s.fn f).flr.isNone && t.irq.asserted.any fun x => x.sink = .inta f)) ∧
    (s.irq.granted = [] → t.irq.asserted = s.irq.asserted ∧ t.irq.slotEvents = s.irq.slotEvents) ∧
    (∀ c m l, s.irq.granted = [c] → c.slotCode = none → c.input.val ≠ 8 →
      s.sinkOf c = some (.irqo m l) → ∀ x : Src, x = { pos := c.pos, hearth := c.hearth, input := c.input, entry := c.entry, sink := .irqo m l } →
        t.irq.asserted = (if c.level then (if x ∈ s.irq.asserted then s.irq.asserted else x :: s.irq.asserted)
          else s.irq.asserted.erase x) ∧
        ((s.hearth m).slot = .inService → c.level = true → t.irqoLow m l = true)) ∧
    t.reqs = s.reqs ∧ t.soot = s.soot ∧ t.standing = s.standing

/-- R157, R165, R201, R247, R254, R257, R258: one tick of the switch moves pieces and nothing that stands changes. With one posted
kind-0 write in the queues, offered and ready, that piece leaves its queue as one MWr with its address and bytes, and the host's
rotation pointer stands at the next hearth. A sample record's piece alone there takes the record's place among the host's TLPs. A
completion of the host alone there, no write of the host to that hearth waiting, drives its data on the hearth's open read. An
interrupt change alone there, its posted writes performed, is granted toward its sink. -/
def Obligations.SwitchGrants : Prop :=
  ∀ s : State, s.running = true → ∃ t, exec .switchGrant s = .next t ∧ t.standing = s.standing ∧
    (∀ p n k, (∀ i, vget s.sw.q i = if i = p.src then [p] else []) → p.src = hearthPort n → p.dst = 16 → p.cls = .posted →
      p.kind = .postedWrite → p.origin = .posted n k → s.reached p.readyAt = true → (∀ r ∈ s.reqs, r.st ≠ .waiting) →
      (∀ i, vget t.sw.q i = []) ∧ vget t.sw.ptr 16 = n + 1 ∧ (∀ d, d ≠ 16 → vget t.sw.ptr d = vget s.sw.ptr d) ∧
      (∃ u, t.txq = s.txq ++ [u] ∧ u.kind = .mwr ∧ u.addr = p.addr ∧ u.bytes = p.bytes ∧ u.fn = p.fn ∧ u.origin = p.origin ∧
        u.len = p.bytes.length) ∧ t.reqs = s.reqs ∧ t.fns = s.fns) ∧
    (∀ p, (∀ i, vget s.sw.q i = if i = 16 then [p] else []) → p.src = 16 → p.dst = 16 → p.cls = .posted → p.origin = .sample →
      s.reached p.readyAt = true → (∀ i, vget t.sw.q i = []) ∧ t.sampler = s.sampler ∧ t.irq = s.irq ∧
      ((∀ r ∈ s.reqs, r.st ≠ .waiting) → t.fns = s.fns ∧ ∃ u, t.txq = s.txq ++ [u] ∧ u.awaitsRecord = true)) ∧
    (∀ p n c, (∀ i, vget s.sw.q i = if i = 16 then [p] else []) → p.src = 16 → p.dst = hearthPort n → p.cls = .completion →
      p.srcPos = s.pos → p.origin = .cycle n c.serial → p.status = .sc → s.reached p.readyAt = true → (s.hearth n).cyc = some c →
      c.phase = .inFlight → c.read = true → s.hostWriteBefore n p = false → (∀ r ∈ s.reqs, r.st ≠ .waiting) →
      (∀ i, vget t.sw.q i = []) ∧ t.txq = s.txq ∧ t.fns = s.fns ∧ t.reqs = s.reqs ∧
      ∃ d, (t.hearth n).hd = some d ∧ (t.hearth n).cyc = some { c with phase := .driving, rdata := d, fetched := none } ∧
        ∀ m, m ≠ n → (t.hearth m).cyc = (s.hearth m).cyc) ∧
    (∀ p c i, (∀ k, vget s.sw.q k = if k = i then [p] else []) → p.src = i → p.dst.val ≤ 16 → p.cls = .interrupt → p.origin = .change c →
      s.reached p.readyAt = true → (c.pos ≠ s.pos ∨ ∀ k ∈ c.waitFor, k ∉ (s.hearth c.hearth).posted) → (∀ r ∈ s.reqs, r.st ≠ .waiting) →
      (∀ k, vget t.sw.q k = []) ∧ t.irq = { s.irq with granted := s.irq.granted ++ [c] } ∧ t.txq = s.txq ∧ t.fns = s.fns)

/-- R92, R157, R173, R257, R258, R272: the oldest record that the switch has passed to the host port becomes one MWr of 64 bytes to
its slot of the ring, in the place it took among the host's TLPs, once posted credits and Bus Master Enable of function 0 allow;
otherwise nothing changes. -/
def Obligations.RecordsLeave : Prop :=
  ∀ (r : Record) (rest : List Record) (s : State), s.sampler.queue = r :: rest →
    (∀ a x b, s.txq = a ++ x :: b → (∀ y ∈ a, y.awaitsRecord = false) → x.awaitsRecord = true → (∀ y, y ∈ a ∨ y ∈ b → y.id ≠ x.id) →
      s.running = true → (s.fn 0).bme = true → s.creditOk (s.recordTlp r) = true → ∃ t u, exec .sampleRecordSend s = .next t ∧
      t.sampler = { s.sampler with queue := rest } ∧ t.txq = a ++ u :: b ∧ u.id = x.id ∧ u.kind = .mwr ∧ u.fn = 0 ∧ u.len = 64 ∧
      u.awaitsRecord = false ∧ u.addr = s.ringAddr r ∧ u.bytes.length = 64 ∧ t.sw = s.sw ∧ t.items = s.items ∧ t.fns = s.fns ∧ t.standing = s.standing) ∧
    ((s.fn 0).bme = false ∨ (∀ y ∈ s.txq, y.awaitsRecord = false) ∨ s.creditOk (s.recordTlp r) = false → exec .sampleRecordSend s = .next s)

/-! ### Flues -/

/-- R138, R249, R290, R291, R298, R299, R300, R303, R308: blocks on an ACTIVE flue. A faulty PIECE block drops the link, whose
receive lanes acquire again; one with a number already accepted is only receipted, once there is a path; the next one moves the
number expected on. XOFF states follow FLOW blocks and the free space; stored pieces that waited for the far end's leave then. No block
of these is taken on an end that is not ACTIVE. A RECEIPT takes the covered pieces out of the send store and counts posted writes as performed; a BACKOFF
answers its cycle with HnDAMP_N and releases its flue tag. -/
def Obligations.FlueBlocks : Prop :=
  (∀ (f : FlueId) (b : PieceBlk) (s : State), s.flueActive f = true →
    (∀ e, ∃ t, exec (.pieceReceived f (some e) b) s = .next t ∧ (t.flue f).st = .down ∧ (t.flue f).cause = faultCause e ∧
      (t.flue f).retrains = satInc 0xFFFF (s.flue f).retrains ∧ (t.flue f).dropTick = s.now ∧ (t.flue f).eventTick = s.now ∧
      (t.flue (FlueId.other f)).st = (s.flue (FlueId.other f)).st ∧ t.soot.flueEvents = satInc 0xFFFF s.soot.flueEvents ∧
      (∀ l ∈ flueLanes f, (s.dom (laneDom l)).isOn = true → (t.lane l).st = .acquiring) ∧
      t.chim.expect = s.chim.expect) ∧
    (b.dstPos = s.pos → b.num ≠ vget s.chim.expect (e2e b.srcPos b.cls) →
      (vget s.chim.expect (e2e b.srcPos b.cls) - b.num).toNat ≤ 32768 → ∃ t, exec (.pieceReceived f none b) s = .next t ∧
        t.chim = { s.chim with owed := t.chim.owed } ∧ t.items = s.items ∧ t.sw = s.sw ∧ t.reqs = s.reqs ∧ t.standing = s.standing ∧
        ∃ r : Receipt, r.src = b.srcPos ∧ r.dst = s.pos ∧ r.performed = vget s.chim.performed b.srcPos ∧
          (∀ c, r.accepted.toList[Cls.code c]? = some (vget s.chim.expect (e2e b.srcPos c))) ∧
          (∀ g, s.freshPath b.srcPos = some g → t.chim = s.chim ∧ (t.flue g).out = (s.flue g).out ++ [.receipt r]) ∧
          (s.freshPath b.srcPos = none → (b.srcPos, .receipt r) ∈ t.chim.owed ∧ t.flueA = s.flueA ∧ t.flueB = s.flueB)) ∧
    (b.dstPos = s.pos → b.num = vget s.chim.expect (e2e b.srcPos b.cls) → ∃ t, exec (.pieceReceived f none b) s = .next t ∧
      t.chim.expect = vset s.chim.expect (e2e b.srcPos b.cls) (b.num + 1) ∧ (t.flue f).st = .active ∧
      t.standing = { s.standing with flueA := t.flueA.steady, flueB := t.flueB.steady }) ∧
    (∀ x, ∃ t, exec (.flowReceived f x) s = .next t ∧ t.flue f = { s.flue f with farXoff := x, out := (t.flue f).out } ∧
      (∃ post, (t.flue f).out = (s.flue f).out ++ post ∧ ∀ y ∈ post, ∃ e ∈ s.chim.store, e.due = true ∧
        x.getLsbD (Cls.code e.piece.cls) = false ∧ y = .piece (State.blockOf e.piece e.num)) ∧
      ((∀ e ∈ s.chim.store, e.due = false) → (t.flue f).out = (s.flue f).out ∧ t.chim = s.chim) ∧ t.items = s.items ∧
      t.standing = { s.standing with flueA := t.flueA.steady, flueB := t.flueB.steady }) ∧
    (∀ c, (s.flue f).xoff.getLsbD (Cls.code c) = true → s.bufferHeld f c ≤ 16384 → ∃ t, exec (.xoffExit f c) s = .next t ∧
      (t.flue f).xoff = (s.flue f).xoff &&& ~~~clsBit c ∧ (t.flue f).out = (s.flue f).out ++ [.flow (t.flue f).xoff] ∧
      t.flue (FlueId.other f) = s.flue (FlueId.other f) ∧ t.items = s.items ∧
      t.standing = { s.standing with flueA := t.flueA.steady, flueB := t.flueB.steady })) ∧
  (∀ (g : FlueId) (r : Receipt) (s : State), s.flueActive g = true → r.src = s.pos → ∃ t, exec (.receiptReceived ⟨g, r⟩) s = .next t ∧
    (∀ x ∈ t.chim.store, x.dst = r.dst → ∀ i : Fin 4, i.val = Cls.code x.piece.cls → covered (vget r.accepted i) x.num = false) ∧
    (∀ x ∈ s.chim.store, x.dst ≠ r.dst → ∃ y ∈ t.chim.store, y.dst = x.dst ∧ y.num = x.num ∧
      y.piece = { x.piece with tag := y.piece.tag }) ∧
    (∀ u ∈ s.chim.unperformed, u.1 = r.dst → covered r.performed u.2.1 = true → u.2.2.2 ∉ (t.hearth u.2.2.1).posted) ∧
    t.standing = s.standing) ∧
  (∀ (v : FlueId) (c : Instr) (s : State), s.flueActive v = false →
    ((∃ e b, c = .pieceReceived v e b) ∨ (∃ x, c = .flowReceived v x) ∨ (∃ r, c = .receiptReceived ⟨v, r⟩) ∨
      (∃ p k x, c = .backoffReceived ⟨v, p⟩ k x) ∨ (∃ p l, c = .levelsReceived ⟨v, p⟩ l) ∨
      (∃ p r o d x, c = .reportReceived ⟨v, p⟩ r o d x) ∨ (∃ p m, c = .funcReceived ⟨v, p, m⟩)) → exec c s = .next s) ∧
  (∀ (v : FlueId) (n : HearthId) (tag serial : Nat) (g : FlueId) (c : Cycle) (s : State), s.flueActive v = true →
    s.findTag .a (hearthPort n) tag = some (g, .cycle n serial) → (s.hearth n).cyc = some c → c.serial = serial → c.phase.isOpen = true →
    ∃ t, exec (.backoffReceived ⟨v, s.pos⟩ (hearthPort n) tag) s = .next t ∧ (t.hearth n).dampLow = true ∧
      (∀ x ∈ (t.flue g).tags, ¬(x.1 = tag ∧ x.2.1 = .cycle n serial)) ∧ t.reqs = s.reqs ∧ t.standing = s.standing)

/-- R296, R298, R302, R303, R304: the life of a flue end. A TRAIN block drops an ACTIVE end with cause 5 and brings one in
DETECT to TRAINING once slot power is on. Once it trains or is to train again, with 64 TRAIN blocks locked, every lane domain ON and
every receive lane TRACKING, an advertisement that matches makes it ACTIVE, one that does not makes it DEAD with cause 7 (a DEAD end
shows its code until then: the model's choice, entry 94); else nothing changes; it is DEAD with cause 4 after 5,000 ticks DOWN, or
100,000 ticks of first training. A link lost for good makes a member take the other flue's clock where that clock toggles and
may be used. The other end keeps its state. Where the command stands for an event at a fixed tick, the clock is brought to that
tick (the model's choice, entry 1). -/
def Obligations.FlueLinkStates : Prop :=
  ∀ (f : FlueId) (s : State), s.flueUp f = true →
    ((s.flue f).st = .active → ∃ t, exec (.trainReceived f) s = .next t ∧ (t.flue f).st = .down ∧ (t.flue f).cause = 5 ∧
      (t.flue f).retrains = satInc 0xFFFF (s.flue f).retrains ∧ (t.flue (FlueId.other f)).st = (s.flue (FlueId.other f)).st) ∧
    ((s.flue f).st = .detect → s.slotPower = true → ∃ t, exec (.trainReceived f) s = .next t ∧
      t.flue f = { s.flue f with st := .training } ∧ t.flue (FlueId.other f) = s.flue (FlueId.other f) ∧ t.items = s.items ∧
      t.standing = { s.standing with flueA := t.flueA.steady, flueB := t.flueB.steady }) ∧
    (∀ adv, (s.flue f).st = .active ∨ (s.flue f).st = .detect ∨ s.pathOn (flueDoms f) = false ∨
      (∃ l ∈ flueLanes f, (s.lane l).st ≠ .tracking ∧ (s.lane l).st ≠ .pinned) → exec (.flueTrainingComplete f adv) s = .next s) ∧
    (∀ adv, s.slotPower = true → ((s.flue f).st = .training ∨ (s.flue f).st = .down ∨ (s.flue f).st = .dead) →
      s.pathOn (flueDoms f) = true → (∀ l ∈ flueLanes f, (s.lane l).st = .tracking ∨ (s.lane l).st = .pinned) → ∃ t,
      exec (.flueTrainingComplete f adv) s = .next t ∧ (t.flue f).far = some adv ∧ (t.flue f).farXoff = adv.xoff ∧
      (s.advMatches f adv = true → (t.flue f).st = .active ∧ (t.flue f).cause = 8 ∧ (t.flue f).everActive = true ∧ t.clk = (s.setToggles f true).clk) ∧
      (s.advMatches f adv = false → (t.flue f).st = .dead ∧ (t.flue f).cause = 7) ∧
      (t.flue (FlueId.other f)).st = (s.flue (FlueId.other f)).st) ∧
    ((s.flue f).st = .down → ∃ t, exec (.flueDownTimeout f) s = .next t ∧ (t.flue f).st = .dead ∧ (t.flue f).cause = 4 ∧
      t.clk.tally = (s.advanceTo (tickPlus (s.flue f).dropTick 5000)).clk.tally ∧
      t.clk.source = (if s.clk.source = FlueId.clock f ∧ (s.flue (FlueId.other f)).st = .active ∧
          s.toggles (FlueId.other f) = true ∧ s.clockOffered (FlueId.other f) = true
        then FlueId.clock (FlueId.other f) else s.clk.source) ∧
      (t.flue (FlueId.other f)).st = (s.flue (FlueId.other f)).st) ∧
    (s.slotPower = true → (s.flue f).everActive = false → ((s.flue f).st = .detect ∨ (s.flue f).st = .training) →
      ∃ t, exec (.flueTrainingTimeout f) s = .next t ∧ (t.flue f).st = .dead ∧ (t.flue f).cause = 4 ∧
        t.clk.tally = (s.advanceTo (tickPlus (s.flue f).trainTick 100000)).clk.tally) ∧
    (∀ adv, ∃ t, exec (.advertisementReceived f adv) s = .next t ∧ (t.flue f).far = some adv ∧ (t.flue f).farXoff = adv.xoff ∧
      (t.flue f).st = (s.flue f).st ∧ (t.flue (FlueId.other f)).far = (s.flue (FlueId.other f)).far ∧
      t.standing = { s.standing with flueA := t.flueA.steady, flueB := t.flueB.steady })

/-- R79, R267, R296, R297, R302: when the clock in use is lost a member takes the other flue's, if it toggles and may be used;
otherwise every unit leaves service, locked writes captured are performed whole, and no tick passes until the 1,000th period of a
clock that may be used, which is a T_S with the tally as it stood and PERST_N filtered high (whatever it was before: the model's
choice, entry 84). A bridge that is no member only pauses. The loss of a clock not in use only drops an ACTIVE link, with cause 3, or
takes one in TRAINING to DETECT. -/
def Obligations.MemberClocks : Prop :=
  (∀ (f : FlueId) (toggles : Bool) (s : State), s.running = true → s.clk.source = FlueId.clock f → s.mode ≠ .m3 →
    exec (.clockInLost f toggles) s = .next { s with
      clk := { ((s.setToggles f false).setToggles (FlueId.other f) toggles).clk with stopped := true } }) ∧
  (∀ (f : FlueId) (toggles : Bool) (s : State), s.running = true → s.clk.source = FlueId.clock f → s.mode = .m3 →
    (toggles = true → s.clockOffered (FlueId.other f) = true → ∃ t, exec (.clockInLost f toggles) s = .next t ∧
      t.clk = { ((s.setToggles f false).setToggles (FlueId.other f) true).clk with source := FlueId.clock (FlueId.other f) } ∧
      ((s.flue f).st = .active → (t.flue f).st = .down ∧ (t.flue f).cause = 3)) ∧
    (toggles = false ∨ s.clockOffered (FlueId.other f) = false → ∃ t, exec (.clockInLost f toggles) s = .next t ∧
      t.running = false ∧ t.clk.tally = s.clk.tally ∧ (∀ n, (t.hearth n).slot = .parked) ∧ t.items = Items.reset ∧ t.reqs = [] ∧
      t.stone = s.lockedStores.foldl (fun m p => stoneWriteAll m p.bytes) s.stone ∧ (s.lockedStores = [] → t.stone = s.stone) ∧
      t.mode = s.mode ∧ t.cfg = s.cfg)) ∧
  (∀ (f : FlueId) (toggles : Bool) (s : State), s.running = true → s.clk.source ≠ FlueId.clock f → ∃ t,
    exec (.clockInLost f toggles) s = .next t ∧ t.clk = ((s.setToggles f false).setToggles (FlueId.other f) toggles).clk ∧
      ((s.flue f).st ≠ .active → (s.flue f).st ≠ .training → t = { s with clk := t.clk }) ∧
      ((s.flue f).st = .training → t.flue f = { s.flue f with st := .detect } ∧ t.flue (FlueId.other f) = s.flue (FlueId.other f) ∧
        t.items = s.items ∧ t.reqs = s.reqs) ∧
      ((s.flue f).st = .active → (t.flue f).st = .down ∧ (t.flue f).cause = 3)) ∧
  (∀ (f : FlueId) (periods : Nat) (s : State), s.clk.counting = true → s.clk.memberLost = true → s.clockOffered f = true →
    (1000 ≤ periods → ∃ t, exec (.clockReturn f periods) s = .next t ∧ t.clk.source = FlueId.clock f ∧ t.clk.memberLost = false ∧
      t.clk.tally = s.clk.tally ∧ t.clk.tS = s.clk.tally ∧ t.straps.seq = some 0 ∧ t.ledger = Ledger.reset ∧ t.stone = s.stone ∧
      t.island.perstLow = false) ∧
    (periods < 1000 → exec (.clockReturn f periods) s = .next s)) ∧
  (∀ (f : FlueId) (periods : Nat) (s : State), s.clk.memberLost = false → s.clk.stopped = true → s.clk.source = FlueId.clock f →
    exec (.clockReturn f periods) s = .next { s with clk := { (s.setToggles f true).clk with stopped := false } })

/-- R183, R193, R237, R244, R250, R288, R291, R305, R306, R312, R320: what positions tell each other, over an ACTIVE flue end. LEVELS
replace the contributions of their position in one tick but for the slot-event sources, which stand (the model's reading of R250 and
R251, entry 47), and go on toward any other position they are for; position 0 copies
REPORT dwords, and a copy is current after a whole pass of 50 blocks over a path; a member sends its reports 10,000 ticks after
the last, takes the enables of a FUNC block, passes on another member's and takes a new count of FLRs as one FLR (the count is
the model's, entry 46, and so is that the block tells of D0, entry 28); position 0
repeats every FUNC block. Where the command
stands for an event at a fixed tick, the clock is brought to that tick (the model's choice, entry 1). -/
def Obligations.PositionsTell : Prop :=
  (∀ (v : FlueId) (p : Fin 4) (l : List LevelEntry) (s : State), s.flueActive v = true → p ≠ s.pos →
    (∃ t, exec (.levelsReceived ⟨v, p⟩ ⟨s.pos, l⟩) s = .next t ∧
      (∀ x, x ∈ t.irq.asserted ↔ (x ∈ l.filterMap (s.levelSrc p) ∨ (x ∈ s.irq.asserted ∧ (x.pos ≠ p ∨ x.input.val = 8)))) ∧
      t.irq.granted = s.irq.granted ∧ t.irq.slotEvents = s.irq.slotEvents ∧ t.reqs = s.reqs ∧ t.standing = s.standing) ∧
    (∀ q f, q ≠ s.pos → s.freshPath q = some f → ∃ t, exec (.levelsReceived ⟨v, p⟩ ⟨q, l⟩) s = .next t ∧
      (t.flue f).out = (s.flue f).out ++ [.levels p q l] ∧ t.irq = s.irq ∧ t.standing = s.standing)) ∧
  (∀ (v : FlueId) (p : Fin 4) (r : Fin 4) (off : Nat) (d : List Dword) (last : Bool) (s : State), s.flueActive v = true → s.mode = .m2 →
    ∃ t, exec (.reportReceived ⟨v, p⟩ r off d last) s = .next t ∧
      (∀ i, i < d.length → (1024 * r.val + off + i, d.getD i 0) ∈ (vget t.chim.copies p).dwords) ∧
      (∀ q, q ≠ p → vget t.chim.copies q = vget s.chim.copies q) ∧
      ((vget t.chim.copies p).current = true ↔ (vget s.chim.copies p).current = true ∨ (last = true ∧ s.reaches p = true ∧
        blockPlace r off = 49 ∧ (vget s.chim.copies p).pass = some 49)) ∧ t.items.slots = s.items.slots ∧ t.standing = s.standing) ∧
  (∀ (f : FlueId) (s : State), s.running = true → s.mode = .m3 → s.chimney = true → s.gate = true → s.freshPath 0 = some f →
    ∃ t, exec .reportSend s = .next t ∧ t.clk = (s.advanceTo (tickPlus s.chim.reportTick 10000)).clk ∧ t.chim.reportTick = t.now ∧
      (∃ post, (t.flue f).out = ((s.advanceTo (tickPlus s.chim.reportTick 10000)).flue f).out ++ post ∧ post.length = 50) ∧
      t.standing = (s.advanceTo (tickPlus s.chim.reportTick 10000)).standing) ∧
  (∀ (v : FlueId) (m : FuncMsg) (s : State), s.flueActive v = true → s.mode = .m3 →
    (∀ q f, q ≠ s.pos → s.freshPath q = some f → ∃ t, exec (.funcReceived ⟨v, q, m⟩) s = .next t ∧
      (t.flue f).out = (s.flue f).out ++ [.func q m] ∧ t.chim = s.chim ∧ t.standing = s.standing) ∧
    ∃ t, exec (.funcReceived ⟨v, s.pos, m⟩) s = .next t ∧
    t.chim.memberBme.getLsbD m.hearth.val = m.bme ∧ t.chim.memberMse.getLsbD m.hearth.val = m.mse ∧
    t.chim.memberD0.getLsbD m.hearth.val = m.d0 ∧
    vget t.chim.memberFlrs m.hearth = m.flrs ∧
    (vget s.chim.memberFlrs m.hearth ≠ m.flrs → (s.hearth m.hearth).slot.pads = true → (t.hearth m.hearth).resetFrom = some s.now ∧
      (t.hearth m.hearth).cyc = none) ∧
    (vget s.chim.memberFlrs m.hearth = m.flrs → (t.hearth m.hearth).resetFrom = (s.hearth m.hearth).resetFrom) ∧
    (∀ n, n ≠ m.hearth → (t.hearth n).steady = (s.hearth n).steady) ∧
    t.standing = { s.standing with hearths := steadyHearths t.hearths }) ∧
  (∀ s : State, s.running = true → s.mode = .m2 → s.chimney = true → s.gate = true → ∃ t, exec .funcRepeat s = .next t ∧
    t.clk = (s.advanceTo (tickPlus s.chim.funcTick 10000)).clk ∧ t.chim.funcTick = t.now ∧ t.reqs = s.reqs ∧ t.txq = s.txq ∧
    (∀ h, posOf h ≠ s.pos → s.exposed (fnOfChimney h).val = true → (vget t.chim.funcs h).bme = (s.fn (fnOfChimney h)).bme ∧
      (vget t.chim.funcs h).mse = (s.fn (fnOfChimney h)).mse ∧
      ((vget t.chim.funcs h).d0 = true ↔ (s.fn (fnOfChimney h)).power = .d0) ∧ (vget t.chim.funcs h).flrs = (vget s.chim.funcs h).flrs) ∧
    t.standing = (s.advanceTo (tickPlus s.chim.funcTick 10000)).standing)

/-! ### Test lanes and boundary scan -/

/-- R325, R331 to R335: injection k of a lane under test comes k periods after E; a self-checking lane records the generator's
state there and holds its moves until 1,024 bits after the bit behind the injection has been compared in LOCKED, or 2^16 bits have
passed. Each bit received in SEEKING loads the register until it holds n bits; then a bit that the register predicts is a match, the
256th of which in a row locks the checker, and any other starts the seeding again. In LOCKED the register runs free, each wrong bit
of a window of 1,024 counts at its end (that it does so then is the model's reading, entry 57), and 64 of them lose the lock. Every other lane, and everything else, stands. Where the
command stands for an event at a fixed tick, the clock is brought to that tick (the model's choice, entry 1). -/
def Obligations.TestLanes : Prop :=
  ∀ (l : LaneId) (s : State), s.running = true →
    (∀ e d, (s.test l).since = some e → injectionAt (s.test l).period ((s.test l).injected + 1) = some d →
      (s.test l).underTest s.mode = true → (s.test l).transmits s.mode = true → ∃ t, exec (.testInjection l) s = .next t ∧
        t.clk = (s.advanceTo (tickPlus e d)).clk ∧ (t.test l) = { s.test l with
          injected := (s.test l).injected + 1, holds := (t.test l).holds } ∧
        ((s.test l).selfChecks s.mode = false → (t.test l).holds = (s.test l).holds) ∧
        (∀ n k, (s.test l).selfChecks s.mode = true → prbsTaps (s.test l).pattern = some (n, k) → (t.test l).holds = (s.test l).holds ++
          [{ state := prbsAfter n k (d * bitsPerTick l s.cfg.hrate), after := none }]) ∧ (∀ k, k ≠ l → t.test k = s.test k) ∧
        t.standing = { (s.advanceTo (tickPlus e d)).standing with tests := t.tests }) ∧
    (∀ n k bit u t, prbsTaps (s.test l).pattern = some (n, k) → (s.test l).holds = [] → ¬(s.mode = .m5 ∧ (s.test l).loop = 2) →
      u = { s.test l with taken := (s.test l).taken + 1 } →
      ((s.test l).checker = .seeking → exec (.checkerLock ⟨l, [bit]⟩) s = .next t →
        ((s.test l).reg.length < n → t.test l = { u with reg := bit :: u.reg, skip := u.skip - 1 }) ∧
        (n ≤ (s.test l).reg.length → (s.test l).skip = 0 →
          (bit = prbsNext n k u.reg → u.matched + 1 ≠ 256 → t.test l = { u with reg := prbsStep n k u.reg, matched := u.matched + 1 }) ∧
          (bit = prbsNext n k u.reg → u.matched + 1 = 256 → t.test l = { u with
            reg := prbsStep n k u.reg, checker := .locked, matched := 0, inWindow := 0, wrong := 0 }) ∧
          (bit ≠ prbsNext n k u.reg → t.test l = { u with reg := [], matched := 0 }))) ∧
      ((s.test l).checker = .locked → exec (.checkerWindowEnd l [bit]) s = .next t → ∀ w,
        w = u.wrong + (if bit = prbsNext n k u.reg then 0 else 1) →
        (0 < u.skip → t.test l = { u with reg := prbsStep n k u.reg, skip := u.skip - 1 }) ∧
        (u.skip = 0 → u.inWindow + 1 ≠ 1024 → t.test l = { u with reg := prbsStep n k u.reg, inWindow := u.inWindow + 1, wrong := w }) ∧
        (u.skip = 0 → u.inWindow + 1 = 1024 → (t.test l).compared = u.compared + 1024 ∧ (t.test l).errors = min 0xFFFFFFFF (u.errors + w) ∧
          (t.test l).inWindow = 0 ∧ (t.test l).wrong = 0 ∧ (t.test l).checker = (if 64 ≤ w then .seeking else .locked) ∧
          (t.test l).losses = (if 64 ≤ w then satInc 0xFF u.losses else u.losses)))) ∧
    (∀ bits c, (c = .checkerLock ⟨l, bits⟩ ∧ (s.test l).checker = .seeking) ∨ (c = .checkerWindowEnd l bits ∧ (s.test l).checker = .locked) →
      ∃ t, exec c s = .next t ∧ (∀ k, k ≠ l → t.test k = s.test k) ∧ (t.test l).since = (s.test l).since ∧
        (t.testSeen = true ↔ s.testSeen = true ∨ (t.test l).errors ≠ (s.test l).errors ∨ (t.test l).losses ≠ (s.test l).losses) ∧
        t = { s with tests := t.tests, testSeen := t.testSeen }) ∧
    (∀ h rest got, (s.test l).holds = h :: rest → ∃ t, exec (.selfCheckHoldEnd l [] got) s = .next t ∧
      t.test l = { s.test l with
        holds := if (∃ k, h.after = some k ∧ 1024 ≤ k) ∨ (h.after = none ∧ 65536 ≤ got) then rest else h :: rest } ∧
      (∀ k, k ≠ l → t.test k = s.test k) ∧ t = { s with tests := t.tests })

/-- R52, R54, R336 to R339: each instruction's code is shifted in while the register captured 0b00000001, and selects its register; it
changes nothing but the TAP. A code that R336 lists selects its own instruction and not BYPASS. HIGHZ floats every output and CLAMP
holds the boundary outputs (PRESUMED, entry 93). A boundary instruction
captures 1,740 cells, control cells their update value and every other the level at its ball, and the update register takes
what was shifted in; IDCODE captures 0x1401658F, BYPASS, CLAMP and HIGHZ one 0, MIRROR the 1,284 strap bytes and LANEREPORT
the 32 lane results. Test-Logic-Reset selects IDCODE. -/
def Obligations.BoundaryScan : Prop :=
  ∀ s : State,
    (∀ (c : Instr) (i : TapInstr) (levels values : List Bool), (c = .extest levels values ∧ i = TapInstr.extest) ∨
        (c = .samplePreload levels values ∧ i = TapInstr.samplePreload) ∨ (c = .extestPulse levels values ∧ i = TapInstr.extestPulse) ∨
        (c = .extestTrain levels values ∧ i = TapInstr.extestTrain) → ∃ t, exec c s = .next t ∧ t = { s with tap := t.tap } ∧
        t.tap.instr = i ∧ t.tap.upd = values ∧ t.tap.dr.length = 1740 ∧
        (∀ k, k < 1740 → (∀ n g, cellKind k ≠ .control n g) → t.tap.dr.getD k false = levels.getD k false) ∧
        (∀ k n g, k < 1740 → cellKind k = .control n g → t.tap.dr.getD k false = s.tap.upd.getD k false) ∧
        (t.scanDrives = true ↔ i ≠ TapInstr.samplePreload) ∧ t.tap.irCap = 1 ∧ TapInstr.ofCode t.tap.ir = i) ∧
    (∃ t, exec .idcode s = .next t ∧ t = { s with tap := { s.tap with ir := 0x01, irCap := 1, instr := .idcode, dr := t.tap.dr } } ∧ t.tap.dr.length = 32 ∧
      (∀ k, k < 32 → t.tap.dr.getD k false = Nat.testBit 0x1401658F k)) ∧
    (∀ c i b, (c = .clamp ∧ i = .clamp ∧ b = 0x04 ∨ c = .highz ∧ i = .highz ∧ b = 0x05 ∨
        c = .bypass b ∧ i = TapInstr.bypass ∧ b ∉ [0x00, 0x01, 0x02, 0x04, 0x05, 0x08, 0x09, 0x10, 0x11]) →
      exec c s = .next { s with tap := { s.tap with ir := b, irCap := 1, instr := i, dr := [false] } }) ∧
    (∀ b : BitVec 8, b ∈ [0x00, 0x01, 0x02, 0x04, 0x05, 0x08, 0x09, 0x10, 0x11] → exec (.bypass b) s = .next s) ∧
    (∀ t, exec .highz s = .next t → ∀ k, k < 1740 → outputCell k = true → t.scanOutput k = some .floating) ∧
    (∀ t, exec .clamp s = .next t → t.scanOutputs = true ∧ t.scanDrives = false) ∧
    (∃ t, exec .mirror s = .next t ∧ t = { s with tap := { s.tap with ir := 0x10, irCap := 1, instr := .mirror, dr := t.tap.dr } } ∧
      t.tap.dr.length = 1284 * 8 ∧ (∀ g : Fin 180, ∀ k : Fin 8,
        t.tap.dr.getD (8 * g.val + k.val) false = Nat.testBit (vget s.straps.globals g).byte k.val)) ∧
    (∃ t, exec .lanereport s = .next t ∧ t = { s with tap := { s.tap with ir := 0x11, irCap := 1, instr := .lanereport, dr := t.tap.dr } } ∧
      t.tap.dr.length = 32 * 64 ∧ (s.mode.tests = false → ∀ k, t.tap.dr.getD k false = false)) ∧
    exec .testLogicReset s = .next { s with tap := Tap.reset }

/-! ### Commands that act on their condition alone -/

/-- R45, R76, R88, R133, R161, R178, R179, R183, R184, R218, R237, R262: commands of supplies, clock, banks and function bits
act whenever their condition on the state holds, whatever else it holds. A bank of VHEARTH below 2.90 V is invalid and takes
HnPGOOD of its hearths low, above 3.04 V it is valid; the clear ends with every byte 0 and its mark clear; without REFCLK no
tick passes, and with it again ticks pass as before; a configuration write to an exposed function gives Bus Master Enable,
Memory Space Enable, Interrupt Disable (but in function 0), PowerState, LTR Mechanism Enable, 10-Bit Tag Requester Enable and
Extended Tag Enable its value; a bank that is ON and cleared grants a lone waiting beat, whose bytes are written. -/
def Obligations.CommandsAct : Prop :=
  (∀ (b : Fin 14) (mv : Nat) (s : State),
     (mv < 2900 → ∃ t, exec (.vhearthBankInvalid ⟨b, mv⟩) s = .next t ∧ vget t.island.banks b = false ∧
       ∀ n ∈ bankHearths b, vget s.island.banks b = true → (t.hearth n).pgood = false) ∧
     (3040 < mv → ∃ t, exec (.vhearthBankValid ⟨b, mv⟩) s = .next t ∧ vget t.island.banks b = true ∧
       ∀ n ∈ bankHearths b, vget s.island.banks b = false → (t.hearth n).pgood = false)) ∧
  (∀ s : State,
     (s.running = true → s.island.clearFrom ≠ none → ∃ t, exec .hearthstoneClearComplete s = .next t ∧ t.stone = [] ∧
       t.island.clearMark = false ∧ t.island.clearFrom = none) ∧
     (s.clk.source = .refclk → (∃ t, exec .refclkStop s = .next t ∧ t.running = false ∧ t.now = s.now) ∧
       ∃ t, exec .refclkReturn s = .next t ∧ t.clk.stopped = false ∧ t.now = s.now ∧
         t.running = (s.clk.counting && !s.clk.memberLost)) ∧
     (∀ b k x w, s.running = true → stoneOk s → (∀ k', vget (vget s.banks b).slots k' = if k' = k then some x else none) →
       x.beats = [w] → x.piece.kind = .postedWrite → x.piece.origin = .none → risingBytes x.piece.bytes = true →
       (∀ b', b' ≠ b → ∀ k', vget (vget s.banks b').slots k' = none) → s.bankOn b = true → s.island.clearMark = false →
       s.lockEnds = [] → (∀ n, (s.hearth n).lock = none) → ∃ t, exec .bankBeat s = .next t ∧
         (∀ c ∈ x.piece.bytes, c.1 / 8 = w → stoneRead t.stone c.1 = c.2) ∧ vget (vget t.banks b).slots k = none)) ∧
  (∀ (f : FnId) (v : Bool) (p : PowerState) (s : State), s.cfgReaches f = true →
     (∃ t, exec (.busMasterEnableSet f) s = .next t ∧ (t.fn f).bme = true) ∧
     (∃ t, exec (.busMasterEnableClear f) s = .next t ∧ (t.fn f).bme = false) ∧
     (∃ t, exec (.memorySpaceEnableWrite f v) s = .next t ∧ (t.fn f).mse = v) ∧
     (∃ t, exec (.interruptDisableWrite f v) s = .next t ∧ (t.fn f).intd = if f.val = 0 then (s.fn f).intd else v) ∧
     (∃ t, exec (.powerStateWrite f p) s = .next t ∧ (t.fn f).power = p) ∧
     (∃ t, exec (.ltrMechanismEnableWrite f v) s = .next t ∧ (t.fn f).ltr = v) ∧
     (∃ t, exec (.tenBitTagEnableWrite f v) s = .next t ∧ (t.fn f).tenBit = v) ∧
     (∃ t, exec (.extendedTagEnableWrite f v) s = .next t ∧ (t.fn f).devctl.getLsbD 8 = v))
end

