-- ==== Sys2Proof/Laws/Counts.lean ====
section
/-! SUPPORT. Counters that stay in bounds (`countsOk`: R103, R192, R270): one lemma per operation that keeps them so. -/

namespace Sys2Proof.Machine

open Sys2Proof

@[simp] theorem counts_fold (t : State) : Counts t.ledger t.soot t.sampler ↔ countsOk t := Iff.rfl

@[simp] theorem counts_mk (a0 : List Instr) (a1 : Nat) (a2 : Bool) (a3 : List DomainId) (a4 : Clock) (a5 : Island) (a6 : Straps) (a7 : Mode) (a8 : Mode) (a9 : Bool) (a10 : Bool) (a11 : Bool) (a12 : GlobalCfg) (a13 : Prot) (a14 : Vector DomState 162) (a15 : Ledger) (a16 : Items) (a17 : HostLink) (a18 : Dll) (a19 : Fc) (a20 : List TxTlp) (a21 : List HostReq) (a22 : List HostTag) (a23 : Vector FnCfg 65) (a24 : Vector Hearth 16) (a25 : Switch) (a26 : List Host.Cell) (a27 : Vector Bank 16) (a28 : List LockScope) (a29 : List (Nat × HearthId)) (a30 : Sampler) (a31 : Soot) (a32 : Irq) (a33 : Flue) (a34 : Flue) (a35 : Chimney) (a36 : Vector Lane 32) (a37 : BitVec 32) (a38 : Vector TestLane 32) (a39 : Bool) (a40 : Tap) (a41 : Bool) :
    countsOk (State.mk a0 a1 a2 a3 a4 a5 a6 a7 a8 a9 a10 a11 a12 a13 a14 a15 a16 a17 a18 a19 a20 a21 a22 a23 a24 a25 a26 a27 a28 a29 a30 a31 a32 a33 a34 a35 a36 a37 a38 a39 a40 a41) ↔ Counts a15 a31 a30 := Iff.rfl

theorem counts_forList {α : Type} (l : List α) (f : α → State → State) (h : ∀ x s, countsOk s → countsOk (f x s)) (s : State)
    (hs : countsOk s) : countsOk (forList l f s) := by
  unfold forList
  induction l generalizing s with
  | nil => exact hs
  | cons x xs ih => exact ih _ (h x s hs)

theorem counts_forHearths (f : HearthId → State → State) (h : ∀ n s, countsOk s → countsOk (f n s)) (s : State)
    (hs : countsOk s) : countsOk (forHearths f s) := counts_forList allHearths f h s hs

/-! One field replaced. -/

theorem counts_setSw {s : State} (v : Switch) (h : countsOk s) : countsOk { s with sw := v } := h

theorem counts_setFns {s : State} (v : Vector FnCfg 65) (h : countsOk s) : countsOk { s with fns := v } := h
theorem counts_setTests {s : State} (v : Vector TestLane 32) (h : countsOk s) : countsOk { s with tests := v } := h
theorem counts_setLink {s : State} (v : HostLink) (h : countsOk s) : countsOk { s with link := v } := h
theorem counts_setTxq {s : State} (v : List TxTlp) (h : countsOk s) : countsOk { s with txq := v } := h
theorem counts_setChim {s : State} (v : Chimney) (h : countsOk s) : countsOk { s with chim := v } := h
theorem counts_setDoms {s : State} (v : Vector DomState 162) (h : countsOk s) : countsOk { s with doms := v } := h
theorem counts_setStraps {s : State} (v : Straps) (h : countsOk s) : countsOk { s with straps := v } := h
theorem counts_setIrq {s : State} (v : Irq) (h : countsOk s) : countsOk { s with irq := v } := h
theorem counts_setItems {s : State} (v : Items) (h : countsOk s) : countsOk { s with items := v } := h

@[simp] theorem counts_setHearth (s : State) (n : HearthId) (x : Hearth) (h : countsOk s) : countsOk (s.setHearth n x) := h

@[simp] theorem counts_modHearth (s : State) (n : HearthId) (f : Hearth → Hearth) (h : countsOk s) : countsOk (State.modHearth s n f) := by
  exact h

@[simp] theorem counts_modFn (s : State) (f : FnId) (g : FnCfg → FnCfg) (h : countsOk s) : countsOk (State.modFn s f g) := by
  exact h

@[simp] theorem counts_setDom (s : State) (d : DomainId) (x : DomState) (h : countsOk s) : countsOk (State.setDom s d x) := by
  exact h

@[simp] theorem counts_modFlue (s : State) (f : FlueId) (g : Flue → Flue) (h : countsOk s) : countsOk (State.modFlue s f g) := by
  unfold State.modFlue; split <;> exact h

@[simp] theorem counts_modLane (s : State) (l : LaneId) (g : Lane → Lane) (h : countsOk s) : countsOk (State.modLane s l g) := by
  exact h

@[simp] theorem counts_modTest (s : State) (l : LaneId) (g : TestLane → TestLane) (h : countsOk s) : countsOk (State.modTest s l g) := by
  exact h

@[simp] theorem counts_woken (s : State) (h : countsOk s) : countsOk (State.woken s) := by
  exact h

@[simp] theorem counts_presentService (s : State) (port : PortId) (path : List DomainId) (cost : Nat) (work : Work) (h : countsOk s) : countsOk (State.presentService s port path cost work) := by
  exact h

@[simp] theorem counts_presentHost (s : State) (port : PortId) (path : List DomainId) (cost : Nat) (work : Work) (h : countsOk s) : countsOk (State.presentHost s port path cost work) := by
  exact h

@[simp] theorem counts_presentSlot (s : State) (k : Fin 19) (port : PortId) (path : List DomainId) (cost : Nat) (work : Work) (h : countsOk s) : countsOk (State.presentSlot s k port path cost work) := by
  exact h

@[simp] theorem counts_dropItems (s : State) (p : Item → Bool) (h : countsOk s) : countsOk (State.dropItems s p) := by
  exact h

@[simp] theorem counts_dropAdmitted (s : State) (p : Item → Bool) (h : countsOk s) : countsOk (State.dropAdmitted s p) := by
  exact h

@[simp] theorem counts_sendTlp (s : State) (t : TxTlp) (h : countsOk s) : countsOk (State.sendTlp s t) := by
  exact h

@[simp] theorem counts_presentMessage (s : State) (kind : TxKind) (fn : FnId) (path : List DomainId) (cost : Nat) (h : countsOk s) : countsOk (State.presentMessage s kind fn path cost) := by
  unfold State.presentMessage
  exact h

@[simp] theorem counts_errMessage (s : State) (f : FnId) (k : Option TxKind) (h : countsOk s) : countsOk (State.errMessage s f k) := by
  unfold State.errMessage
  (try dsimp only); (repeat' split) <;> first | exact h | (simp (disch := simp (disch := simp (disch := simp [h]) [h]) [h]) [h]; done)

@[simp] theorem counts_recordCor (s : State) (f : FnId) (e : CorErr) (h : countsOk s) : countsOk (State.recordCor s f e) := by
  unfold State.recordCor; split <;> simp [h]

@[simp] theorem counts_recordUnc (s : State) (f : FnId) (e : UncErr) (advisory : Bool) (hdr : Vector Dword 4) (h : countsOk s) : countsOk (State.recordUnc s f e advisory hdr) := by
  unfold State.recordUnc; split <;> simp [h]

@[simp] theorem counts_linkMessage (s : State) (k : TxKind) (f : Option FnId) (h : countsOk s) : countsOk (State.linkMessage s k f) := by
  unfold State.linkMessage
  (try dsimp only); (repeat' split) <;> first | exact h | (simp (disch := simp (disch := simp (disch := simp [h]) [h]) [h]) [h]; done)

@[simp] theorem counts_linkCor (s : State) (e : CorErr) (h : countsOk s) : countsOk (State.linkCor s e) := by
  exact counts_linkMessage _ _ _ (counts_setFns _ h)

@[simp] theorem counts_linkUnc (s : State) (e : UncErr) (h : countsOk s) : countsOk (State.linkUnc s e) := by
  exact counts_linkMessage _ _ _ (counts_linkMessage _ _ _ (counts_setFns _ h))

@[simp] theorem counts_logEvent (s : State) (f : FnId) (h : countsOk s) : countsOk (State.logEvent s f) := by
  simp [State.logEvent, h]

@[simp] theorem counts_setStatus (s : State) (f : FnId) (bit : Nat) (h : countsOk s) : countsOk (State.setStatus s f bit) := by
  unfold State.setStatus; split <;> exact h

@[simp] theorem counts_enterSampling (s : State) (n : HearthId) (h : countsOk s) : countsOk (State.enterSampling s n) := by
  exact h

@[simp] theorem counts_powerOn (s : State) (h : countsOk s) : countsOk (s.powerOn) := 
  counts_forHearths _ (fun n s h => by split <;> simp [h]) s h

@[simp] theorem counts_tick (s : State) (h : countsOk s) : countsOk (s.tick) := by
  unfold State.tick; split
  · exact counts_powerOn _ h
  · exact h

@[simp] theorem counts_advanceTo (s : State) (t : Tally) (h : countsOk s) : countsOk (State.advanceTo s t) := by
  unfold State.advanceTo
  (try dsimp only); (repeat' split) <;> first | exact h | (simp [h]; done) | (simp (disch := simp [h]) [h]; done)

@[simp] theorem counts_advanceTS (s : State) (n : Nat) (h : countsOk s) : countsOk (State.advanceTS s n) := by
  simp [State.advanceTS, h]

@[simp] theorem counts_writeFault (s : State) (e : FaultEntry) (h : countsOk s) : countsOk (s.writeFault e) := by
  obtain ⟨hb, ⟨hf, he⟩, hq⟩ := h
  exact ⟨hb, ⟨by simp only [State.writeFault, satInc]; split <;> omega, he⟩, hq⟩

@[simp] theorem counts_removePieces (s : State) (q : Piece → Bool) (h : countsOk s) : countsOk (State.removePieces s q) := by
  exact h

@[simp] theorem counts_dropStored (s : State) (q : Origin → Bool) (h : countsOk s) : countsOk (State.dropStored s q) := by
  unfold State.dropStored
  exact h

@[simp] theorem counts_freeTags (s : State) (h : countsOk s) : countsOk (State.freeTags s) := by
  exact h

@[simp] theorem counts_push (s : State) (p : Piece) (h : countsOk s) : countsOk (State.push s p) := by
  exact h

@[simp] theorem counts_endPosted (s : State) (n : HearthId) (serial : Nat) (h : countsOk s) : countsOk (State.endPosted s n serial) := by
  exact h

@[simp] theorem counts_answer (s : State) (n : HearthId) (r : Resp) (h : countsOk s) : countsOk (State.answer s n r) := by
  unfold State.answer
  (try dsimp only); (repeat' split) <;> first | exact h | (simp (disch := simp (disch := simp (disch := simp [h]) [h]) [h]) [h]; done)

@[simp] theorem counts_damp (s : State) (n : HearthId) (h : countsOk s) : countsOk (s.damp n) := by
  unfold State.damp
  split
  · exact h
  · exact counts_endPosted _ _ _ (counts_answer _ _ _ (counts_freeTags _ (counts_removePieces _ _ h)))

@[simp] theorem counts_driveRead (s : State) (n : HearthId) (got : List (Nat × Byte)) (h : countsOk s) : countsOk (State.driveRead s n got) := by
  unfold State.driveRead; split <;> exact h

@[simp] theorem counts_fetchRead (s : State) (n : HearthId) (serial : Nat) (got : List (Nat × Byte)) (h : countsOk s) : countsOk (State.fetchRead s n serial got) := by
  unfold State.fetchRead
  (try dsimp only); (repeat' split) <;> first | exact h | (simp [h]; done) | (simp (disch := simp [h]) [h]; done)

@[simp] theorem counts_farSide (s : State) (n : HearthId) (ev : Bool) (h : countsOk s) : countsOk (State.farSide s n ev) := by
  unfold State.farSide
  (try dsimp only); (repeat' split) <;> first | exact h | (simp (disch := simp (disch := simp (disch := simp [h]) [h]) [h]) [h]; done)

@[simp] theorem counts_dropUnsent (s : State) (n : HearthId) (serial : Nat) (h : countsOk s) : countsOk (State.dropUnsent s n serial) := by
  exact h

@[simp] theorem counts_endCycle (s : State) (n : HearthId) (h : countsOk s) : countsOk (State.endCycle s n) := by
  unfold State.endCycle
  split
  · exact h
  · refine counts_modHearth _ _ _ ?_
    split
    · exact counts_endPosted _ _ _ (counts_freeTags _ (counts_dropStored _ _ (counts_dropUnsent _ _ _ (counts_removePieces _ _ h))))
    · exact h

@[simp] theorem counts_dropCycleWork (s : State) (n : HearthId) (c : Cycle) (release : Bool) (h : countsOk s) : countsOk (State.dropCycleWork s n c release) := by
  exact counts_freeTags _ (counts_dropStored _ _ (counts_dropUnsent _ _ _ (counts_removePieces _ _ h)))

@[simp] theorem counts_expireCycle (s : State) (n : HearthId) (release : Bool) (h : countsOk s) : countsOk (State.expireCycle s n release) := by
  unfold State.expireCycle
  (repeat' split)
  · exact h
  · exact counts_modHearth _ _ _ (counts_endPosted _ _ _ (counts_logEvent _ _ (counts_dropCycleWork _ _ _ _ h)))
  · exact counts_farSide _ _ _ (counts_dropCycleWork _ _ _ _ h)
  · exact h

@[simp] theorem counts_completeCycle (s : State) (n : HearthId) (serial : Nat) (got : List (Nat × Byte)) (status : CplStatus) (h : countsOk s) : countsOk (State.completeCycle s n serial got status) := by
  unfold State.completeCycle; (repeat' split) <;> simp [h]

@[simp] theorem counts_tapPulse (s : State) (p : PortId) (h : countsOk s) : countsOk (State.tapPulse s p) := by
  unfold State.tapPulse; split <;> exact h

@[simp] theorem counts_countFrame (s : State) (p : Piece) (h : countsOk s) : countsOk (s.countFrame p) := by
  unfold State.countFrame
  split
  · simp only []; split
    · split
      · exact h
      · apply counts_presentSlot; apply counts_tapPulse; apply counts_tapPulse
        obtain ⟨hb, hs, hq⟩ := h
        refine ⟨hb, hs, ?_⟩
        simp only [samplerOk, List.length_append, List.length_cons, List.length_nil] at *; omega
    · exact h
  · exact h

@[simp] theorem counts_syncWire (s : State) (f : FnId) (h : countsOk s) : countsOk (s.syncWire f) := by
  unfold State.syncWire
  simp only []; split
  · exact h
  · split
    · exact counts_sendTlp _ _ h
    · exact h

@[simp] theorem counts_syncWires (s : State) (h : countsOk s) : countsOk (s.syncWires) := 
  counts_forList _ _ (fun f s h => counts_syncWire s f h) s h

@[simp] theorem counts_pushChange (s : State) (c : Change) (t : Tally) (h : countsOk s) : countsOk (State.pushChange s c t) := by
  unfold State.pushChange
  (try dsimp only); (repeat' split) <;> first | exact h | (simp (disch := simp (disch := simp (disch := simp [h]) [h]) [h]) [h]; done)

@[simp] theorem counts_pmeFor (s : State) (k : Sink) (h : countsOk s) : countsOk (State.pmeFor s k) := by
  unfold State.pmeFor
  (try dsimp only); (repeat' split) <;> first | exact h | (simp (disch := simp (disch := simp (disch := simp [h]) [h]) [h]) [h]; done)

@[simp] theorem counts_setSlotSource (s : State) (h : Fin 64) (code : Option Nat) (h' : countsOk s) : countsOk (State.setSlotSource s h code) := by
  unfold State.setSlotSource
  exact h'

@[simp] theorem counts_applyChange (s : State) (c : Change) (h : countsOk s) : countsOk (s.applyChange c) := by
  unfold State.applyChange
  split
  · exact h
  · cases c.slotCode <;> simp only [] <;> (repeat' split) <;> first | exact h | exact counts_pmeFor _ _ h

@[simp] theorem counts_emit (s : State) (f : FlueId) (b : FlueBlk) (h : countsOk s) : countsOk (State.emit s f b) := by
  simp [State.emit, h]

@[simp] theorem counts_flushStore (s : State) (h : countsOk s) : countsOk (State.flushStore s) := by
  unfold State.flushStore
  exact counts_forList _ _ (fun _ _ h => by (try dsimp only); (repeat' split) <;> first | exact h | (simp (disch := simp (disch := simp (disch := simp [h]) [h]) [h]) [h]; done)) _ h

@[simp] theorem counts_sendOver (s : State) (f : FlueId) (p : Piece) (h : countsOk s) : countsOk (State.sendOver s f p) := by
  unfold State.sendOver
  simp (disch := simp (disch := simp (disch := simp [h]) [h]) [h]) [h]

@[simp] theorem counts_moveTag (s : State) (f : FlueId) (x : Stored) (h : countsOk s) : countsOk (State.moveTag s f x).1 := by
  unfold State.moveTag
  (try dsimp only); (repeat' split) <;> first | exact h | (simp (disch := simp (disch := simp (disch := simp [h]) [h]) [h]) [h]; done)

@[simp] theorem counts_moveStore (s : State) (f : FlueId) (q : Stored → Bool) (x0 : List Stored) (h : countsOk s) : countsOk (State.moveStore s f q x0).1 := by
  induction x0 generalizing s with
  | nil => exact h
  | cons x rest ih =>
    unfold State.moveStore
    split
    · exact ih _ (counts_moveTag _ _ _ h)
    · exact ih _ h

@[simp] theorem counts_resend (s : State) (q : Fin 4) (c : Cls) (h : countsOk s) : countsOk (State.resend s q c) := by
  unfold State.resend
  split
  · exact h
  · exact counts_flushStore _ (counts_moveStore _ _ _ _ h)

@[simp] theorem counts_control (s : State) (q : Fin 4) (b : FlueBlk) (h : countsOk s) : countsOk (State.control s q b) := by
  unfold State.control
  (try dsimp only); (repeat' split) <;> first | exact h | (simp (disch := simp (disch := simp (disch := simp [h]) [h]) [h]) [h]; done)

@[simp] theorem counts_payOwed (s : State) (h : countsOk s) : countsOk (State.payOwed s) := by
  unfold State.payOwed
  exact counts_forList _ _ (fun _ _ h => by (try dsimp only); (repeat' split) <;> first | exact h | (simp (disch := simp (disch := simp (disch := simp [h]) [h]) [h]) [h]; done)) _ h

@[simp] theorem counts_sendBackoff (s : State) (q : Fin 4) (port : PortId) (tag : Nat) (h : countsOk s) : countsOk (State.sendBackoff s q port tag) := by
  unfold State.sendBackoff
  (try dsimp only); (repeat' split) <;> first | exact h | (simp [h]; done) | (simp (disch := simp [h]) [h]; done)

@[simp] theorem counts_receipt (s : State) (src : Fin 4) (h : countsOk s) : countsOk (State.receipt s src) := by
  unfold State.receipt
  simp (disch := simp (disch := simp (disch := simp [h]) [h]) [h]) [h]

@[simp] theorem counts_performedFrom (s : State) (p : Fin 4) (num : BitVec 16) (h : countsOk s) : countsOk (State.performedFrom s p num) := by
  simp [State.performedFrom, h]

@[simp] theorem counts_modReq (s : State) (id : Nat) (f : HostReq → HostReq) (h : countsOk s) : countsOk (State.modReq s id f) := by
  exact h

@[simp] theorem counts_releaseCredits (s : State) (id : Nat) (h : countsOk s) : countsOk (State.releaseCredits s id) := by
  unfold State.releaseCredits; (repeat' split) <;> simp [h]

@[simp] theorem counts_sendCpl (s : State) (r : HostReq) (status : CplStatus) (bytes : List (Nat × Byte)) (off : Nat) (len : Nat) (h : countsOk s) : countsOk (State.sendCpl s r status bytes off len) := by
  unfold State.sendCpl; (repeat' split) <;> simp [h]

@[simp] theorem counts_closeReq (s : State) (id : Nat) (h : countsOk s) : countsOk (State.closeReq s id) := by
  simp [State.closeReq, h]

@[simp] theorem counts_sendBlocks (k : Nat) (s : State) (id : Nat) (h : countsOk s) : countsOk (State.sendBlocks k s id) := by
  induction k generalizing s with
  | zero => exact h
  | succ k ih =>
    unfold State.sendBlocks
    split
    · exact h
    · split
      · simp only []; split
        · apply ih; simp [h]
        · exact h
      · exact h

@[simp] theorem counts_finishReq (s : State) (id : Nat) (h : countsOk s) : countsOk (State.finishReq s id) := by
  unfold State.finishReq; (repeat' split) <;> simp [h]

@[simp] theorem counts_hostDone (s : State) (id : Nat) (got : List (Nat × Byte)) (pieces : Nat) (h : countsOk s) : countsOk (s.hostDone id got pieces) := by
  unfold State.hostDone
  split
  · exact h
  · apply counts_finishReq; split <;> simp [h]

@[simp] theorem counts_refuseReq (s : State) (r : HostReq) (status : CplStatus) (e : Option UncErr) (h : countsOk s) : countsOk (State.refuseReq s r status e) := by
  unfold State.refuseReq; (repeat' split) <;> simp [h]

@[simp] theorem counts_dropReqWork (s : State) (id : Nat) (h : countsOk s) : countsOk (State.dropReqWork s id) := by
  unfold State.dropReqWork
  exact h

@[simp] theorem counts_endRead (k : Nat) (s : State) (x2 : HostReq) (h : countsOk s) : countsOk (State.endRead k s x2) := by
  induction k generalizing s x2 with
  | zero => exact h
  | succ k ih =>
    unfold State.endRead; dsimp only; (repeat' split)
    · exact counts_sendBlocks _ _ _ (counts_modReq _ _ _ h)
    · exact counts_refuseReq _ _ _ _ (counts_sendBlocks _ _ _ (counts_modReq _ _ _ h))
    · exact counts_refuseReq _ _ _ _ (counts_sendBlocks _ _ _ (counts_modReq _ _ _ h))
    · exact counts_sendBlocks _ _ _ (counts_modReq _ _ _ h)
    · exact ih _ _ h

@[simp] theorem counts_endWrite (s : State) (r : HostReq) (modes : List (Bool × Bool)) (ev : Bool) (h : countsOk s) : countsOk (State.endWrite s r modes ev) := by
  unfold State.endWrite
  exact counts_forList _ _ (fun _ _ h => by (try dsimp only); (repeat' split) <;> first | exact h | (simp [h]; done)) _ h

@[simp] theorem counts_nextTick (s : State) (id : Nat) (h : countsOk s) : countsOk (State.nextTick s id) := by
  unfold State.nextTick
  exact h

@[simp] theorem counts_endReq (s : State) (id : Nat) (ev : Bool) (struck : Option (Bool × Bool)) (h : countsOk s) : countsOk (State.endReq s id ev struck) := by
  unfold State.endReq
  split
  · exact h
  · refine counts_nextTick _ _ (counts_closeReq _ _ ?_)
    have e := counts_dropStored _ (· = .host id) (counts_dropReqWork _ id h)
    have e1 : ∀ f, countsOk (if ev = true then ((s.dropReqWork id).dropStored (· = .host id)).logEvent f
        else (s.dropReqWork id).dropStored (· = .host id)) := fun f => by
      split
      · exact counts_logEvent _ _ e
      · exact e
    split
    · exact counts_endRead _ _ _ (e1 _)
    · exact counts_endWrite _ _ _ _ (e1 _)

@[simp] theorem counts_missReq (s : State) (id : Nat) (h : countsOk s) : countsOk (State.missReq s id) := by
  unfold State.missReq; split <;> simp [h]

@[simp] theorem counts_remoteReply (s : State) (src : PortId) (q : Fin 4) (port : PortId) (tag : Nat) (key : BitVec 4) (got : List (Nat × Byte)) (status : CplStatus) (h : countsOk s) : countsOk (State.remoteReply s src q port tag key got status) := by
  unfold State.remoteReply
  exact h

@[simp] theorem counts_failPiece (s : State) (p : Piece) (ev : Bool) (got : List (Nat × Byte)) (h : countsOk s) : countsOk (State.failPiece s p ev got) := by
  unfold State.failPiece
  (try dsimp only); (repeat' split) <;> first | exact h | (simp (disch := simp (disch := simp (disch := simp [h]) [h]) [h]) [h]; done)

@[simp] theorem counts_donePiece (s : State) (p : Piece) (got : List (Nat × Byte)) (h : countsOk s) : countsOk (State.donePiece s p got) := by
  unfold State.donePiece
  (try dsimp only); (repeat' split) <;> first | exact h | (simp [h]; done) | (simp (disch := simp [h]) [h]; done)

@[simp] theorem counts_endLock (s : State) (n : HearthId) (rose : Bool) (h : countsOk s) : countsOk (State.endLock s n rose) := by
  unfold State.endLock; split <;> exact h

@[simp] theorem counts_contest (s : State) (sc : LockScope) (h : countsOk s) : countsOk (State.contest s sc) := by
  unfold State.contest; split <;> exact h

@[simp] theorem counts_endFarLock (s : State) (m : HearthId) (mask : Bool) (h : countsOk s) : countsOk (State.endFarLock s m mask) := by
  unfold State.endFarLock
  (try dsimp only); (repeat' split) <;> first | exact h | (simp (disch := simp (disch := simp (disch := simp [h]) [h]) [h]) [h]; done)

@[simp] theorem counts_takeFarLock (s : State) (p : Piece) (m : HearthId) (h : countsOk s) : countsOk (State.takeFarLock s p m) := by
  unfold State.takeFarLock
  (try dsimp only); (repeat' split) <;> first | exact h | (simp (disch := simp (disch := simp (disch := simp [h]) [h]) [h]) [h]; done)

@[simp] theorem counts_contestBus (m : HearthId) (s : State) (h : countsOk s) : countsOk (State.contestBus m s) := by
  unfold State.contestBus
  (try dsimp only); (repeat' split) <;> first | exact h | (simp [h]; done) | (simp (disch := simp [h]) [h]; done)

@[simp] theorem counts_wakePath (s : State) (path : List DomainId) (h : countsOk s) : countsOk (s.wakePath path) := 
  counts_forList _ _ (fun d s h => by split <;> simp [h]) s h

@[simp] theorem counts_yieldWaiting (s : State) (n : HearthId) (h : countsOk s) : countsOk (State.yieldWaiting s n) := by
  unfold State.yieldWaiting
  exact counts_forList _ _ (fun _ _ h => by (try dsimp only); (repeat' split) <;> first | exact h | (simp [h]; done)) _ h

@[simp] theorem counts_admitCycle (s : State) (p : Piece) (h : countsOk s) : countsOk (State.admitCycle s p) := by
  unfold State.admitCycle
  (try dsimp only); (repeat' split) <;> first | exact h | (simp [h]; done) | (simp (disch := simp [h]) [h]; done)

@[simp] theorem counts_startWork (s : State) (w : Work) (t : Tally) (h : countsOk s) : countsOk (State.startWork s w t) := by
  unfold State.startWork
  (try dsimp only); (repeat' split) <;> first | exact h | (simp (disch := simp (disch := simp (disch := simp [h]) [h]) [h]) [h]; done)

@[simp] theorem counts_startOrWait (s : State) (it : Item) (h : countsOk s) : countsOk (State.startOrWait s it) := by
  unfold State.startOrWait
  (try dsimp only); (repeat' split) <;> first | exact h | (simp [h]; done) | (simp (disch := simp [h]) [h]; done)

@[simp] theorem counts_cyclePaid (s : State) (x0 : Work) (h : countsOk s) : countsOk (State.cyclePaid s x0) := by
  unfold State.cyclePaid
  (try dsimp only); (repeat' split) <;> first | exact h | (simp [h]; done) | (simp (disch := simp [h]) [h]; done)

@[simp] theorem counts_chargeItem (s : State) (it : Item) (h : countsOk s) : countsOk (State.chargeItem s it) := by
  obtain ⟨hb, hs, hq⟩ := h
  exact ⟨Nat.le_trans (Nat.sub_le _ _) hb, hs, hq⟩

@[simp] theorem counts_admitOne (s : State) (it : Item) (h : countsOk s) : countsOk (State.admitOne s it) := by
  exact counts_startOrWait _ _ (counts_cyclePaid _ _ (counts_wakePath _ _ (counts_chargeItem _ _ h)))

@[simp] theorem counts_hold (s : State) (h : countsOk s) : countsOk (s.hold) := h

@[simp] theorem counts_stopAt (s : State) (b : Bar) (h : countsOk s) : countsOk (s.stopAt b) := by
  cases b <;> exact h

@[simp] theorem counts_admitService (k : Nat) (s : State) (h : countsOk s) : countsOk (State.admitService k s).1 := by
  induction k generalizing s with
  | zero => exact h
  | succ k ih =>
    unfold State.admitService
    (repeat' split)
    · exact h
    · exact counts_stopAt _ _ h
    · exact ih _ (counts_admitOne _ _ h)

@[simp] theorem counts_admitHost (k : Nat) (s : State) (h : countsOk s) : countsOk (State.admitHost k s).1 := by
  induction k generalizing s with
  | zero => exact h
  | succ k ih =>
    unfold State.admitHost
    (repeat' split)
    · exact h
    · exact counts_stopAt _ _ h
    · exact ih _ (counts_admitOne _ _ h)

@[simp] theorem counts_admitSlots (k : Nat) (s : State) (h : countsOk s) : countsOk (State.admitSlots k s).1 := by
  induction k generalizing s with
  | zero => exact h
  | succ k ih =>
    unfold State.admitSlots
    (repeat' split)
    · exact h
    · exact h
    · exact counts_stopAt _ _ h
    · exact ih _ (counts_admitOne _ _ h)

@[simp] theorem counts_refillIfDue (s : State) (h : countsOk s) : countsOk (s.refillIfDue) := by
  unfold State.refillIfDue
  split
  · exact ⟨Nat.le_refl _, h.2⟩
  · exact h

@[simp] theorem counts_admitTick (s : State) (h : countsOk s) : countsOk (State.admitTick s).1 := by
  unfold State.admitTick
  (try dsimp only); (repeat' split) <;> first | exact h | (simp (disch := simp (disch := simp (disch := simp [h]) [h]) [h]) [h]; done)

@[simp] theorem counts_admitAll (s : State) (h : countsOk s) : countsOk (State.admitAll s) := by
  unfold State.admitAll
  simp [h]

@[simp] theorem counts_askReader (s : State) (h : countsOk s) : countsOk (State.askReader s) := by
  unfold State.askReader; (repeat' split) <;> simp [h]

@[simp] theorem counts_ltrAtWindow (s : State) (h : countsOk s) : countsOk (s.ltrAtWindow) := by
  unfold State.ltrAtWindow
  (repeat' split) <;> first | exact h | exact counts_sendTlp _ _ h

@[simp] theorem counts_openLedger (s : State) (h : countsOk s) : countsOk (s.openLedger) := by
  unfold State.openLedger
  simp only []; split
  · exact counts_presentService _ _ _ _ _ ⟨Nat.le_refl _, h.2⟩
  · exact ⟨Nat.le_refl _, h.2⟩

@[simp] theorem counts_nextWindow (s : State) (h : countsOk s) : countsOk (s.nextWindow) := by
  unfold State.nextWindow
  simp only []; split
  · exact ⟨Nat.le_refl _, h.2⟩
  · exact h

@[simp] theorem counts_snapshot (s : State) (h : countsOk s) : countsOk (State.snapshot s) := by
  unfold State.snapshot
  exact h

@[simp] theorem counts_startReady (s : State) (h : countsOk s) : countsOk (s.startReady) := by
  unfold State.startReady; exact counts_forList _ _ (fun it s h => counts_startWork s _ _ h) _ h

@[simp] theorem counts_wakeBellows (s : State) (h : countsOk s) : countsOk (State.wakeBellows s) := by
  unfold State.wakeBellows
  (try dsimp only); (repeat' split) <;> first | exact h | (simp [h]; done) | (simp (disch := simp [h]) [h]; done)

@[simp] theorem counts_laneOn (s : State) (l : LaneId) (h : countsOk s) : countsOk (State.laneOn s l) := by
  unfold State.laneOn
  (try dsimp only); (repeat' split) <;> first | exact h | (simp [h]; done) | (simp (disch := simp [h]) [h]; done)

@[simp] theorem counts_startTests (s : State) (h : countsOk s) : countsOk (s.startTests) := counts_setTests _ h

@[simp] theorem counts_domainUp (s : State) (d : DomainId) (h : countsOk s) : countsOk (State.domainUp s d) := by
  unfold State.domainUp
  dsimp only
  apply counts_startTests; apply counts_startReady
  split
  · exact counts_laneOn _ _ (counts_woken _ (counts_setDom _ d (.on s.now) h))
  · exact counts_woken _ (counts_setDom _ d (.on s.now) h)

@[simp] theorem counts_domDown (s : State) (d : DomainId) (h : countsOk s) : countsOk (State.domDown s d) := by
  unfold State.domDown; (repeat' split) <;> simp [h]

@[simp] theorem counts_bellowsNeed (s : State) (h : countsOk s) : countsOk (State.bellowsNeed s) := by
  unfold State.bellowsNeed
  (try dsimp only); (repeat' split) <;> first | exact h | (simp [h]; done) | (simp (disch := simp [h]) [h]; done)

@[simp] theorem counts_presentArrival (s : State) (f : FlueId) (b : PieceBlk) (path : List DomainId) (cost : Nat) (w : Work) (h : countsOk s) : countsOk (State.presentArrival s f b path cost w) := by
  unfold State.presentArrival; split <;> exact h

@[simp] theorem counts_refuseArrival (s : State) (b : PieceBlk) (st : CplStatus) (h : countsOk s) : countsOk (State.refuseArrival s b st) := by
  unfold State.refuseArrival
  (try dsimp only); (repeat' split) <;> first | exact h | (simp (disch := simp (disch := simp (disch := simp [h]) [h]) [h]) [h]; done)

@[simp] theorem counts_farArrival (s : State) (f : FlueId) (b : PieceBlk) (h : countsOk s) : countsOk (State.farArrival s f b) := by
  unfold State.farArrival
  (try dsimp only); (repeat' split) <;> first | exact h | (simp [h]; done) | (simp (disch := simp [h]) [h]; done)

@[simp] theorem counts_backOff (s : State) (b : PieceBlk) (h : countsOk s) : countsOk (State.backOff s b) := by
  unfold State.backOff
  simp [h]

@[simp] theorem counts_faultArrival (s : State) (b : PieceBlk) (m : HearthId) (a : Nat) (key : BitVec 4) (h : countsOk s) : countsOk (State.faultArrival s b m a key) := by
  unfold State.faultArrival; (repeat' split) <;> first | exact h | simp (disch := simp [h]) [h]

@[simp] theorem counts_decodeArrival (s : State) (f : FlueId) (b : PieceBlk) (m : HearthId) (h : countsOk s) : countsOk (State.decodeArrival s f b m) := by
  unfold State.decodeArrival
  (try dsimp only); (repeat' split) <;> first | exact h | (simp (disch := simp (disch := simp (disch := simp [h]) [h]) [h]) [h]; done)

@[simp] theorem counts_landHearth (s : State) (f : FlueId) (b : PieceBlk) (m : HearthId) (h : countsOk s) : countsOk (State.landHearth s f b m) := by
  unfold State.landHearth
  (try dsimp only); (repeat' split) <;> first | exact h | (simp [h]; done) | (simp (disch := simp [h]) [h]; done)

@[simp] theorem counts_landHost (s : State) (f : FlueId) (b : PieceBlk) (h : countsOk s) : countsOk (State.landHost s f b) := by
  unfold State.landHost
  (try dsimp only); (repeat' split) <;> first | exact h | (simp [h]; done) | (simp (disch := simp [h]) [h]; done)

@[simp] theorem counts_landWaiting (s : State) (h : countsOk s) : countsOk (State.landWaiting s) := by
  unfold State.landWaiting
  dsimp only; split
  · exact h
  · exact counts_forList _ _ (fun x s h => counts_landHost s _ _ h) _ h

@[simp] theorem counts_landChange (s : State) (f : FlueId) (b : PieceBlk) (h : countsOk s) : countsOk (State.landChange s f b) := by
  unfold State.landChange; simp only []; (repeat' split) <;> simp [h]

@[simp] theorem counts_dropTag (s : State) (g : FlueId) (tag : Nat) (o : Origin) (h : countsOk s) : countsOk (State.dropTag s g tag o) := by
  simp [State.dropTag, h]

@[simp] theorem counts_landCompletion (s : State) (f : FlueId) (b : PieceBlk) (h : countsOk s) : countsOk (State.landCompletion s f b) := by
  unfold State.landCompletion; split <;> simp [h]

@[simp] theorem counts_landTransit (s : State) (f : FlueId) (b : PieceBlk) (h : countsOk s) : countsOk (State.landTransit s f b) := by
  simp [State.landTransit, h]

@[simp] theorem counts_land (s : State) (f : FlueId) (b : PieceBlk) (h : countsOk s) : countsOk (State.land s f b) := by
  unfold State.land
  (try dsimp only); (repeat' split) <;> first | exact h | (simp [h]; done) | (simp (disch := simp [h]) [h]; done)

@[simp] theorem counts_releaseArrivals (s : State) (n : HearthId) (h : countsOk s) : countsOk (State.releaseArrivals s n) := by
  unfold State.releaseArrivals
  split
  · exact counts_forList _ _ (fun x s h => counts_landHearth s _ _ _ h) _ h
  · exact h

@[simp] theorem counts_landGated (s : State) (f : FlueId) (b : PieceBlk) (h : countsOk s) : countsOk (State.landGated s f b) := by
  unfold State.landGated
  (try dsimp only); (repeat' split) <;> first | exact h | (simp [h]; done) | (simp (disch := simp [h]) [h]; done)

@[simp] theorem counts_landAll (s : State) (h : countsOk s) : countsOk (State.landAll s) := by
  unfold State.landAll
  exact counts_forList _ _ (fun _ _ h => by (try dsimp only); (repeat' split) <;> first | exact h | (simp [h]; done)) _ h

@[simp] theorem counts_presentPieces (s : State) (l : List (Piece × Nat)) (h : countsOk s) : countsOk (s.presentPieces l) := 
  counts_forList _ _ (fun p s h => counts_presentHost s _ _ _ _ h) s h

@[simp] theorem counts_issueWith (s : State) (id : Nat) (l : List (Piece × Nat)) (h : countsOk s) : countsOk (State.issueWith s id l) := by
  simp [State.issueWith, h]

@[simp] theorem counts_tryIssue (s : State) (id : Nat) (h : countsOk s) : countsOk (State.tryIssue s id) := by
  unfold State.tryIssue; simp only []; (repeat' split) <;> simp [h]

@[simp] theorem counts_issueWaiting (s : State) (h : countsOk s) : countsOk (s.issueWaiting) := 
  counts_forList _ _ (fun id s h => counts_tryIssue s id h) s h

@[simp] theorem counts_decoded (s : State) (id : Nat) (ps : List (DWin × Nat × Nat)) (pooled : Bool) (from' : Tally) (h : countsOk s) : countsOk (State.decoded s id ps pooled from') := by
  unfold State.decoded
  simp [h]

@[simp] theorem counts_decodeReq (s : State) (id : Nat) (h : countsOk s) : countsOk (State.decodeReq s id) := by
  unfold State.decodeReq
  (try dsimp only); (repeat' split) <;> first | exact h | (simp [h]; done) | (simp (disch := simp [h]) [h]; done)

@[simp] theorem counts_placeReq (s : State) (id : Nat) (n : HearthId) (h : countsOk s) : countsOk (State.placeReq s id n) := by
  unfold State.placeReq; (repeat' split) <;> simp [h]

@[simp] theorem counts_releaseHeld (s : State) (n : HearthId) (h : countsOk s) : countsOk (s.releaseHeld n) := by
  unfold State.releaseHeld
  exact counts_releaseArrivals _ _ (counts_forList _ _ (fun id s h => counts_placeReq s id n h) s h)

theorem counts_arrive (s : State) (fn : FnId) (stone read : Bool) (q : MemReq) (serve : Nat → State → State)
    (hs : ∀ id s, countsOk s → countsOk (serve id s)) (h : countsOk s) : countsOk (s.arrive fn stone read q serve) := by
  have e : countsOk { s with nextId := s.nextId + 1, wake := true, reqs := s.reqs ++ [s.newReq fn stone read q],
                             fc := s.fc.take (!read) (if read then 0 else q.len) } := h
  unfold State.arrive
  dsimp only
  (repeat' split) <;> first
    | exact hs _ _ e
    | exact counts_closeReq _ _ (counts_recordUnc _ _ _ _ _ e)
    | exact counts_closeReq _ _ (counts_refuseReq _ _ _ _ e)

@[simp] theorem counts_serveBar0 (h : Fin 64) (id : Nat) (s : State) (h' : countsOk s) : countsOk (State.serveBar0 h id s) := by
  unfold State.serveBar0
  (try dsimp only); (repeat' split) <;> first | exact h' | (simp (disch := simp (disch := simp (disch := simp [h']) [h']) [h']) [h']; done)

@[simp] theorem counts_serveBar2 (id : Nat) (s : State) (h : countsOk s) : countsOk (State.serveBar2 id s) := by
  unfold State.serveBar2; simp only []; (repeat' split) <;> first | exact h | simp (disch := simp [h]) [h]

@[simp] theorem counts_noFunction (s : State) (read : Bool) (q : MemReq) (h : countsOk s) : countsOk (State.noFunction s read q) := by
  simp [State.noFunction, h]

@[simp] theorem counts_bar0 (s : State) (n : Fin 64) (read : Bool) (q : MemReq) (h : countsOk s) :
    countsOk (s.bar0 n read q) := by
  unfold State.bar0
  (repeat' split)
  · exact counts_arrive _ _ _ _ _ _ (fun id s h => counts_serveBar0 n id s h) h
  · exact counts_noFunction _ _ _ h
  · exact h

@[simp] theorem counts_bar2 (s : State) (read : Bool) (q : MemReq) (h : countsOk s) : countsOk (State.bar2 s read q) := by
  unfold State.bar2
  split
  · exact counts_arrive _ _ _ _ _ _ (fun id s h => counts_serveBar2 id s h) h
  · exact h

@[simp] theorem counts_presentChange (s : State) (n : HearthId) (r : Route) (input : Fin 9) (entry : BitVec 8) (code : Option Nat) (level : Bool) (h : countsOk s) : countsOk (State.presentChange s n r input entry code level) := by
  unfold State.presentChange
  (try dsimp only); (repeat' split) <;> first | exact h | (simp [h]; done) | (simp (disch := simp [h]) [h]; done)

@[simp] theorem counts_presentSlotChange (s : State) (n : HearthId) (code : Option Nat) (level : Bool) (h : countsOk s) : countsOk (State.presentSlotChange s n code level) := by
  unfold State.presentSlotChange
  exact h

@[simp] theorem counts_slotEvent (s : State) (n : HearthId) (x : Slot) (h : countsOk s) : countsOk (State.slotEvent s n x) := by
  unfold State.slotEvent
  (try dsimp only); (repeat' split) <;> first | exact h | (simp [h]; done) | (simp (disch := simp [h]) [h]; done)

@[simp] theorem counts_clearSlotEvent (s : State) (h : Fin 64) (h' : countsOk s) : countsOk (State.clearSlotEvent s h) := by
  unfold State.clearSlotEvent
  (try dsimp only); (repeat' split) <;> first | exact h' | (simp (disch := simp (disch := simp (disch := simp [h']) [h']) [h']) [h']; done)

@[simp] theorem counts_contribute (s : State) (n : HearthId) (h : countsOk s) : countsOk (State.contribute s n) := by
  unfold State.contribute
  exact counts_forList _ _ (fun _ _ h => by (try dsimp only); (repeat' split) <;> first | exact h | (simp [h]; done)) _ h

@[simp] theorem counts_deassertInputs (s : State) (n : HearthId) (h : countsOk s) : countsOk (State.deassertInputs s n) := by
  unfold State.deassertInputs
  dsimp only
  exact counts_forList _ _ (fun c s h => counts_presentChange s _ _ _ _ _ _ h) _
    (counts_forList _ _ (fun x s h => counts_presentChange s _ _ _ _ _ _ h) _ (counts_dropItems _ _ h))

@[simp] theorem counts_padsOn (s : State) (n : HearthId) (h : countsOk s) : countsOk (State.padsOn s n) := by
  unfold State.padsOn; split <;> exact h

@[simp] theorem counts_padsOff (s : State) (n : HearthId) (h : countsOk s) : countsOk (State.padsOff s n) := by
  unfold State.padsOff
  exact h

@[simp] theorem counts_failBus (s : State) (n : HearthId) (ev : Bool) (h : countsOk s) : countsOk (State.failBus s n ev) := by
  unfold State.failBus
  dsimp only
  exact counts_freeTags _ (counts_forList _ _ (fun (p : Piece × List (Nat × Byte)) s h => counts_failPiece s p.1 ev p.2 h) _
    (counts_modHearth _ _ _ (counts_removePieces _ _ (counts_forList _ _ (fun r s h => counts_endReq s _ _ _ h) s h))))

@[simp] theorem counts_failBlocked (s : State) (n : HearthId) (h : countsOk s) : countsOk (s.failBlocked n) := 
  counts_forHearths _ (fun k s h => by (repeat' split) <;> simp [h]) s h

@[simp] theorem counts_readerFree (s : State) (h : countsOk s) : countsOk (State.readerFree s) := by
  unfold State.readerFree
  exact h

@[simp] theorem counts_dropReading (s0 : State) (n : HearthId) (h : countsOk s0) : countsOk (State.dropReading s0 n) := by
  have e : countsOk (match s0.straps.job with
      | some j => if j.hearth = n then s0.readerFree else s0
      | none => s0 : State) := by (repeat' split) <;> first | exact h | exact counts_readerFree _ h
  exact counts_setStraps _ (counts_modHearth _ _ _ (counts_dropAdmitted _ _ (counts_dropItems _ _ e)))

@[simp] theorem counts_endHearthWork (s : State) (n : HearthId) (h : countsOk s) : countsOk (State.endHearthWork s n) := by
  unfold State.endHearthWork; simp (disch := simp [h])

@[simp] theorem counts_collapseActions (s : State) (n : HearthId) (h : countsOk s) : countsOk (State.collapseActions s n) := by
  unfold State.collapseActions
  dsimp only
  exact counts_padsOff _ _ (counts_modHearth _ _ _ (counts_dropReading _ _ (counts_failBlocked _ _
    (counts_endHearthWork _ _ (counts_deassertInputs _ _ h)))))

@[simp] theorem counts_enter (s : State) (n : HearthId) (x : Slot) (event : Bool) (h : countsOk s) : countsOk (State.enter s n x event) := by
  unfold State.enter; (repeat' split) <;> first | exact h | simp (disch := simp [h]) [h]

@[simp] theorem counts_strapFault (s : State) (n : HearthId) (h : countsOk s) : countsOk (State.strapFault s n) := by
  simp [State.strapFault, h]

@[simp] theorem counts_enterService (s : State) (n : HearthId) (h : countsOk s) : countsOk (State.enterService s n) := by
  unfold State.enterService
  simp (disch := simp (disch := simp (disch := simp [h]) [h]) [h]) [h]

@[simp] theorem counts_supplyFall (s : State) (n : HearthId) (h : countsOk s) : countsOk (s.supplyFall n) := by
  unfold State.supplyFall
  dsimp only
  split
  · exact counts_releaseHeld _ _ (counts_enter _ _ _ _ (counts_collapseActions _ _ (counts_modHearth _ _ _ h)))
  · exact counts_woken _ (counts_modHearth _ _ _ h)

@[simp] theorem counts_senseBank (s : State) (b : Fin 14) (mv : Nat) (h : countsOk s) : countsOk (State.senseBank s b mv) := by
  unfold State.senseBank
  exact h

@[simp] theorem counts_slotEdge (s : State) (n : HearthId) (h : countsOk s) : countsOk (State.slotEdge s n) := by
  unfold State.slotEdge
  (try dsimp only); (repeat' split) <;> first | exact h | (simp [h]; done) | (simp (disch := simp [h]) [h]; done)

@[simp] theorem counts_goodRise (s : State) (n : HearthId) (h : countsOk s) : countsOk (State.goodRise s n) := by
  unfold State.goodRise
  (try dsimp only); (repeat' split) <;> first | exact h | (simp [h]; done) | (simp (disch := simp [h]) [h]; done)

@[simp] theorem counts_presenceLow (s : State) (n : HearthId) (h : countsOk s) : countsOk (State.presenceLow s n) := by
  unfold State.presenceLow; (repeat' split) <;> simp [h]

@[simp] theorem counts_presenceHigh (s : State) (n : HearthId) (h : countsOk s) : countsOk (s.presenceHigh n) := by
  unfold State.presenceHigh
  dsimp only
  split
  · exact counts_releaseHeld _ _ (counts_enter _ _ _ _ (counts_collapseActions _ _ (counts_modHearth _ _ _ h)))
  · exact counts_woken _ (counts_modHearth _ _ _ h)

@[simp] theorem counts_missSameTick (s : State) (n : HearthId) (h : countsOk s) : countsOk (State.missSameTick s n) := by
  unfold State.missSameTick
  exact counts_forList _ _ (fun _ _ h => by (try dsimp only); (repeat' split) <;> first | exact h | (simp (disch := simp (disch := simp (disch := simp [h]) [h]) [h]) [h]; done)) _ h

@[simp] theorem counts_press (s : State) (n : HearthId) (h : countsOk s) : countsOk (State.press s n) := by
  unfold State.press
  (try dsimp only); (repeat' split) <;> first | exact h | (simp (disch := simp (disch := simp (disch := simp [h]) [h]) [h]) [h]; done)

@[simp] theorem counts_drainClose (s : State) (n : HearthId) (h : countsOk s) : countsOk (State.drainClose s n) := by
  unfold State.drainClose
  exact h

@[simp] theorem counts_expireWork (s : State) (n : HearthId) (h : countsOk s) : countsOk (State.expireWork s n) := by
  exact counts_modHearth _ _ _ (counts_endLock _ _ _ (counts_failBlocked _ _ (counts_failBus _ _ _ (counts_expireCycle _ _ _ h))))

@[simp] theorem counts_dampBlocked (s : State) (n : HearthId) (h : countsOk s) : countsOk (State.dampBlocked s n) := by
  exact counts_forHearths _ (fun k s h => by (repeat' split) <;> first | exact h | exact counts_damp _ _ h) s h

@[simp] theorem counts_sampleHearthGroup (s : State) (n : HearthId) (second : Bool) (readings : List Reading) (h : countsOk s) : countsOk (State.sampleHearthGroup s n second readings) := by
  unfold State.sampleHearthGroup
  exact h

@[simp] theorem counts_halfRead (s : State) (readings : List Reading) (h : countsOk s) : countsOk (State.halfRead s readings) := by
  unfold State.halfRead
  (try dsimp only); (repeat' split) <;> first | exact h | (simp [h]; done) | (simp (disch := simp [h]) [h]; done)

@[simp] theorem counts_readHearth (s : State) (n : HearthId) (readings : List Reading) (h : countsOk s) : countsOk (State.readHearth s n readings) := by
  exact h

@[simp] theorem counts_moveSources (s : State) (n : HearthId) (new : HearthCfg) (h : countsOk s) : countsOk (State.moveSources s n new) := by
  have e : ∀ f : Fin 8 → State → State, (∀ q t, countsOk t → countsOk (f q t)) → countsOk (forList (List.finRange 8) f s) :=
    fun f hf => counts_forList _ f hf s h
  unfold State.moveSources
  dsimp only
  (repeat' split)
  · exact counts_presentSlotChange _ _ _ _ (e _ fun q t ht => by
      split
      · exact counts_presentChange _ _ _ _ _ _ _ (counts_presentChange _ _ _ _ _ _ _ ht)
      · exact ht)
  · exact counts_clearSlotEvent _ _ (e _ fun q t ht => by
      split
      · exact counts_presentChange _ _ _ _ _ _ _ (counts_presentChange _ _ _ _ _ _ _ ht)
      · exact ht)
  · exact e _ fun q t ht => by
      split
      · exact counts_presentChange _ _ _ _ _ _ _ (counts_presentChange _ _ _ _ _ _ _ ht)
      · exact ht

@[simp] theorem counts_putReady (s : State) (n : HearthId) (h : countsOk s) : countsOk (State.putReady s n) := by
  unfold State.putReady
  (try dsimp only); (repeat' split) <;> first | exact h | (simp (disch := simp (disch := simp (disch := simp [h]) [h]) [h]) [h]; done)

@[simp] theorem counts_hearthReset (s : State) (n : HearthId) (h : countsOk s) : countsOk (State.hearthReset s n) := by
  exact counts_modHearth _ _ _ (counts_failBlocked _ _ (counts_endHearthWork _ _ h))

@[simp] theorem counts_pay (s : State) (n : HearthId) (h : countsOk s) : countsOk (s.pay n) := by
  unfold State.pay
  split
  · exact h
  · apply counts_presentSlot; apply counts_modHearth; split <;> exact h

@[simp] theorem counts_breakLoop (s : State) (n : HearthId) (h : countsOk s) : countsOk (State.breakLoop s n) := by
  unfold State.breakLoop; (repeat' split) <;> first | exact h | simp (disch := simp [h]) [h]

@[simp] theorem counts_latch (s : State) (n : HearthId) (c : Cycle) (h : countsOk s) : countsOk (State.latch s n c) := by
  exact h

@[simp] theorem counts_takeLock (s : State) (n : HearthId) (c : Cycle) (h : countsOk s) : countsOk (State.takeLock s n c) := by
  unfold State.takeLock; split <;> exact h

@[simp] theorem counts_runCycle (s : State) (n : HearthId) (c : Cycle) (h : countsOk s) : countsOk (State.runCycle s n c) := by
  unfold State.runCycle; (repeat' split) <;> first | exact h | simp (disch := simp (disch := simp (disch := simp [h]) [h]) [h]) [h]

@[simp] theorem counts_lockLevel (s : State) (n : HearthId) (low : Bool) (h : countsOk s) : countsOk (State.lockLevel s n low) := by
  unfold State.lockLevel; split <;> simp [h]

@[simp] theorem counts_dropWait (s : State) (n : HearthId) (h : countsOk s) : countsOk (State.dropWait s n) := by
  unfold State.dropWait
  exact h

@[simp] theorem counts_driveNext (s : State) (n : HearthId) (h : countsOk s) : countsOk (State.driveNext s n) := by
  unfold State.driveNext; simp only []; (repeat' split) <;> simp [h]

@[simp] theorem counts_unblock (s : State) (m : HearthId) (h : countsOk s) : countsOk (s.unblock m) := 
  counts_forHearths _ (fun k s h => by split <;> simp [h]) s h

@[simp] theorem counts_popJob (s : State) (n : HearthId) (h : countsOk s) : countsOk (State.popJob s n) := by
  exact h

@[simp] theorem counts_farWriteDone (s : State) (m : HearthId) (p : Piece) (h : countsOk s) : countsOk (State.farWriteDone s m p) := by
  unfold State.farWriteDone
  (try dsimp only); (repeat' split) <;> first | exact h | (simp (disch := simp (disch := simp (disch := simp [h]) [h]) [h]) [h]; done)

@[simp] theorem counts_lockedWriteDone (s : State) (sc : LockScope) (p : Piece) (h : countsOk s) : countsOk (State.lockedWriteDone s sc p) := by
  unfold State.lockedWriteDone; simp only []; (repeat' split) <;> simp [h]

@[simp] theorem counts_restartWatch (s : State) (o : Origin) (h : countsOk s) : countsOk (State.restartWatch s o) := by
  unfold State.restartWatch; split <;> exact h

@[simp] theorem counts_jobAck (s : State) (n : HearthId) (data : BitVec 32) (h : countsOk s) : countsOk (State.jobAck s n data) := by
  unfold State.jobAck
  (try dsimp only); (repeat' split) <;> first | exact h | (simp (disch := simp (disch := simp (disch := simp [h]) [h]) [h]) [h]; done)

@[simp] theorem counts_errorReply (s : State) (p : Piece) (h : countsOk s) : countsOk (State.errorReply s p) := by
  unfold State.errorReply
  (try dsimp only); (repeat' split) <;> first | exact h | (simp [h]; done) | (simp (disch := simp [h]) [h]; done)

@[simp] theorem counts_jobFail (s : State) (n : HearthId) (ev : Bool) (h : countsOk s) : countsOk (State.jobFail s n ev) := by
  unfold State.jobFail
  (try dsimp only); (repeat' split) <;> first | exact h | (simp (disch := simp (disch := simp (disch := simp [h]) [h]) [h]) [h]; done)

@[simp] theorem counts_goOn (s : State) (n : HearthId) (h : countsOk s) : countsOk (State.goOn s n) := by
  unfold State.goOn; simp only []; (repeat' split) <;> simp [h]

@[simp] theorem counts_failFirst (s : State) (n : HearthId) (h : countsOk s) : countsOk (State.failFirst s n) := by
  unfold State.failFirst; (repeat' split) <;> first | exact h | simp (disch := simp [h]) [h]

@[simp] theorem counts_recheck (n : HearthId) (s : State) (h : countsOk s) : countsOk (State.recheck n s) := by
  unfold State.recheck
  (try dsimp only); (repeat' split) <;> first | exact h | (simp [h]; done) | (simp (disch := simp [h]) [h]; done)

@[simp] theorem counts_settleBus (n : HearthId) (s : State) (h : countsOk s) : countsOk (State.settleBus n s) := by
  unfold State.settleBus
  (try dsimp only); (repeat' split) <;> first | exact h | (simp [h]; done) | (simp (disch := simp [h]) [h]; done)

@[simp] theorem counts_coreTick (s : State) (h : countsOk s) : countsOk (State.coreTick s) := by
  unfold State.coreTick
  exact counts_issueWaiting _ (counts_landWaiting _ (counts_forHearths _ (fun n s h =>
    counts_settleBus _ _ (counts_recheck _ _ h)) s h))

@[simp] theorem counts_leaveBuffer (s : State) (o : Origin) (h : countsOk s) : countsOk (State.leaveBuffer s o) := by
  unfold State.leaveBuffer; simp only []; (repeat' split) <;> simp [h]

@[simp] theorem counts_toHost (s : State) (p : Piece) (h : countsOk s) : countsOk (State.toHost s p) := by
  unfold State.toHost; (repeat' split) <;> simp [h]

@[simp] theorem counts_toHearth (s0 : State) (m : HearthId) (p : Piece) (h : countsOk s0) : countsOk (State.toHearth s0 m p) := by
  unfold State.toHearth
  (try dsimp only); (repeat' split) <;> first | exact h | (simp (disch := simp (disch := simp (disch := simp [h]) [h]) [h]) [h]; done)

@[simp] theorem counts_flueTag (s : State) (f : FlueId) (p : Piece) (h : countsOk s) : countsOk (s.flueTag f p).1 := by
  unfold State.flueTag
  (repeat' split) <;> simp [h]

@[simp] theorem counts_transit (s : State) (f : FlueId) (p : Piece) (h : countsOk s) : countsOk (State.transit s f p) := by
  unfold State.transit; split <;> simp [h]

@[simp] theorem counts_toFlue (s : State) (f : FlueId) (p : Piece) (h : countsOk s) : countsOk (State.toFlue s f p) := by
  unfold State.toFlue
  (try dsimp only); (repeat' split) <;> first | exact h | (simp [h]; done) | (simp (disch := simp [h]) [h]; done)

@[simp] theorem counts_chimneyDone (s : State) (n : HearthId) (serial : Nat) (p : Piece) (h : countsOk s) : countsOk (State.chimneyDone s n serial p) := by
  unfold State.chimneyDone; (repeat' split) <;> simp [h]

@[simp] theorem counts_chimneyPosted (s : State) (n : HearthId) (serial : Nat) (p : Piece) (h : countsOk s) : countsOk (State.chimneyPosted s n serial p) := by
  unfold State.chimneyPosted
  (try dsimp only); (repeat' split) <;> first | exact h | (simp [h]; done) | (simp (disch := simp [h]) [h]; done)

@[simp] theorem counts_toRequester (s : State) (p : Piece) (h : countsOk s) : countsOk (State.toRequester s p) := by
  unfold State.toRequester
  (try dsimp only); (repeat' split) <;> first | exact h | (simp [h]; done) | (simp (disch := simp [h]) [h]; done)

@[simp] theorem counts_placeRecord (s : State) (h : countsOk s) : countsOk (State.placeRecord s) := by
  unfold State.placeRecord
  exact h

@[simp] theorem counts_deliver (s : State) (p : Piece) (h : countsOk s) : countsOk (State.deliver s p) := by
  have e : ∀ o, countsOk (({ s with sw := { s.sw with q := vmod s.sw.q p.src fun l => l.filter (fun x => x.id ≠ p.id), offer := vset s.sw.offer p.src none } } : State).leaveBuffer
      o) := fun o => counts_leaveBuffer _ o h
  unfold State.deliver
  dsimp only
  (repeat' split) <;> first
    | exact counts_donePiece _ _ _ (counts_countFrame _ _ (e _))
    | exact e _
    | exact counts_toRequester _ _ (counts_countFrame _ _ (e _))
    | exact counts_toHearth _ _ _ (counts_countFrame _ _ (e _))
    | exact counts_countFrame _ _ (e _)
    | exact counts_placeRecord _ (counts_countFrame _ _ (e _))
    | exact counts_toHost _ _ (counts_countFrame _ _ (e _))
    | exact counts_toFlue _ _ _ (counts_countFrame _ _ (e _))

@[simp] theorem counts_grantAt (offers : List (PortId × Piece)) (d : PortId) (s : State) (h : countsOk s) : countsOk (State.grantAt offers d s) := by
  unfold State.grantAt
  split
  · exact counts_forList _ _ (fun o s h => counts_deliver s _ h) s h
  · split
    · exact h
    · dsimp only; split
      · exact counts_setSw _ (counts_deliver _ _ h)
      · exact counts_deliver _ _ h

@[simp] theorem counts_aimAll (s : State) (h : countsOk s) : countsOk (State.aimAll s) := by
  exact counts_setSw _ h

@[simp] theorem counts_contestBeats (s : State) (b : Fin 16) (h : countsOk s) : countsOk (State.contestBeats s b) := by
  unfold State.contestBeats; (repeat' split) <;> simp [h]

@[simp] theorem counts_doBeat (s : State) (x : SlotPiece) (w : Nat) (h : countsOk s) : countsOk (State.doBeat s x w).1 := by
  unfold State.doBeat
  (try dsimp only); (repeat' split) <;> first | exact h | (simp [h]; done) | (simp (disch := simp [h]) [h]; done)

@[simp] theorem counts_grantBeat (s : State) (b : Fin 16) (k : Fin 17) (x : SlotPiece) (w : Nat) (h : countsOk s) : countsOk (State.grantBeat s b k x w) := by
  unfold State.grantBeat
  (try dsimp only); (repeat' split) <;> first | exact h | (simp (disch := simp (disch := simp (disch := simp [h]) [h]) [h]) [h]; done)

@[simp] theorem counts_bankTick (b : Fin 16) (s : State) (h : countsOk s) : countsOk (State.bankTick b s) := by
  unfold State.bankTick
  (try dsimp only); (repeat' split) <;> first | exact h | (simp [h]; done) | (simp (disch := simp [h]) [h]; done)

@[simp] theorem counts_saveTaps (s : State) (h : countsOk s) : countsOk (State.saveTaps s) := by
  exact h

@[simp] theorem counts_bellowsPower (s : State) (h : countsOk s) : countsOk (State.bellowsPower s) := by
  unfold State.bellowsPower; split <;> exact h

@[simp] theorem counts_sleepDom (s : State) (d : DomainId) (h : countsOk s) : countsOk (State.sleepDom s d) := by
  unfold State.sleepDom; split <;> exact h

@[simp] theorem counts_sleepLane (s : State) (i : Fin 16) (h : countsOk s) : countsOk (State.sleepLane s i) := by
  unfold State.sleepLane; (repeat' split) <;> first | exact h | simp (disch := simp [h]) [h]

@[simp] theorem counts_presentWake (s : State) (port : PortId) (d : DomainId) (h : countsOk s) : countsOk (State.presentWake s port d) := by
  unfold State.presentWake
  (try dsimp only); (repeat' split) <;> first | exact h | (simp (disch := simp (disch := simp (disch := simp [h]) [h]) [h]) [h]; done)

@[simp] theorem counts_enterDetect (s : State) (h : countsOk s) : countsOk (s.enterDetect) := by
  unfold State.enterDetect
  split
  · apply counts_woken
    apply counts_forList _ _ (fun i s h => counts_presentWake s 16 (rxDom i) h)
    apply counts_forList _ _ (fun i s h => counts_presentWake s 16 (txDom i) h)
    apply counts_forList _ _ (fun i s h => by split <;> simp [h])
    exact counts_saveTaps s h
  · exact h

@[simp] theorem counts_settleLane (s : State) (old : Rate) (r : Rate) (i : Fin 16) (h : countsOk s) : countsOk (State.settleLane s old r i) := by
  unfold State.settleLane; simp only []; (repeat' split) <;> simp [h]

@[simp] theorem counts_rerate (s : State) (r : Rate) (i : Fin 16) (h : countsOk s) : countsOk (State.rerate s r i) := by
  unfold State.rerate
  (try dsimp only); (repeat' split) <;> first | exact h | (simp (disch := simp (disch := simp (disch := simp [h]) [h]) [h]) [h]; done)

@[simp] theorem counts_enterRecovery (s : State) (h : countsOk s) : countsOk (State.enterRecovery s) := by
  unfold State.enterRecovery
  dsimp only
  exact counts_forList _ _ (fun i s h => counts_modLane s _ _ h) _ (counts_saveTaps s h)

@[simp] theorem counts_startFc (s : State) (limits : TxLimits) (h : countsOk s) : countsOk (State.startFc s limits) := by
  exact h

@[simp] theorem counts_takeTx (s : State) (i : Fin 16) (r : Rate) (ask : Option TxEq) (h : countsOk s) : countsOk (State.takeTx s i r ask) := by
  unfold State.takeTx
  (try dsimp only); (repeat' split) <;> first | exact h | (simp [h]; done) | (simp (disch := simp [h]) [h]; done)

@[simp] theorem counts_deferredLtr (s : State) (h : countsOk s) : countsOk (State.deferredLtr s) := by
  unfold State.deferredLtr
  (try dsimp only); (repeat' split) <;> first | exact h | (simp [h]; done) | (simp (disch := simp [h]) [h]; done)

@[simp] theorem counts_trained (s : State) (w : Nat) (reversed : Bool) (rate : Rate) (inverted : BitVec 16) (h : countsOk s) : countsOk (State.trained s w reversed rate inverted) := by
  have e : countsOk (if s.link.rate = rate then s.saveTaps else s : State) := by
    split
    · exact counts_saveTaps _ h
    · exact h
  exact counts_bellowsPower _ (counts_forList _ _ (fun i s h => counts_sleepLane s i h) _
    (counts_forList _ _ (fun i s h => counts_settleLane s _ _ i h) _ e))

@[simp] theorem counts_endRecovery (s : State) (h : countsOk s) : countsOk (State.endRecovery s) := by
  unfold State.endRecovery
  split
  · dsimp only
    exact counts_deferredLtr _ (counts_forList _ _ (fun i s h => counts_modLane s _ _ h) _ h)
  · exact h

@[simp] theorem counts_dropUnneeded (s : State) (d : DomainId) (h : countsOk s) : countsOk (State.dropUnneeded s d) := by
  unfold State.dropUnneeded
  (try dsimp only); (repeat' split) <;> first | exact h | (simp (disch := simp (disch := simp (disch := simp [h]) [h]) [h]) [h]; done)

@[simp] theorem counts_passMove (s : State) (l : LaneId) (h : countsOk s) : countsOk (State.passMove s l) := by
  unfold State.passMove
  (try dsimp only); (repeat' split) <;> first | exact h | (simp (disch := simp (disch := simp (disch := simp [h]) [h]) [h]) [h]; done)

@[simp] theorem counts_applyMove (s : State) (l : LaneId) (h : countsOk s) : countsOk (State.applyMove s l) := by
  obtain ⟨hb, hs, hq⟩ := h
  exact counts_passMove _ _ (counts_modLane _ _ _ ⟨Nat.le_trans (Nat.sub_le _ _) hb, hs, hq⟩)

@[simp] theorem counts_deferMoves (s : State) (l : LaneId) (k : Nat) (h : countsOk s) : countsOk (State.deferMoves s l k) := by
  exact h

@[simp] theorem counts_moveAll (ended : Bool) (k : Nat) (x1 : Nat) (s : State) (x3 : LaneId) (h : countsOk s) : countsOk (State.moveAll ended k x1 s x3) := by
  induction k generalizing x1 s with
  | zero => exact h
  | succ k ih =>
    unfold State.moveAll; dsimp only; (repeat' split)
    · exact h
    · exact ih _ _ (counts_applyMove _ _ h)
    · exact counts_deferMoves _ _ _ h

@[simp] theorem counts_gap (ended : Bool) (l : LaneId) (s : State) (h : countsOk s) : countsOk (State.gap ended l s) := by
  exact counts_modLane _ _ _ (counts_moveAll _ _ _ _ _ h)

@[simp] theorem counts_gaps (ls : List LaneId) (s : State) (h : countsOk s) : countsOk (State.gaps ls s) := by
  unfold State.gaps
  split
  · exact counts_snapshot _ (counts_forList _ _ (fun l s h => counts_gap _ l s h) _ (counts_admitTick _ h))
  · exact counts_forList _ _ (fun l s h => counts_gap _ l s h) _ h

@[simp] theorem counts_passFiller (s : State) (f : FlueId) (fills : BitVec 32) (held : Nat) (h : countsOk s) : countsOk (State.passFiller s f fills held) := by
  unfold State.passFiller
  (try dsimp only); (repeat' split) <;> first | exact h | (simp (disch := simp (disch := simp (disch := simp [h]) [h]) [h]) [h]; done)

@[simp] theorem counts_acquired (s : State) (l : LaneId) (h : countsOk s) : countsOk (State.acquired s l) := by
  unfold State.acquired; split <;> exact h

@[simp] theorem counts_endWork (s : State) (o : Origin) (got : List (Nat × Byte)) (status : CplStatus) (h : countsOk s) : countsOk (State.endWork s o got status) := by
  unfold State.endWork
  (try dsimp only); (repeat' split) <;> first | exact h | (simp (disch := simp (disch := simp (disch := simp [h]) [h]) [h]) [h]; done)

@[simp] theorem counts_hostReply (s : State) (o : Origin) (tag : Nat) (got : List (Nat × Byte)) (status : CplStatus) (h : countsOk s) : countsOk (State.hostReply s o tag got status) := by
  unfold State.hostReply
  (try dsimp only); (repeat' split) <;> first | exact h | (simp [h]; done) | (simp (disch := simp [h]) [h]; done)

@[simp] theorem counts_cutPiece (s : State) (n : Fin 64) (p : Piece) (h : countsOk s) : countsOk (s.cutPiece n p) := by
  unfold State.cutPiece
  dsimp only
  (repeat' split) <;> first | exact h | simp [h]

@[simp] theorem counts_cutTlp (s : State) (n : Fin 64) (mine : List TxTlp) (t : TxTlp) (h : countsOk s) :
    countsOk (s.cutTlp n mine t) := by
  unfold State.cutTlp
  (repeat' split) <;> first | exact h | simp [h]

@[simp] theorem counts_cutKind0 (s : State) (n : Fin 64) (h : countsOk s) : countsOk (s.cutKind0 n) := by
  unfold State.cutKind0
  apply counts_forList _ _ (fun t s h => counts_cutTlp s n _ t h)
  apply counts_forList _ _ (fun p s h => counts_cutPiece s n p h)
  exact counts_setTxq _ (counts_removePieces s _ h)

@[simp] theorem counts_discardKind0 (s : State) (n : Fin 64) (h : countsOk s) : countsOk (s.discardKind0 n) := by
  unfold State.discardKind0
  apply counts_forList _ _ (fun o s h => by split <;> simp [h])
  exact counts_setTxq _ (counts_removePieces s _ h)

@[simp] theorem counts_dropRecords (s : State) (h : countsOk s) : countsOk (s.dropRecords) := by
  have h1 := counts_removePieces s (fun p => p.origin = .sample) h
  unfold State.dropRecords
  rw [counts_mk]
  exact ⟨h1.1, h1.2.1, Nat.zero_le _⟩

@[simp] theorem counts_sendFunc (s : State) (h : Fin 64) (reset : Bool) (h' : countsOk s) : countsOk (State.sendFunc s h reset) := by
  unfold State.sendFunc
  split
  · exact counts_control _ _ _ (counts_setChim _ h')
  · exact h'
  

@[simp] theorem counts_sendFuncOf (s : State) (f : FnId) (reset : Bool) (h : countsOk s) : countsOk (State.sendFuncOf s f reset) := by
  unfold State.sendFuncOf; split <;> simp [h]

@[simp] theorem counts_writeBme (s : State) (f : FnId) (v : Bool) (h : countsOk s) : countsOk (State.writeBme s f v) := by
  unfold State.writeBme
  (try dsimp only); (repeat' split) <;> first | exact h | (simp (disch := simp (disch := simp (disch := simp [h]) [h]) [h]) [h]; done)

@[simp] theorem counts_writeMse (s : State) (f : FnId) (v : Bool) (h : countsOk s) : countsOk (State.writeMse s f v) := by
  unfold State.writeMse; (repeat' split) <;> first | exact h | simp (disch := simp [h]) [h]

@[simp] theorem counts_presentIntx (s : State) (f : FnId) (up : Bool) (h : countsOk s) : countsOk (State.presentIntx s f up) := by
  unfold State.presentIntx; split <;> exact h

@[simp] theorem counts_writeIntd (s : State) (f : FnId) (v : Bool) (h : countsOk s) : countsOk (State.writeIntd s f v) := by
  unfold State.writeIntd; simp only []; (repeat' split) <;> simp [h]

@[simp] theorem counts_writePower (s : State) (f : FnId) (v : PowerState) (h : countsOk s) : countsOk (State.writePower s f v) := by
  unfold State.writePower
  (try dsimp only); (repeat' split) <;> first | exact h | (simp (disch := simp (disch := simp (disch := simp [h]) [h]) [h]) [h]; done)

@[simp] theorem counts_writeLtr (s : State) (f : FnId) (v : Bool) (h : countsOk s) : countsOk (s.writeLtr f v) := by
  unfold State.writeLtr
  simp only []; split <;> exact h

@[simp] theorem counts_writeTenBit (s : State) (f : FnId) (v : Bool) (h : countsOk s) : countsOk (State.writeTenBit s f v) := by
  exact h

@[simp] theorem counts_writeExtTag (s : State) (f : FnId) (v : Bool) (h : countsOk s) : countsOk (State.writeExtTag s f v) := by
  exact h

@[simp] theorem counts_dropBeats (s : State) (id : Nat) (h : countsOk s) : countsOk (State.dropBeats s id) := by
  unfold State.dropBeats
  exact h

@[simp] theorem counts_discardReqs (s : State) (pick : HostReq → Bool) (h : countsOk s) : countsOk (State.discardReqs s pick) := by
  exact counts_forList _ _ (fun id s h => counts_closeReq _ _ (counts_dropBeats _ _ (counts_dropReqWork _ _ h))) _ h

@[simp] theorem counts_refuseReqs (s : State) (pick : HostReq → Bool) (logged : Bool) (h : countsOk s) : countsOk (State.refuseReqs s pick logged) := by
  refine counts_forList _ _ (fun x s h => ?_) s h
  dsimp only; split
  · have e := counts_dropBeats _ x.1 (counts_dropReqWork _ x.1 h)
    split
    · exact counts_closeReq _ _ (counts_refuseReq _ _ _ _ e)
    · exact e
  · exact h

@[simp] theorem counts_endFarLocks (s : State) (h : Fin 64) (h' : countsOk s) : countsOk (State.endFarLocks s h) := by
  refine counts_forHearths _ (fun m s h => ?_) s h'
  split
  · split
    · exact counts_endFarLock s m false h
    · exact h
  · exact h

@[simp] theorem counts_dropWire (s : State) (f : FnId) (intd : Bool) (power : PowerState) (h : countsOk s) : countsOk (State.dropWire s f intd power) := by
  unfold State.dropWire; split <;> simp [h]

@[simp] theorem counts_flrHearth (s : State) (h : Fin 64) (h' : countsOk s) : countsOk (State.flrHearth s h) := by
  unfold State.flrHearth
  dsimp only
  apply counts_woken; apply counts_issueWaiting; apply counts_landWaiting
  split
  · exact counts_hearthReset _ _ (counts_endFarLocks _ _ (counts_dropWire _ _ _ _ (counts_clearSlotEvent _ _
      (counts_refuseReqs _ _ _ (counts_discardReqs _ _ (counts_discardKind0 _ _ (counts_modFn _ _ _ h')))))))
  · exact counts_sendFunc _ _ _ (counts_endFarLocks _ _ (counts_dropWire _ _ _ _ (counts_clearSlotEvent _ _
      (counts_refuseReqs _ _ _ (counts_discardReqs _ _ (counts_discardKind0 _ _ (counts_modFn _ _ _ h')))))))

@[simp] theorem counts_flrGrate (s : State) (h : countsOk s) : countsOk (State.flrGrate s) := by
  unfold State.flrGrate; (repeat' split) <;> first | exact h | simp (disch := simp (disch := simp (disch := simp [h]) [h]) [h]) [h]

@[simp] theorem counts_endFlr (s : State) (f : FnId) (h : countsOk s) : countsOk (s.endFlr f) := by
  unfold State.endFlr
  simp only []; split
  · split
    · exact h
    · exact counts_presentIntx _ _ _ h
  · exact h

@[simp] theorem counts_flrAll (s : State) (h : countsOk s) : countsOk (State.flrAll s) := by
  unfold State.flrAll
  dsimp only
  refine counts_forList _ _ (fun k s h => ?_) _ ?_
  · split
    · exact counts_flrHearth _ _ h
    · exact h
  · split
    · exact counts_flrGrate _ h
    · exact h

@[simp] theorem counts_dropTags (s : State) (h : countsOk s) : countsOk (s.dropTags) := by
  unfold State.dropTags; exact counts_forList _ _ (fun o s h => counts_endWork s _ _ _ h) _ h

@[simp] theorem counts_clearLink (s : State) (h : countsOk s) : countsOk (State.clearLink s) := by
  exact h

@[simp] theorem counts_linkDown (s : State) (h : countsOk s) : countsOk (State.linkDown s) := by
  unfold State.linkDown
  dsimp only
  apply counts_landWaiting; apply counts_clearLink
  exact counts_forList _ _ (fun o s h => by split <;> first | exact h | simp [h]) _
    (counts_flrAll _ (counts_discardReqs _ _ (counts_dropTags _ h)))

@[simp] theorem counts_linkFall (s : State) (h : countsOk s) : countsOk (s.linkFall) := by
  have h1 := counts_clearLink _ (counts_discardReqs _ (fun _ => true) (counts_dropTags s h))
  have h2 := counts_linkDown s h
  unfold State.linkFall
  dsimp only
  split
  · split
    · exact counts_enterDetect _ h1
    · exact h1
  · split
    · exact counts_enterDetect _ h2
    · exact h2

@[simp] theorem counts_clearSeen (s : State) (p : Fin 4) (half : Fin 2) (v : Dword) (h : countsOk s) : countsOk (State.clearSeen s p half v) := by
  exact counts_forList _ _ (fun i s h => by dsimp only; split <;> first | exact h | exact counts_clearSlotEvent _ _ h) s h

@[simp] theorem counts_afterRead (s : State) (f : FnId) (off : Nat) (v : Dword) (h : countsOk s) : countsOk (State.afterRead s f off v) := by
  unfold State.afterRead; split <;> simp [h]

@[simp] theorem counts_writeCommand (s : State) (f : FnId) (data : Dword) (be : BitVec 4) (h : countsOk s) : countsOk (State.writeCommand s f data be) := by
  unfold State.writeCommand; (repeat' split) <;> first | exact h | simp (disch := simp (disch := simp (disch := simp [h]) [h]) [h]) [h]

@[simp] theorem counts_writeBar (s : State) (f : FnId) (high : Bool) (data : Dword) (be : BitVec 4) (h : countsOk s) : countsOk (State.writeBar s f high data be) := by
  exact h

@[simp] theorem counts_writePmcsr (s : State) (f : FnId) (data : Dword) (be : BitVec 4) (h : countsOk s) : countsOk (State.writePmcsr s f data be) := by
  simp [State.writePmcsr, h]

@[simp] theorem counts_writeDevctl (s : State) (f : FnId) (data : Dword) (be : BitVec 4) (h : countsOk s) : countsOk (State.writeDevctl s f data be) := by
  unfold State.writeDevctl
  (try dsimp only); (repeat' split) <;> first | exact h | (simp (disch := simp (disch := simp (disch := simp [h]) [h]) [h]) [h]; done)

@[simp] theorem counts_writeDevctl2 (s : State) (f : FnId) (data : Dword) (be : BitVec 4) (h : countsOk s) : countsOk (State.writeDevctl2 s f data be) := by
  simp [State.writeDevctl2, h]

@[simp] theorem counts_cfgWrite (s : State) (f : FnId) (off : Nat) (be : BitVec 4) (data : Dword) (bus : Byte) (h : countsOk s) : countsOk (State.cfgWrite s f off be data bus) := by
  unfold State.cfgWrite; simp only []; (repeat' split) <;> simp [h]

@[simp] theorem counts_passNp (s : State) (bytes : Nat) (h : countsOk s) : countsOk (State.passNp s bytes) := by
  exact h

@[simp] theorem counts_cfgDone (s : State) (f : FnId) (tag : Nat) (v : Option Dword) (h : countsOk s) : countsOk (State.cfgDone s f tag v) := by
  unfold State.cfgDone; split <;> exact h

@[simp] theorem counts_takeCfgWrite (s : State) (f : FnId) (off : Nat) (be : BitVec 4) (data : Dword) (bus : Byte) (tag : Nat) (h : countsOk s) : countsOk (State.takeCfgWrite s f off be data bus tag) := by
  unfold State.takeCfgWrite; (repeat' split) <;> first | exact h | simp (disch := simp (disch := simp (disch := simp [h]) [h]) [h]) [h]

@[simp] theorem counts_takeCfgRead (s : State) (f : FnId) (off : Nat) (tag : Nat) (h : countsOk s) : countsOk (State.takeCfgRead s f off tag) := by
  unfold State.takeCfgRead; (repeat' split) <;> first | exact h | simp (disch := simp (disch := simp (disch := simp [h]) [h]) [h]) [h]

@[simp] theorem counts_cfgMiss (s : State) (bytes tag : Nat) (h : countsOk s) : countsOk (State.cfgMiss s bytes tag) := by
  unfold State.cfgMiss
  simp (disch := simp (disch := simp (disch := simp [h]) [h]) [h]) [h]

@[simp] theorem counts_allocTag (s : State) (t : TxTlp) (h : countsOk s) : countsOk (State.allocTag s t) := by
  unfold State.allocTag; (repeat' split) <;> simp [h]

@[simp] theorem counts_sentWrite (s : State) (t : TxTlp) (h : countsOk s) : countsOk (State.sentWrite s t) := by
  unfold State.sentWrite; (repeat' split) <;> simp [h]

@[simp] theorem counts_sendNew (s : State) (t : TxTlp) (h : countsOk s) : countsOk (State.sendNew s t) := by
  simp [State.sendNew, h]

@[simp] theorem counts_purge (s : State) (ack : BitVec 12) (h : countsOk s) : countsOk (State.purge s ack) := by
  exact h

@[simp] theorem counts_countReplay (s : State) (h : countsOk s) : countsOk (State.countReplay s) := by
  unfold State.countReplay
  (try dsimp only); (repeat' split) <;> first | exact h | (simp [h]; done) | (simp (disch := simp [h]) [h]; done)

@[simp] theorem counts_freeTag (s : State) (t : HostTag) (h : countsOk s) : countsOk (State.freeTag s t) := by
  unfold State.freeTag
  exact h

@[simp] theorem counts_cplStatusBits (s : State) (f : FnId) (status : CplStatus) (h : countsOk s) : countsOk (State.cplStatusBits s f status) := by
  unfold State.cplStatusBits; split <;> simp [h]

@[simp] theorem counts_takeCpl (s : State) (tag : Nat) (status : CplStatus) (poisoned : Bool) (data : List Byte) (fn : Nat) (hdr : Vector Dword 4) (h : countsOk s) : countsOk (State.takeCpl s tag status poisoned data fn hdr) := by
  unfold State.takeCpl
  (try dsimp only); (repeat' split) <;> first | exact h | (simp (disch := simp (disch := simp (disch := simp [h]) [h]) [h]) [h]; done)

@[simp] theorem counts_passPosted (s : State) (bytes : Nat) (h : countsOk s) : countsOk (State.passPosted s bytes) := by
  exact h

@[simp] theorem counts_pmeTurnOff (s : State) (h : countsOk s) : countsOk (State.pmeTurnOff s) := by
  exact h

@[simp] theorem counts_pass (s : State) (t : Tlp) (h : countsOk s) : countsOk (State.pass s t) := by
  unfold State.pass; split <;> exact h

@[simp] theorem counts_unsupported (s : State) (t : Tlp) (h : countsOk s) : countsOk (State.unsupported s t) := by
  unfold State.unsupported; simp only []; (repeat' split) <;> first | exact h | simp (disch := simp [h]) [h]

@[simp] theorem counts_takeMem (s : State) (t : Tlp) (read : Bool) (h : countsOk s) : countsOk (State.takeMem s t read) := by
  unfold State.takeMem; (repeat' split) <;> simp [h]

@[simp] theorem counts_takeTlp (s : State) (t : Tlp) (h : countsOk s) : countsOk (State.takeTlp s t) := by
  unfold State.takeTlp; (repeat' split) <;> simp [h]

@[simp] theorem counts_acceptTlp (s : State) (t : Tlp) (h : countsOk s) : countsOk (State.acceptTlp s t) := by
  unfold State.acceptTlp; (repeat' split) <;> simp [h]

@[simp] theorem counts_leaveTxL0s (s : State) (h : countsOk s) : countsOk (State.leaveTxL0s s) := by
  unfold State.leaveTxL0s
  exact h

@[simp] theorem counts_finishLocked (s : State) (h : countsOk s) : countsOk (State.finishLocked s) := by
  unfold State.finishLocked
  exact h

@[simp] theorem counts_leaveAll (s0 : State) (h : countsOk s0) : countsOk (State.leaveAll s0) := by
  obtain ⟨hb, hs, _⟩ := counts_finishLocked _ (counts_saveTaps _ h)
  exact ⟨hb, hs, Nat.zero_le _⟩

@[simp] theorem counts_startTS (s : State) (h : countsOk s) : countsOk (State.startTS s) := by
  exact ⟨Nat.le_refl _, ⟨Nat.zero_le _, Nat.zero_le _⟩, Nat.zero_le _⟩

@[simp] theorem counts_perstHigh (s : State) (h : countsOk s) : countsOk (State.perstHigh s) := by
  unfold State.perstHigh
  simp [h]

@[simp] theorem counts_cold (s : State) (h : countsOk s) : countsOk (State.cold s) := by
  exact ⟨Nat.le_refl _, ⟨Nat.zero_le _, Nat.zero_le _⟩, Nat.zero_le _⟩

@[simp] theorem counts_loseAux (s : State) (h : countsOk s) : countsOk (State.loseAux s) := by
  unfold State.loseAux
  exact h

@[simp] theorem counts_senseAll (s : State) (i : Island) (h : countsOk s) : countsOk (State.senseAll s i) := by
  unfold State.senseAll
  (try dsimp only); (repeat' split) <;> first | exact h | (simp [h]; done) | (simp (disch := simp [h]) [h]; done)

@[simp] theorem counts_begin (s : State) (clock : ClockSource) (t : Toggles) (perstLow : Bool) (h : countsOk s) : countsOk (State.begin s clock t perstLow) := by
  unfold State.begin
  simp [h]

@[simp] theorem counts_sendLevels (s : State) (q : Fin 4) (f : FlueId) (h : countsOk s) : countsOk (State.sendLevels s q f) := by
  simp [State.sendLevels, h]

@[simp] theorem counts_sendReports (s : State) (f : FlueId) (h : countsOk s) : countsOk (s.sendReports f) := counts_modFlue s f _ h

@[simp] theorem counts_pathBegins (s : State) (q : Fin 4) (f : FlueId) (h : countsOk s) : countsOk (State.pathBegins s q f) := by
  unfold State.pathBegins
  (try dsimp only); (repeat' split) <;> first | exact h | (simp (disch := simp (disch := simp (disch := simp [h]) [h]) [h]) [h]; done)

@[simp] theorem counts_pathLost (s : State) (q : Fin 4) (h : countsOk s) : countsOk (State.pathLost s q) := by
  refine counts_forHearths _ (fun n s h => ?_) _ (counts_forHearths _ (fun n s h => ?_) _ (counts_setChim _ h))
  · (repeat' split) <;> first | exact h | exact counts_endFarLock _ _ _ h
  · (repeat' split) <;> first | exact h | exact counts_endLock _ _ _ h

@[simp] theorem counts_repath (old s : State) (h : countsOk s) : countsOk (State.repath old s) := by
  unfold State.repath
  exact counts_forList _ _ (fun _ _ h => by (try dsimp only); (repeat' split) <;> first | exact h | (simp (disch := simp (disch := simp (disch := simp [h]) [h]) [h]) [h]; done)) _ h

@[simp] theorem counts_linksChanged (old s : State) (h : countsOk s) : countsOk (State.linksChanged old s) := by
  refine counts_woken _ (counts_issueWaiting _ (counts_payOwed _ (counts_repath _ _
    (counts_forList _ _ (fun q s h => ?_) _ (counts_forList _ _ (fun x s h => ?_) _ h)))))
  · split
    · exact counts_pathLost _ _ h
    · exact h
  · split
    · exact counts_pathBegins _ _ _ h
    · exact h

@[simp] theorem counts_flueEvent (s : State) (f : FlueId) (cause : Nat) (h : countsOk s) : countsOk (s.flueEvent f cause) := by
  have h1 := counts_modFlue s f (fun x => { x with cause := cause, eventTick := s.now }) h
  have h2 : countsOk { s.modFlue f (fun x => { x with cause := cause, eventTick := s.now }) with
      soot := { (s.modFlue f (fun x => { x with cause := cause, eventTick := s.now })).soot with
        flueEvents := satInc 0xFFFF (s.modFlue f (fun x => { x with cause := cause, eventTick := s.now })).soot.flueEvents } } := by
    obtain ⟨hb, ⟨hf, he⟩, hq⟩ := h1
    exact ⟨hb, ⟨hf, by simp only [satInc]; split <;> omega⟩, hq⟩
  unfold State.flueEvent
  simp only []; split
  · exact h2
  · exact counts_logEvent _ _ h2

@[simp] theorem counts_dropTransit (s : State) (f : FlueId) (h : countsOk s) : countsOk (State.dropTransit s f) := by
  exact h

@[simp] theorem counts_reacquire (s : State) (f : FlueId) (h : countsOk s) : countsOk (s.reacquire f) := 
  counts_forList _ _ (fun l s h => by split <;> simp [h]) s h

@[simp] theorem counts_dropLink (s : State) (f : FlueId) (cause : Nat) (h : countsOk s) : countsOk (s.dropLink f cause) := by
  unfold State.dropLink
  exact counts_linksChanged _ _ (counts_reacquire _ _ (counts_dropTransit _ _ (counts_flueEvent _ _ _ (counts_modFlue _ _ _ h))))

@[simp] theorem counts_countParity (s : State) (f : FlueId) (e : BlockFault) (h : countsOk s) : countsOk (State.countParity s f e) := by
  unfold State.countParity; split <;> simp [h]

@[simp] theorem counts_setToggles (s : State) (f : FlueId) (v : Bool) (h : countsOk s) : countsOk (State.setToggles s f v) := by
  unfold State.setToggles
  (try dsimp only); (repeat' split) <;> first | exact h | (simp [h]; done) | (simp (disch := simp [h]) [h]; done)

@[simp] theorem counts_deadLink (s : State) (f : FlueId) (cause : Nat) (h : countsOk s) : countsOk (s.deadLink f cause) := by
  have h1 : countsOk ((s.modFlue f fun x => { x with st := .dead }).flueEvent f cause) := by simp [h]
  unfold State.deadLink
  apply counts_linksChanged; simp only []; split <;> exact h1

@[simp] theorem counts_checkXoff (s : State) (f : FlueId) (c : Cls) (h : countsOk s) : countsOk (State.checkXoff s f c) := by
  unfold State.checkXoff; split <;> simp [h]

@[simp] theorem counts_takePiece (s : State) (f : FlueId) (b : PieceBlk) (h : countsOk s) : countsOk (State.takePiece s f b) := by
  unfold State.takePiece
  dsimp only; split
  · exact counts_checkXoff _ _ _ (counts_landGated _ _ _ (counts_receipt _ _ h))
  · exact counts_receipt _ _ h
  · exact counts_dropLink _ _ _ h

@[simp] theorem counts_forward (s : State) (q : Fin 4) (b : FlueBlk) (h : countsOk s) : countsOk (State.forward s q b) := by
  unfold State.forward; split <;> simp [h]

@[simp] theorem counts_takeReceipt (s : State) (r : Receipt) (h : countsOk s) : countsOk (s.takeReceipt r) := by
  unfold State.takeReceipt
  exact counts_issueWaiting _ (counts_forList _ _ (fun u s h => counts_endPosted s _ _ h) _ h)

@[simp] theorem counts_takeBackoff (s : State) (n : HearthId) (tag : Nat) (h : countsOk s) : countsOk (State.takeBackoff s n tag) := by
  unfold State.takeBackoff
  (try dsimp only); (repeat' split) <;> first | exact h | (simp [h]; done) | (simp (disch := simp [h]) [h]; done)

@[simp] theorem counts_takeLevels (s : State) (pos : Fin 4) (levels : List LevelEntry) (h : countsOk s) : countsOk (State.takeLevels s pos levels) := by
  unfold State.takeLevels
  exact counts_forList _ _ (fun _ _ h => by (try dsimp only); (repeat' split) <;> first | exact h | (simp [h]; done)) _ h

@[simp] theorem counts_endPass (s : State) (p : Fin 4) (h : countsOk s) : countsOk (s.endPass p) := by
  unfold State.endPass
  simp only []; split
  · exact counts_logEvent _ _ h
  · exact h

@[simp] theorem counts_dropHearthTags (s : State) (n : HearthId) (h : countsOk s) : countsOk (State.dropHearthTags s n) := by
  exact h

@[simp] theorem counts_takeFunc (s : State) (m : FuncMsg) (h : countsOk s) : countsOk (s.takeFunc m) := by
  unfold State.takeFunc
  dsimp only
  split
  · apply counts_dropHearthTags; apply counts_hearthReset; apply counts_discardKind0; split <;> simp [h]
  · split <;> simp [h]

@[simp] theorem counts_loseMember (s : State) (h : countsOk s) : countsOk (State.loseMember s) := by
  have e := counts_leaveAll _ h
  exact ⟨e.1, e.2.1, e.2.2⟩

@[simp] theorem counts_clockDrop (s : State) (f : FlueId) (h : countsOk s) : countsOk (State.clockDrop s f) := by
  unfold State.clockDrop; split <;> simp [h]

@[simp] theorem counts_takeGroup0 (s : State) (h : countsOk s) : countsOk (State.takeGroup0 s) := by
  unfold State.takeGroup0
  exact h

@[simp] theorem counts_powerMode (s : State) (h : countsOk s) : countsOk (s.powerMode) := by
  unfold State.powerMode
  dsimp only
  split
  · split <;> (rw [counts_mk]; exact h)
  · split <;> (rw [counts_mk]; exact h)

@[simp] theorem counts_enableFlues (s : State) (h : countsOk s) : countsOk (State.enableFlues s) := by
  unfold State.enableFlues
  dsimp only; split
  · exact counts_forList _ _ (fun f s h => counts_forList _ _ (fun d s h => counts_presentWake s _ d h) _ (counts_modFlue _ _ _ h)) s h
  · exact h

@[simp] theorem counts_restart (s : State) (c : ClockSource) (h : countsOk s) : countsOk (State.restart s c) := by
  unfold State.restart
  simp [h]

@[simp] theorem counts_endGroup0 (s : State) (h : countsOk s) : countsOk (State.endGroup0 s) := by
  unfold State.endGroup0
  dsimp only; split
  · exact counts_enableFlues _ (counts_powerMode _ (counts_takeGroup0 _ h))
  · exact counts_restart _ _ (counts_powerMode _ (counts_takeGroup0 _ h))

@[simp] theorem counts_checkFlues (s : State) (h : countsOk s) : countsOk (s.checkFlues) := by
  unfold State.checkFlues
  split
  · exact h
  · exact counts_forList _ _ (fun f s h => counts_forList _ _ (fun d s h => counts_sleepDom s d h) _ (counts_modFlue s f _ h)) s h

@[simp] theorem counts_quarantine (s : State) (h : countsOk s) : countsOk (State.quarantine s) := by
  unfold State.quarantine
  exact h

@[simp] theorem counts_endGroup15 (s : State) (h : countsOk s) : countsOk (State.endGroup15 s) := by
  unfold State.endGroup15
  (try dsimp only); (repeat' split) <;> first | exact h | (simp [h]; done) | (simp (disch := simp [h]) [h]; done)

@[simp] theorem counts_leaveParked (s : State) (n : HearthId) (h : countsOk s) : countsOk (State.leaveParked s n) := by
  unfold State.leaveParked
  (try dsimp only); (repeat' split) <;> first | exact h | (simp [h]; done) | (simp (disch := simp [h]) [h]; done)

@[simp] theorem counts_endHearthGroups (s : State) (n : HearthId) (h : countsOk s) : countsOk (State.endHearthGroups s n) := by
  simp [State.endHearthGroups, h]

@[simp] theorem counts_startHearthGroups (s : State) (n : HearthId) (h : countsOk s) : countsOk (State.startHearthGroups s n) := by
  exact h

@[simp] theorem counts_sampleGroup (s : State) (g : Fin 48) (readings : List Reading) (h : countsOk s) : countsOk (s.sampleGroup g readings) := by
  unfold State.sampleGroup
  dsimp only; split
  · exact counts_setStraps _ h
  · exact counts_modHearth _ _ _ (counts_setStraps _ h)

@[simp] theorem counts_endGroup (s : State) (g : Fin 48) (h : countsOk s) : countsOk (State.endGroup s g) := by
  unfold State.endGroup
  (try dsimp only); (repeat' split) <;> first | exact h | (simp (disch := simp (disch := simp (disch := simp [h]) [h]) [h]) [h]; done)

@[simp] theorem counts_startTraining (s : State) (h : countsOk s) : countsOk (s.startTraining) := by
  unfold State.startTraining
  split
  · exact counts_forList _ _ (fun f s h => counts_modFlue s f _ h) s h
  · exact h

@[simp] theorem counts_startTestLane (s : State) (l : LaneId) (h : countsOk s) : countsOk (State.startTestLane s l) := by
  unfold State.startTestLane
  dsimp only; split
  · exact counts_forList _ _ (fun d s h => counts_presentWake s _ d h) s h
  · exact h


@[simp] theorem counts_takeBits (s : State) (l : LaneId) (bits : List Bool) (h : countsOk s) : countsOk (State.takeBits s l bits) := by
  unfold State.takeBits
  exact h


end Sys2Proof.Machine
end

