-- ==== Sys2Proof/Laws/Order.lean ====
section
/-! SUPPORT. The order of the events of one tick (R28, R259): every event of the tick is handled, once, and in the order of the
rule. -/

namespace Sys2Proof.Machine

open Sys2Proof

/-- The place of a command among those of its tick: its source, then its rank. -/
def State.turn (s : State) (c : Instr) : Nat := 3 * (s.source c).place + Instr.rank c

variable (s : State)

theorem before_iff (a b : Instr) : s.before a b = true ↔ s.turn a ≤ s.turn b := by
  simp [State.before, State.turn]

theorem insertEvent_perm (c : Instr) (l : List Instr) : (s.insertEvent c l).Perm (c :: l) := by
  induction l with
  | nil => exact .refl _
  | cons d rest ih =>
    simp only [State.insertEvent]
    split
    · exact (ih.cons d).trans (.swap c d rest)
    · exact .refl _

theorem insertEvent_sorted (c : Instr) (l : List Instr) (h : l.Pairwise fun a b => s.turn a ≤ s.turn b) :
    (s.insertEvent c l).Pairwise fun a b => s.turn a ≤ s.turn b := by
  induction l with
  | nil => simp [State.insertEvent]
  | cons d rest ih =>
    have hd := List.pairwise_cons.mp h
    simp only [State.insertEvent]
    split
    · rename_i hb
      refine List.pairwise_cons.mpr ⟨fun x hx => ?_, ih hd.2⟩
      rcases List.mem_cons.mp ((insertEvent_perm s c rest).mem_iff.mp hx) with rfl | hx
      · exact (before_iff s _ _).mp hb
      · exact hd.1 x hx
    · rename_i hb
      have hcd : s.turn c ≤ s.turn d := by rw [before_iff] at hb; omega
      refine List.pairwise_cons.mpr ⟨fun x hx => ?_, h⟩
      rcases List.mem_cons.mp hx with rfl | hx
      · exact hcd
      · exact hcd.trans (hd.1 x hx)

/-- R28: no event of a tick is lost and none comes twice. -/
theorem inOrder_perm (events : List Instr) : (s.inOrder events).Perm events := by
  suffices h : ∀ l, (events.foldl (fun l c => s.insertEvent c l) l).Perm (events ++ l) by simpa [State.inOrder] using h []
  induction events with
  | nil => exact fun l => .refl _
  | cons c rest ih =>
    intro l
    exact (ih _).trans (((insertEvent_perm s c l).append_left rest).trans List.perm_middle)

/-- R259: the events of a tick are handled in the order of their sources. -/
theorem inOrder_sorted (events : List Instr) : (s.inOrder events).Pairwise fun a b => s.turn a ≤ s.turn b := by
  suffices h : ∀ l : List Instr, (l.Pairwise fun a b => s.turn a ≤ s.turn b) →
      (events.foldl (fun l c => s.insertEvent c l) l).Pairwise fun a b => s.turn a ≤ s.turn b from h [] .nil
  induction events with
  | nil => exact fun l h => h
  | cons c rest ih => exact fun l h => ih _ (insertEvent_sorted s c l h)

end Sys2Proof.Machine
end

