-- ==== Sys2Proof/Laws/Settled.lean ====
section
/-! SUPPORT. The parts of the state that only a few commands change (`State.settled`), and one lemma per operation that
leaves them alone: the queue, the mode and the settings, the hearthstone's bytes, the protection unit, the TAP, the gate,
the clock but for the count and the source, and the island but for the clear. -/

namespace Sys2Proof.Machine

open Sys2Proof

/-- What most operations leave alone. The tally, the source and the two clear fields stand at fixed values. -/
structure Settled where
  pending : List Instr
  mode : Mode
  strapMode : Mode
  cfg : GlobalCfg
  prot : Prot
  stone : List Host.Cell
  tap : Tap
  gate : Bool
  slotPower : Bool
  readyOnce : Bool
  clk : Clock
  island : Island

def State.settled (s : State) : Settled :=
  { pending := s.pending, mode := s.mode, strapMode := s.strapMode, cfg := s.cfg, prot := s.prot, stone := s.stone,
    tap := s.tap, gate := s.gate, slotPower := s.slotPower, readyOnce := s.readyOnce,
    clk := { s.clk with tally := 0, source := .refclk }, island := { s.island with clearMark := false, clearFrom := none } }

/-- The settled part of a state given by its fields. -/
@[simp] theorem settled_mk (a0 : List Instr) (a1 : Nat) (a2 : Bool) (a3 : List DomainId) (a4 : Clock) (a5 : Island) (a6 : Straps) (a7 : Mode) (a8 : Mode) (a9 : Bool) (a10 : Bool) (a11 : Bool) (a12 : GlobalCfg) (a13 : Prot) (a14 : Vector DomState 162) (a15 : Ledger) (a16 : Items) (a17 : HostLink) (a18 : Dll) (a19 : Fc) (a20 : List TxTlp) (a21 : List HostReq) (a22 : List HostTag) (a23 : Vector FnCfg 65) (a24 : Vector Hearth 16) (a25 : Switch) (a26 : List Host.Cell) (a27 : Vector Bank 16) (a28 : List LockScope) (a29 : List (Nat × HearthId)) (a30 : Sampler) (a31 : Soot) (a32 : Irq) (a33 : Flue) (a34 : Flue) (a35 : Chimney) (a36 : Vector Lane 32) (a37 : BitVec 32) (a38 : Vector TestLane 32) (a39 : Bool) (a40 : Tap) (a41 : Bool) :
    (State.mk a0 a1 a2 a3 a4 a5 a6 a7 a8 a9 a10 a11 a12 a13 a14 a15 a16 a17 a18 a19 a20 a21 a22 a23 a24 a25 a26 a27 a28 a29 a30 a31 a32 a33 a34 a35 a36 a37 a38 a39 a40 a41).settled = { pending := a0, mode := a7, strapMode := a8, cfg := a12, prot := a13, stone := a26, tap := a40, gate := a10, slotPower := a9, readyOnce := a11, clk := { a4 with tally := 0, source := .refclk }, island := { a5 with clearMark := false, clearFrom := none } } := rfl

/-- A state rebuilt from another one's parts. -/
@[simp] theorem settled_fold (t : State) :
    ({ pending := t.pending, mode := t.mode, strapMode := t.strapMode, cfg := t.cfg, prot := t.prot, stone := t.stone,
       tap := t.tap, gate := t.gate, slotPower := t.slotPower, readyOnce := t.readyOnce,
       clk := { t.clk with tally := 0, source := .refclk }, island := { t.island with clearMark := false, clearFrom := none } } : Settled)
      = t.settled := rfl

theorem settled_ite (c : Prop) [Decidable c] (a b : State) :
    (if c then a else b).settled = if c then a.settled else b.settled := apply_ite _ _ _ _

theorem settled_forList {α : Type} (l : List α) (f : α → State → State) (h : ∀ x s, (f x s).settled = s.settled) (s : State) :
    (forList l f s).settled = s.settled := by
  unfold forList
  induction l generalizing s with
  | nil => rfl
  | cons x xs ih => rw [List.foldl_cons, ih, h]

theorem settled_forHearths (f : HearthId → State → State) (h : ∀ n s, (f n s).settled = s.settled) (s : State) :
    (forHearths f s).settled = s.settled := settled_forList allHearths f h s

/-! One field replaced. -/

theorem settled_setTally (s : State) (v : Tally) : ({ s with clk := { s.clk with tally := v } } : State).settled = s.settled := rfl
theorem settled_setFns (s : State) (v : Vector FnCfg 65) : ({ s with fns := v } : State).settled = s.settled := rfl
theorem settled_setTests (s : State) (v : Vector TestLane 32) : ({ s with tests := v } : State).settled = s.settled := rfl
theorem settled_setLink (s : State) (v : HostLink) : ({ s with link := v } : State).settled = s.settled := rfl
theorem settled_setTxq (s : State) (v : List TxTlp) : ({ s with txq := v } : State).settled = s.settled := rfl
theorem settled_setChim (s : State) (v : Chimney) : ({ s with chim := v } : State).settled = s.settled := rfl
theorem settled_setSoot (s : State) (v : Soot) : ({ s with soot := v } : State).settled = s.settled := rfl
theorem settled_setDoms (s : State) (v : Vector DomState 162) : ({ s with doms := v } : State).settled = s.settled := rfl
theorem settled_setStraps (s : State) (v : Straps) : ({ s with straps := v } : State).settled = s.settled := rfl
theorem settled_setIrq (s : State) (v : Irq) : ({ s with irq := v } : State).settled = s.settled := rfl
theorem settled_setLedger (s : State) (v : Ledger) : ({ s with ledger := v } : State).settled = s.settled := rfl
theorem settled_setSw (s : State) (v : Switch) : ({ s with sw := v } : State).settled = s.settled := rfl
theorem settled_setItems (s : State) (v : Items) : ({ s with items := v } : State).settled = s.settled := rfl

@[simp] theorem settled_setHearth (s : State) (n : HearthId) (h : Hearth) : (State.setHearth s n h).settled = s.settled := by
  rfl

@[simp] theorem settled_modHearth (s : State) (n : HearthId) (f : Hearth → Hearth) : (State.modHearth s n f).settled = s.settled := by
  rfl

@[simp] theorem settled_modFn (s : State) (f : FnId) (g : FnCfg → FnCfg) : (State.modFn s f g).settled = s.settled := by
  rfl

@[simp] theorem settled_setDom (s : State) (d : DomainId) (x : DomState) : (State.setDom s d x).settled = s.settled := by
  rfl

@[simp] theorem settled_modFlue (s : State) (f : FlueId) (g : Flue → Flue) : (State.modFlue s f g).settled = s.settled := by
  unfold State.modFlue; split <;> rfl

@[simp] theorem settled_modLane (s : State) (l : LaneId) (g : Lane → Lane) : (State.modLane s l g).settled = s.settled := by
  rfl

@[simp] theorem settled_modTest (s : State) (l : LaneId) (g : TestLane → TestLane) : (State.modTest s l g).settled = s.settled := by
  rfl

@[simp] theorem settled_woken (s : State) : (State.woken s).settled = s.settled := by
  rfl

@[simp] theorem settled_presentService (s : State) (port : PortId) (path : List DomainId) (cost : Nat) (work : Work) : (State.presentService s port path cost work).settled = s.settled := by
  rfl

@[simp] theorem settled_presentHost (s : State) (port : PortId) (path : List DomainId) (cost : Nat) (work : Work) : (State.presentHost s port path cost work).settled = s.settled := by
  rfl

@[simp] theorem settled_presentSlot (s : State) (k : Fin 19) (port : PortId) (path : List DomainId) (cost : Nat) (work : Work) : (State.presentSlot s k port path cost work).settled = s.settled := by
  rfl

@[simp] theorem settled_dropItems (s : State) (p : Item → Bool) : (State.dropItems s p).settled = s.settled := by
  rfl

@[simp] theorem settled_dropAdmitted (s : State) (p : Item → Bool) : (State.dropAdmitted s p).settled = s.settled := by
  rfl

@[simp] theorem settled_sendTlp (s : State) (t : TxTlp) : (State.sendTlp s t).settled = s.settled := by
  rfl

@[simp] theorem settled_presentMessage (s : State) (kind : TxKind) (fn : FnId) (path : List DomainId) (cost : Nat) : (State.presentMessage s kind fn path cost).settled = s.settled := by
  unfold State.presentMessage
  simp

@[simp] theorem settled_errMessage (s : State) (f : FnId) (k : Option TxKind) : (State.errMessage s f k).settled = s.settled := by
  unfold State.errMessage
  (try dsimp only); (repeat' split) <;> first | (simp; done) | rfl

@[simp] theorem settled_recordCor (s : State) (f : FnId) (e : CorErr) : (State.recordCor s f e).settled = s.settled := by
  unfold State.recordCor; split <;> simp

@[simp] theorem settled_recordUnc (s : State) (f : FnId) (e : UncErr) (advisory : Bool) (hdr : Vector Dword 4) : (State.recordUnc s f e advisory hdr).settled = s.settled := by
  unfold State.recordUnc; split <;> simp

@[simp] theorem settled_linkMessage (s : State) (k : TxKind) (f : Option FnId) : (State.linkMessage s k f).settled = s.settled := by
  unfold State.linkMessage
  (try dsimp only); (repeat' split) <;> first | (simp; done) | rfl

@[simp] theorem settled_linkCor (s : State) (e : CorErr) : (State.linkCor s e).settled = s.settled := by
  unfold State.linkCor
  dsimp only
  rw [settled_linkMessage, settled_setFns]

@[simp] theorem settled_linkUnc (s : State) (e : UncErr) : (State.linkUnc s e).settled = s.settled := by
  unfold State.linkUnc
  dsimp only
  rw [settled_linkMessage, settled_linkMessage, settled_setFns]

@[simp] theorem settled_logEvent (s : State) (f : FnId) : (State.logEvent s f).settled = s.settled := by
  simp [State.logEvent]

@[simp] theorem settled_setStatus (s : State) (f : FnId) (bit : Nat) : (State.setStatus s f bit).settled = s.settled := by
  unfold State.setStatus; split <;> simp

@[simp] theorem settled_enterSampling (s : State) (n : HearthId) : (State.enterSampling s n).settled = s.settled := by
  rfl

@[simp] theorem settled_powerOn (s : State) : (s.powerOn).settled = s.settled := 
  settled_forHearths _ (fun n s => by split <;> simp) s

@[simp] theorem settled_tick (s : State) : (s.tick).settled = s.settled := by
  unfold State.tick; split
  · exact settled_powerOn _
  · rfl

@[simp] theorem settled_advanceTo (s : State) (t : Tally) : (State.advanceTo s t).settled = s.settled := by
  unfold State.advanceTo; split
  · rfl
  · dsimp only; split
    · exact settled_tick s
    · rw [settled_tick, settled_setTally]; exact settled_tick s

@[simp] theorem settled_advanceTS (s : State) (n : Nat) : (State.advanceTS s n).settled = s.settled := by
  simp [State.advanceTS]

@[simp] theorem settled_writeFault (s : State) (e : FaultEntry) : (State.writeFault s e).settled = s.settled := by
  rfl

@[simp] theorem settled_removePieces (s : State) (q : Piece → Bool) : (State.removePieces s q).settled = s.settled := by
  rfl

@[simp] theorem settled_dropStored (s : State) (q : Origin → Bool) : (State.dropStored s q).settled = s.settled := by
  unfold State.dropStored
  rfl

@[simp] theorem settled_freeTags (s : State) : (State.freeTags s).settled = s.settled := by
  rfl

@[simp] theorem settled_push (s : State) (p : Piece) : (State.push s p).settled = s.settled := by
  rfl

@[simp] theorem settled_endPosted (s : State) (n : HearthId) (serial : Nat) : (State.endPosted s n serial).settled = s.settled := by
  rfl

@[simp] theorem settled_answer (s : State) (n : HearthId) (r : Resp) : (State.answer s n r).settled = s.settled := by
  unfold State.answer
  (try dsimp only); (repeat' split) <;> first | (simp; done) | rfl

@[simp] theorem settled_damp (s : State) (n : HearthId) : (State.damp s n).settled = s.settled := by
  unfold State.damp; split <;> simp

@[simp] theorem settled_driveRead (s : State) (n : HearthId) (got : List (Nat × Byte)) : (State.driveRead s n got).settled = s.settled := by
  unfold State.driveRead; split <;> simp

@[simp] theorem settled_fetchRead (s : State) (n : HearthId) (serial : Nat) (got : List (Nat × Byte)) : (State.fetchRead s n serial got).settled = s.settled := by
  unfold State.fetchRead
  (try dsimp only); (repeat' split) <;> first | rfl | (simp; done)

@[simp] theorem settled_farSide (s : State) (n : HearthId) (ev : Bool) : (State.farSide s n ev).settled = s.settled := by
  unfold State.farSide; (repeat' split) <;> simp

@[simp] theorem settled_dropUnsent (s : State) (n : HearthId) (serial : Nat) : (State.dropUnsent s n serial).settled = s.settled := by
  rfl

@[simp] theorem settled_endCycle (s : State) (n : HearthId) : (State.endCycle s n).settled = s.settled := by
  unfold State.endCycle; (repeat' split) <;> simp

@[simp] theorem settled_dropCycleWork (s : State) (n : HearthId) (c : Cycle) (release : Bool) : (State.dropCycleWork s n c release).settled = s.settled := by
  unfold State.dropCycleWork
  simp

@[simp] theorem settled_expireCycle (s : State) (n : HearthId) (release : Bool) : (State.expireCycle s n release).settled = s.settled := by
  unfold State.expireCycle
  (try dsimp only); (repeat' split) <;> first | (simp; done) | rfl

@[simp] theorem settled_completeCycle (s : State) (n : HearthId) (serial : Nat) (got : List (Nat × Byte)) (status : CplStatus) : (State.completeCycle s n serial got status).settled = s.settled := by
  unfold State.completeCycle; (repeat' split) <;> simp

@[simp] theorem settled_tapPulse (s : State) (p : PortId) : (State.tapPulse s p).settled = s.settled := by
  unfold State.tapPulse; split <;> simp

@[simp] theorem settled_countFrame (s : State) (p : Piece) : (s.countFrame p).settled = s.settled := by
  unfold State.countFrame
  split
  · simp only []; split
    · split
      · rfl
      · exact (settled_presentSlot _ _ _ _ _ _).trans ((settled_tapPulse _ _).trans (settled_tapPulse _ _))
    · rfl
  · rfl

@[simp] theorem settled_syncWire (s : State) (f : FnId) : (s.syncWire f).settled = s.settled := by
  unfold State.syncWire
  simp only []; split
  · rfl
  · split
    · exact settled_sendTlp _ _
    · rfl

@[simp] theorem settled_syncWires (s : State) : (s.syncWires).settled = s.settled := settled_forList _ _ (fun f s => settled_syncWire s f) s

@[simp] theorem settled_pushChange (s : State) (c : Change) (t : Tally) : (State.pushChange s c t).settled = s.settled := by
  unfold State.pushChange
  (try dsimp only); (repeat' split) <;> first | (simp; done) | rfl

@[simp] theorem settled_pmeFor (s : State) (k : Sink) : (State.pmeFor s k).settled = s.settled := by
  unfold State.pmeFor
  (try dsimp only); (repeat' split) <;> first | (simp; done) | rfl

@[simp] theorem settled_setSlotSource (s : State) (h : Fin 64) (code : Option Nat) : (State.setSlotSource s h code).settled = s.settled := by
  unfold State.setSlotSource
  rfl

@[simp] theorem settled_applyChange (s : State) (c : Change) : (s.applyChange c).settled = s.settled := by
  unfold State.applyChange
  split
  · rfl
  · cases c.slotCode <;> simp only [] <;> (repeat' split) <;> first | rfl | exact settled_pmeFor _ _

@[simp] theorem settled_emit (s : State) (f : FlueId) (b : FlueBlk) : (State.emit s f b).settled = s.settled := by
  simp [State.emit]

@[simp] theorem settled_flushStore (s : State) : (State.flushStore s).settled = s.settled := by
  unfold State.flushStore
  exact settled_forList _ _ (fun _ _ => by (try dsimp only); (repeat' split) <;> first | rfl | (simp; done)) _

@[simp] theorem settled_sendOver (s : State) (f : FlueId) (p : Piece) : (State.sendOver s f p).settled = s.settled := by
  unfold State.sendOver
  exact settled_forList _ _ (fun _ _ => by (try dsimp only); (repeat' split) <;> first | rfl | (simp; done)) _

@[simp] theorem settled_moveTag (s : State) (f : FlueId) (x : Stored) : (State.moveTag s f x).1.settled = s.settled := by
  unfold State.moveTag
  (repeat' split) <;> simp

@[simp] theorem settled_moveStore (s : State) (f : FlueId) (q : Stored → Bool) (x0 : List Stored) : (State.moveStore s f q x0).1.settled = s.settled := by
  induction x0 generalizing s with
  | nil => rfl
  | cons x rest ih =>
    unfold State.moveStore
    split
    · dsimp only; rw [ih, settled_moveTag]
    · exact ih s

@[simp] theorem settled_resend (s : State) (q : Fin 4) (c : Cls) : (State.resend s q c).settled = s.settled := by
  unfold State.resend
  dsimp only; split
  · rfl
  · rw [settled_flushStore, settled_setChim, settled_moveStore]

@[simp] theorem settled_control (s : State) (q : Fin 4) (b : FlueBlk) : (State.control s q b).settled = s.settled := by
  unfold State.control
  (try dsimp only); (repeat' split) <;> first | (simp; done) | rfl

@[simp] theorem settled_payOwed (s : State) : (State.payOwed s).settled = s.settled := by
  unfold State.payOwed
  exact settled_forList _ _ (fun _ _ => by (try dsimp only); (repeat' split) <;> first | rfl | (simp; done)) _

@[simp] theorem settled_sendBackoff (s : State) (q : Fin 4) (port : PortId) (tag : Nat) : (State.sendBackoff s q port tag).settled = s.settled := by
  unfold State.sendBackoff
  (try dsimp only); (repeat' split) <;> first | rfl | (simp; done)

@[simp] theorem settled_receipt (s : State) (src : Fin 4) : (State.receipt s src).settled = s.settled := by
  unfold State.receipt
  simp

@[simp] theorem settled_performedFrom (s : State) (p : Fin 4) (num : BitVec 16) : (s.performedFrom p num).settled = s.settled := by
  unfold State.performedFrom
  simp only [settled_receipt, settled_setChim]

@[simp] theorem settled_modReq (s : State) (id : Nat) (f : HostReq → HostReq) : (State.modReq s id f).settled = s.settled := by
  rfl

@[simp] theorem settled_releaseCredits (s : State) (id : Nat) : (State.releaseCredits s id).settled = s.settled := by
  unfold State.releaseCredits; (repeat' split) <;> rfl

@[simp] theorem settled_sendCpl (s : State) (r : HostReq) (status : CplStatus) (bytes : List (Nat × Byte)) (off : Nat) (len : Nat) : (State.sendCpl s r status bytes off len).settled = s.settled := by
  unfold State.sendCpl; (repeat' split) <;> simp

@[simp] theorem settled_closeReq (s : State) (id : Nat) : (s.closeReq id).settled = s.settled := by
  unfold State.closeReq; exact settled_releaseCredits s id

@[simp] theorem settled_sendBlocks (k : Nat) (s : State) (id : Nat) : (State.sendBlocks k s id).settled = s.settled := by
  induction k generalizing s with
  | zero => rfl
  | succ k ih =>
    unfold State.sendBlocks
    split
    · rfl
    · split
      · simp only []; split
        · rw [ih]; simp
        · rfl
      · rfl

@[simp] theorem settled_finishReq (s : State) (id : Nat) : (State.finishReq s id).settled = s.settled := by
  unfold State.finishReq; (repeat' split) <;> simp

@[simp] theorem settled_hostDone (s : State) (id : Nat) (got : List (Nat × Byte)) (pieces : Nat) : (s.hostDone id got pieces).settled = s.settled := by
  unfold State.hostDone
  split
  · rfl
  · simp only []; split <;> simp

@[simp] theorem settled_refuseReq (s : State) (r : HostReq) (status : CplStatus) (e : Option UncErr) : (State.refuseReq s r status e).settled = s.settled := by
  unfold State.refuseReq; (repeat' split) <;> simp

@[simp] theorem settled_dropReqWork (s : State) (id : Nat) : (State.dropReqWork s id).settled = s.settled := by
  unfold State.dropReqWork
  rfl

@[simp] theorem settled_endRead (k : Nat) (s : State) (x2 : HostReq) : (State.endRead k s x2).settled = s.settled := by
  induction k generalizing s x2 with
  | zero => rfl
  | succ k ih => unfold State.endRead; dsimp only; (repeat' split) <;> simp [ih]

@[simp] theorem settled_endWrite (s : State) (r : HostReq) (modes : List (Bool × Bool)) (ev : Bool) : (State.endWrite s r modes ev).settled = s.settled := by
  unfold State.endWrite
  exact settled_forList _ _ (fun _ _ => by (try dsimp only); (repeat' split) <;> first | rfl | (simp; done)) _

@[simp] theorem settled_nextTick (s : State) (id : Nat) : (State.nextTick s id).settled = s.settled := by
  unfold State.nextTick
  rfl

@[simp] theorem settled_endReq (s : State) (id : Nat) (ev : Bool) (struck : Option (Bool × Bool)) : (State.endReq s id ev struck).settled = s.settled := by
  unfold State.endReq
  (try dsimp only); (repeat' split) <;> first | rfl | (simp; done)

@[simp] theorem settled_missReq (s : State) (id : Nat) : (State.missReq s id).settled = s.settled := by
  unfold State.missReq; split <;> simp

@[simp] theorem settled_remoteReply (s : State) (src : PortId) (q : Fin 4) (port : PortId) (tag : Nat) (key : BitVec 4) (got : List (Nat × Byte)) (status : CplStatus) : (State.remoteReply s src q port tag key got status).settled = s.settled := by
  unfold State.remoteReply
  simp

@[simp] theorem settled_failPiece (s : State) (p : Piece) (ev : Bool) (got : List (Nat × Byte)) : (State.failPiece s p ev got).settled = s.settled := by
  unfold State.failPiece
  (try dsimp only); (repeat' split) <;> first | (simp; done) | rfl

@[simp] theorem settled_donePiece (s : State) (p : Piece) (got : List (Nat × Byte)) : (State.donePiece s p got).settled = s.settled := by
  unfold State.donePiece
  (try dsimp only); (repeat' split) <;> first | rfl | (simp; done)

@[simp] theorem settled_endLock (s : State) (n : HearthId) (rose : Bool) : (State.endLock s n rose).settled = s.settled := by
  unfold State.endLock; split <;> rfl

@[simp] theorem settled_contest (s : State) (sc : LockScope) : (State.contest s sc).settled = s.settled := by
  unfold State.contest; split <;> simp

@[simp] theorem settled_endFarLock (s : State) (m : HearthId) (mask : Bool) : (State.endFarLock s m mask).settled = s.settled := by
  unfold State.endFarLock
  (try dsimp only); (repeat' split) <;> first | (simp; done) | rfl

@[simp] theorem settled_takeFarLock (s : State) (p : Piece) (m : HearthId) : (State.takeFarLock s p m).settled = s.settled := by
  unfold State.takeFarLock
  (try dsimp only); (repeat' split) <;> first | (simp; done) | rfl

@[simp] theorem settled_contestBus (m : HearthId) (s : State) : (State.contestBus m s).settled = s.settled := by
  unfold State.contestBus
  (try dsimp only); (repeat' split) <;> first | rfl | (simp; done)

@[simp] theorem settled_wakePath (s : State) (path : List DomainId) : (s.wakePath path).settled = s.settled := 
  settled_forList _ _ (fun d s => by split <;> simp) s

@[simp] theorem settled_yieldWaiting (s : State) (n : HearthId) : (State.yieldWaiting s n).settled = s.settled := by
  unfold State.yieldWaiting
  exact settled_forList _ _ (fun _ _ => by (try dsimp only); (repeat' split) <;> first | rfl | (simp; done)) _

@[simp] theorem settled_admitCycle (s : State) (p : Piece) : (State.admitCycle s p).settled = s.settled := by
  unfold State.admitCycle
  (try dsimp only); (repeat' split) <;> first | rfl | (simp; done)

@[simp] theorem settled_startWork (s : State) (w : Work) (t : Tally) : (State.startWork s w t).settled = s.settled := by
  unfold State.startWork
  (try dsimp only); (repeat' split) <;> first | (simp; done) | rfl

@[simp] theorem settled_startOrWait (s : State) (it : Item) : (State.startOrWait s it).settled = s.settled := by
  unfold State.startOrWait
  (try dsimp only); (repeat' split) <;> first | (simp; done) | rfl

@[simp] theorem settled_cyclePaid (s : State) (x0 : Work) : (State.cyclePaid s x0).settled = s.settled := by
  unfold State.cyclePaid
  (try dsimp only); (repeat' split) <;> first | (simp; done) | rfl

@[simp] theorem settled_chargeItem (s : State) (it : Item) : (State.chargeItem s it).settled = s.settled := by
  unfold State.chargeItem
  rfl

@[simp] theorem settled_admitOne (s : State) (it : Item) : (State.admitOne s it).settled = s.settled := by
  unfold State.admitOne
  simp

@[simp] theorem settled_hold (s : State) : (State.hold s).settled = s.settled := by
  rfl

@[simp] theorem settled_stopAt (s : State) (b : Bar) : (s.stopAt b).settled = s.settled := by
  cases b <;> rfl

@[simp] theorem settled_admitService (k : Nat) (s : State) : (State.admitService k s).1.settled = s.settled := by
  induction k generalizing s with
  | zero => rfl
  | succ k ih =>
    unfold State.admitService
    (repeat' split) <;> simp [ih] <;> rfl

@[simp] theorem settled_admitHost (k : Nat) (s : State) : (State.admitHost k s).1.settled = s.settled := by
  induction k generalizing s with
  | zero => rfl
  | succ k ih =>
    unfold State.admitHost
    (repeat' split) <;> simp [ih] <;> rfl

@[simp] theorem settled_admitSlots (k : Nat) (s : State) : (State.admitSlots k s).1.settled = s.settled := by
  induction k generalizing s with
  | zero => rfl
  | succ k ih =>
    unfold State.admitSlots
    (repeat' split)
    · rfl
    · rfl
    · exact settled_stopAt _ _
    · exact (ih _).trans (settled_admitOne _ _)

@[simp] theorem settled_refillIfDue (s : State) : (State.refillIfDue s).settled = s.settled := by
  unfold State.refillIfDue; split <;> rfl

@[simp] theorem settled_admitTick (s : State) : (State.admitTick s).1.settled = s.settled := by
  unfold State.admitTick
  (try dsimp only); (repeat' split) <;> first | rfl | (simp; done)

@[simp] theorem settled_admitAll (s : State) : (State.admitAll s).settled = s.settled := by
  unfold State.admitAll
  simp

@[simp] theorem settled_askReader (s : State) : (State.askReader s).settled = s.settled := by
  unfold State.askReader; (repeat' split) <;> rfl

@[simp] theorem settled_ltrAtWindow (s : State) : (State.ltrAtWindow s).settled = s.settled := by
  unfold State.ltrAtWindow; (repeat' split) <;> rfl

@[simp] theorem settled_openLedger (s : State) : (State.openLedger s).settled = s.settled := by
  unfold State.openLedger; simp only []; (repeat' split) <;> rfl

@[simp] theorem settled_nextWindow (s : State) : (State.nextWindow s).settled = s.settled := by
  rfl

@[simp] theorem settled_snapshot (s : State) : (State.snapshot s).settled = s.settled := by
  unfold State.snapshot
  rfl

@[simp] theorem settled_startReady (s : State) : (s.startReady).settled = s.settled := by
  unfold State.startReady; exact settled_forList _ _ (fun it s => settled_startWork s _ _) _

@[simp] theorem settled_wakeBellows (s : State) : (State.wakeBellows s).settled = s.settled := by
  unfold State.wakeBellows
  (try dsimp only); (repeat' split) <;> first | rfl | (simp; done)

@[simp] theorem settled_laneOn (s : State) (l : LaneId) : (State.laneOn s l).settled = s.settled := by
  unfold State.laneOn
  (try dsimp only); (repeat' split) <;> first | rfl | (simp; done)

@[simp] theorem settled_startTests (s : State) : (State.startTests s).settled = s.settled := by
  exact settled_setTests s _

@[simp] theorem settled_domainUp (s : State) (d : DomainId) : (State.domainUp s d).settled = s.settled := by
  have h : ({ (s.setDom d (.on s.now)).woken with upNow := d :: s.upNow } : State).settled = s.settled := settled_setDom s d (.on s.now)
  unfold State.domainUp
  dsimp only
  rw [settled_startTests, settled_startReady]
  split
  · rw [settled_laneOn]; exact h
  · exact h

@[simp] theorem settled_domDown (s : State) (d : DomainId) : (State.domDown s d).settled = s.settled := by
  unfold State.domDown; (repeat' split) <;> rfl

@[simp] theorem settled_bellowsNeed (s : State) : (State.bellowsNeed s).settled = s.settled := by
  unfold State.bellowsNeed
  (try dsimp only); (repeat' split) <;> first | rfl | (simp; done)

@[simp] theorem settled_presentArrival (s : State) (f : FlueId) (b : PieceBlk) (path : List DomainId) (cost : Nat) (w : Work) : (State.presentArrival s f b path cost w).settled = s.settled := by
  unfold State.presentArrival; split <;> simp

@[simp] theorem settled_refuseArrival (s : State) (b : PieceBlk) (st : CplStatus) : (State.refuseArrival s b st).settled = s.settled := by
  unfold State.refuseArrival
  (try dsimp only); (repeat' split) <;> first | (simp; done) | rfl

@[simp] theorem settled_farArrival (s : State) (f : FlueId) (b : PieceBlk) : (State.farArrival s f b).settled = s.settled := by
  unfold State.farArrival
  (try dsimp only); (repeat' split) <;> first | rfl | (simp; done)

@[simp] theorem settled_backOff (s : State) (b : PieceBlk) : (State.backOff s b).settled = s.settled := by
  unfold State.backOff
  simp

@[simp] theorem settled_faultArrival (s : State) (b : PieceBlk) (m : HearthId) (a : Nat) (key : BitVec 4) : (State.faultArrival s b m a key).settled = s.settled := by
  unfold State.faultArrival; (repeat' split) <;> simp

@[simp] theorem settled_decodeArrival (s : State) (f : FlueId) (b : PieceBlk) (m : HearthId) : (State.decodeArrival s f b m).settled = s.settled := by
  unfold State.decodeArrival
  (try dsimp only); (repeat' split) <;> first | (simp; done) | rfl

@[simp] theorem settled_landHearth (s : State) (f : FlueId) (b : PieceBlk) (m : HearthId) : (State.landHearth s f b m).settled = s.settled := by
  unfold State.landHearth
  (try dsimp only); (repeat' split) <;> first | rfl | (simp; done)

@[simp] theorem settled_landHost (s : State) (f : FlueId) (b : PieceBlk) : (State.landHost s f b).settled = s.settled := by
  unfold State.landHost
  (try dsimp only); (repeat' split) <;> first | rfl | (simp; done)

@[simp] theorem settled_landWaiting (s : State) : (State.landWaiting s).settled = s.settled := by
  unfold State.landWaiting
  dsimp only; split
  · rfl
  · exact settled_forList _ _ (fun x s => settled_landHost s _ _) _

@[simp] theorem settled_landChange (s : State) (f : FlueId) (b : PieceBlk) : (State.landChange s f b).settled = s.settled := by
  unfold State.landChange; simp only []; (repeat' split) <;> simp

@[simp] theorem settled_dropTag (s : State) (g : FlueId) (tag : Nat) (o : Origin) : (State.dropTag s g tag o).settled = s.settled := by
  simp [State.dropTag]

@[simp] theorem settled_landCompletion (s : State) (f : FlueId) (b : PieceBlk) : (State.landCompletion s f b).settled = s.settled := by
  unfold State.landCompletion; split <;> simp

@[simp] theorem settled_landTransit (s : State) (f : FlueId) (b : PieceBlk) : (State.landTransit s f b).settled = s.settled := by
  simp [State.landTransit]

@[simp] theorem settled_land (s : State) (f : FlueId) (b : PieceBlk) : (State.land s f b).settled = s.settled := by
  unfold State.land
  (try dsimp only); (repeat' split) <;> first | rfl | (simp; done)

@[simp] theorem settled_releaseArrivals (s : State) (n : HearthId) : (State.releaseArrivals s n).settled = s.settled := by
  unfold State.releaseArrivals
  split
  · exact settled_forList _ _ (fun x s => settled_landHearth s _ _ _) _
  · rfl

@[simp] theorem settled_landGated (s : State) (f : FlueId) (b : PieceBlk) : (State.landGated s f b).settled = s.settled := by
  unfold State.landGated
  (try dsimp only); (repeat' split) <;> first | rfl | (simp; done)

@[simp] theorem settled_landAll (s : State) : (State.landAll s).settled = s.settled := by
  unfold State.landAll
  exact settled_forList _ _ (fun _ _ => by (try dsimp only); (repeat' split) <;> first | rfl | (simp; done)) _

@[simp] theorem settled_presentPieces (s : State) (l : List (Piece × Nat)) : (s.presentPieces l).settled = s.settled := 
  settled_forList _ _ (fun p s => settled_presentHost s _ _ _ _) s

@[simp] theorem settled_issueWith (s : State) (id : Nat) (l : List (Piece × Nat)) : (State.issueWith s id l).settled = s.settled := by
  simp [State.issueWith]

@[simp] theorem settled_tryIssue (s : State) (id : Nat) : (State.tryIssue s id).settled = s.settled := by
  unfold State.tryIssue; simp only []; (repeat' split) <;> simp

@[simp] theorem settled_issueWaiting (s : State) : (s.issueWaiting).settled = s.settled := settled_forList _ _ (fun id s => settled_tryIssue s id) s

@[simp] theorem settled_decoded (s : State) (id : Nat) (ps : List (DWin × Nat × Nat)) (pooled : Bool) (from' : Tally) : (State.decoded s id ps pooled from').settled = s.settled := by
  unfold State.decoded
  simp

@[simp] theorem settled_decodeReq (s : State) (id : Nat) : (State.decodeReq s id).settled = s.settled := by
  unfold State.decodeReq
  (try dsimp only); (repeat' split) <;> first | rfl | (simp; done)

@[simp] theorem settled_placeReq (s : State) (id : Nat) (n : HearthId) : (State.placeReq s id n).settled = s.settled := by
  unfold State.placeReq; (repeat' split) <;> simp

@[simp] theorem settled_releaseHeld (s : State) (n : HearthId) : (s.releaseHeld n).settled = s.settled := by
  unfold State.releaseHeld
  rw [settled_releaseArrivals]; exact settled_forList _ _ (fun id s => settled_placeReq s id n) s

theorem settled_arrive (s : State) (fn : FnId) (stone read : Bool) (q : MemReq) (serve : Nat → State → State)
    (h : ∀ id s, (serve id s).settled = s.settled) : (s.arrive fn stone read q serve).settled = s.settled := by
  unfold State.arrive
  simp only []; (repeat' split) <;> simp [h] <;> rfl

@[simp] theorem settled_serveBar0 (h : Fin 64) (id : Nat) (s : State) : (State.serveBar0 h id s).settled = s.settled := by
  unfold State.serveBar0
  (try dsimp only); (repeat' split) <;> first | rfl | (simp; done)

@[simp] theorem settled_serveBar2 (id : Nat) (s : State) : (State.serveBar2 id s).settled = s.settled := by
  unfold State.serveBar2; simp only []; (repeat' split) <;> simp

@[simp] theorem settled_noFunction (s : State) (read : Bool) (q : MemReq) : (s.noFunction read q).settled = s.settled := by
  unfold State.noFunction
  simp only [settled_closeReq, settled_refuseReq]; rfl

@[simp] theorem settled_bar0 (s : State) (h : Fin 64) (read : Bool) (q : MemReq) :
    (s.bar0 h read q).settled = s.settled := by
  unfold State.bar0
  (repeat' split)
  · exact settled_arrive _ _ _ _ _ _ (fun id s => settled_serveBar0 h id s)
  · simp
  · rfl

@[simp] theorem settled_bar2 (s : State) (read : Bool) (q : MemReq) : (s.bar2 read q).settled = s.settled := by
  unfold State.bar2
  split
  · exact settled_arrive _ _ _ _ _ _ (fun id s => settled_serveBar2 id s)
  · rfl

@[simp] theorem settled_presentChange (s : State) (n : HearthId) (r : Route) (input : Fin 9) (entry : BitVec 8) (code : Option Nat) (level : Bool) : (State.presentChange s n r input entry code level).settled = s.settled := by
  unfold State.presentChange
  (try dsimp only); (repeat' split) <;> first | rfl | (simp; done)

@[simp] theorem settled_presentSlotChange (s : State) (n : HearthId) (code : Option Nat) (level : Bool) : (State.presentSlotChange s n code level).settled = s.settled := by
  unfold State.presentSlotChange
  rfl

@[simp] theorem settled_slotEvent (s : State) (n : HearthId) (x : Slot) : (State.slotEvent s n x).settled = s.settled := by
  unfold State.slotEvent
  (try dsimp only); (repeat' split) <;> first | rfl | (simp; done)

@[simp] theorem settled_clearSlotEvent (s : State) (h : Fin 64) : (State.clearSlotEvent s h).settled = s.settled := by
  unfold State.clearSlotEvent
  (try dsimp only); (repeat' split) <;> first | rfl | (simp; done)

@[simp] theorem settled_contribute (s : State) (n : HearthId) : (State.contribute s n).settled = s.settled := by
  unfold State.contribute
  exact settled_forList _ _ (fun _ _ => by (try dsimp only); (repeat' split) <;> first | rfl | (simp; done)) _

@[simp] theorem settled_deassertInputs (s : State) (n : HearthId) : (State.deassertInputs s n).settled = s.settled := by
  unfold State.deassertInputs
  dsimp only
  rw [settled_forList _ _ (fun c s => settled_presentChange s _ _ _ _ _ _), settled_forList _ _ (fun x s => settled_presentChange s _ _ _ _ _ _),
    settled_dropItems]

@[simp] theorem settled_padsOn (s : State) (n : HearthId) : (State.padsOn s n).settled = s.settled := by
  unfold State.padsOn; split <;> simp

@[simp] theorem settled_padsOff (s : State) (n : HearthId) : (State.padsOff s n).settled = s.settled := by
  unfold State.padsOff
  rfl

@[simp] theorem settled_failBus (s : State) (n : HearthId) (ev : Bool) : (State.failBus s n ev).settled = s.settled := by
  unfold State.failBus
  dsimp only
  rw [settled_freeTags, settled_forList _ _ (fun (p : Piece × List (Nat × Byte)) s => settled_failPiece s p.1 ev p.2), settled_modHearth, settled_removePieces]
  exact settled_forList _ _ (fun r s => settled_endReq s _ _ _) s

@[simp] theorem settled_failBlocked (s : State) (n : HearthId) : (s.failBlocked n).settled = s.settled := 
  settled_forHearths _ (fun k s => by split <;> (try split) <;> simp) s

@[simp] theorem settled_readerFree (s : State) : (State.readerFree s).settled = s.settled := by
  unfold State.readerFree
  rfl

@[simp] theorem settled_dropReading (s0 : State) (n : HearthId) : (State.dropReading s0 n).settled = s0.settled := by
  have h : (match s0.straps.job with
      | some j => if j.hearth = n then s0.readerFree else s0
      | none => s0 : State).settled = s0.settled := by (repeat' split) <;> simp
  unfold State.dropReading
  dsimp only
  rw [settled_setStraps, settled_modHearth, settled_dropAdmitted, settled_dropItems]
  exact h

@[simp] theorem settled_endHearthWork (s : State) (n : HearthId) : (State.endHearthWork s n).settled = s.settled := by
  unfold State.endHearthWork
  simp

@[simp] theorem settled_collapseActions (s : State) (n : HearthId) : (State.collapseActions s n).settled = s.settled := by
  unfold State.collapseActions
  dsimp only
  rw [settled_padsOff, settled_modHearth, settled_dropReading, settled_failBlocked, settled_endHearthWork, settled_deassertInputs]

@[simp] theorem settled_enter (s : State) (n : HearthId) (x : Slot) (event : Bool) : (State.enter s n x event).settled = s.settled := by
  unfold State.enter; split <;> simp

@[simp] theorem settled_strapFault (s : State) (n : HearthId) : (State.strapFault s n).settled = s.settled := by
  simp [State.strapFault]

@[simp] theorem settled_enterService (s : State) (n : HearthId) : (State.enterService s n).settled = s.settled := by
  unfold State.enterService
  simp

@[simp] theorem settled_supplyFall (s : State) (n : HearthId) : (State.supplyFall s n).settled = s.settled := by
  unfold State.supplyFall; simp only []; (repeat' split) <;> simp

@[simp] theorem settled_slotEdge (s : State) (n : HearthId) : (State.slotEdge s n).settled = s.settled := by
  unfold State.slotEdge
  (try dsimp only); (repeat' split) <;> first | rfl | (simp; done)

@[simp] theorem settled_goodRise (s : State) (n : HearthId) : (State.goodRise s n).settled = s.settled := by
  unfold State.goodRise
  (try dsimp only); (repeat' split) <;> first | rfl | (simp; done)

@[simp] theorem settled_presenceLow (s : State) (n : HearthId) : (State.presenceLow s n).settled = s.settled := by
  unfold State.presenceLow; (repeat' split) <;> simp

@[simp] theorem settled_presenceHigh (s : State) (n : HearthId) : (State.presenceHigh s n).settled = s.settled := by
  unfold State.presenceHigh; split <;> simp

@[simp] theorem settled_missSameTick (s : State) (n : HearthId) : (State.missSameTick s n).settled = s.settled := by
  unfold State.missSameTick
  exact settled_forList _ _ (fun _ _ => by (try dsimp only); (repeat' split) <;> first | rfl | (simp; done)) _

@[simp] theorem settled_press (s : State) (n : HearthId) : (State.press s n).settled = s.settled := by
  unfold State.press; split <;> simp

@[simp] theorem settled_drainClose (s : State) (n : HearthId) : (State.drainClose s n).settled = s.settled := by
  rfl

@[simp] theorem settled_expireWork (s : State) (n : HearthId) : (State.expireWork s n).settled = s.settled := by
  unfold State.expireWork
  simp

@[simp] theorem settled_dampBlocked (s : State) (n : HearthId) : (State.dampBlocked s n).settled = s.settled := by
  exact settled_forHearths _ (fun k s => by (repeat' split) <;> simp) s

@[simp] theorem settled_sampleHearthGroup (s : State) (n : HearthId) (second : Bool) (readings : List Reading) : (State.sampleHearthGroup s n second readings).settled = s.settled := by
  unfold State.sampleHearthGroup
  rfl

@[simp] theorem settled_halfRead (s : State) (readings : List Reading) : (State.halfRead s readings).settled = s.settled := by
  unfold State.halfRead
  (repeat' split)
  · exact (settled_sampleHearthGroup _ _ _ _).trans (settled_advanceTo _ _)
  · rfl
  · rfl

@[simp] theorem settled_readHearth (s : State) (n : HearthId) (readings : List Reading) : (State.readHearth s n readings).settled = s.settled := by
  rfl

@[simp] theorem settled_moveSources (s : State) (n : HearthId) (new : HearthCfg) : (State.moveSources s n new).settled = s.settled := by
  have h : ∀ f : Fin 8 → State → State, (∀ q t, (f q t).settled = t.settled) → (forList (List.finRange 8) f s).settled = s.settled :=
    fun f hf => settled_forList _ f hf s
  unfold State.moveSources
  dsimp only
  (repeat' split)
  · rw [settled_presentSlotChange]; exact h _ fun q t => by split <;> simp
  · rw [settled_clearSlotEvent]; exact h _ fun q t => by split <;> simp
  · exact h _ fun q t => by split <;> simp

@[simp] theorem settled_putReady (s : State) (n : HearthId) : (State.putReady s n).settled = s.settled := by
  unfold State.putReady; split <;> simp

@[simp] theorem settled_hearthReset (s : State) (n : HearthId) : (State.hearthReset s n).settled = s.settled := by
  unfold State.hearthReset
  simp

@[simp] theorem settled_pay (s : State) (n : HearthId) : (s.pay n).settled = s.settled := by
  unfold State.pay
  split
  · rfl
  · rw [settled_presentSlot, settled_modHearth]; split <;> rfl

@[simp] theorem settled_breakLoop (s : State) (n : HearthId) : (State.breakLoop s n).settled = s.settled := by
  unfold State.breakLoop; (repeat' split) <;> simp

@[simp] theorem settled_latch (s : State) (n : HearthId) (c : Cycle) : (State.latch s n c).settled = s.settled := by
  rfl

@[simp] theorem settled_takeLock (s : State) (n : HearthId) (c : Cycle) : (State.takeLock s n c).settled = s.settled := by
  unfold State.takeLock; split <;> simp

@[simp] theorem settled_runCycle (s : State) (n : HearthId) (c : Cycle) : (State.runCycle s n c).settled = s.settled := by
  unfold State.runCycle; (repeat' split) <;> simp

@[simp] theorem settled_lockLevel (s : State) (n : HearthId) (low : Bool) : (State.lockLevel s n low).settled = s.settled := by
  unfold State.lockLevel; split <;> simp

@[simp] theorem settled_dropWait (s : State) (n : HearthId) : (State.dropWait s n).settled = s.settled := by
  unfold State.dropWait
  rfl

@[simp] theorem settled_driveNext (s : State) (n : HearthId) : (State.driveNext s n).settled = s.settled := by
  unfold State.driveNext; simp only []; (repeat' split) <;> simp

@[simp] theorem settled_unblock (s : State) (m : HearthId) : (s.unblock m).settled = s.settled := 
  settled_forHearths _ (fun k s => by split <;> simp) s

@[simp] theorem settled_popJob (s : State) (n : HearthId) : (State.popJob s n).settled = s.settled := by
  rfl

@[simp] theorem settled_farWriteDone (s : State) (m : HearthId) (p : Piece) : (State.farWriteDone s m p).settled = s.settled := by
  unfold State.farWriteDone
  (try dsimp only); (repeat' split) <;> first | (simp; done) | rfl

@[simp] theorem settled_lockedWriteDone (s : State) (sc : LockScope) (p : Piece) : (State.lockedWriteDone s sc p).settled = s.settled := by
  unfold State.lockedWriteDone; simp only []; (repeat' split) <;> simp

@[simp] theorem settled_restartWatch (s : State) (o : Origin) : (State.restartWatch s o).settled = s.settled := by
  unfold State.restartWatch; split <;> simp

@[simp] theorem settled_jobAck (s : State) (n : HearthId) (data : BitVec 32) : (State.jobAck s n data).settled = s.settled := by
  unfold State.jobAck
  (try dsimp only); (repeat' split) <;> first | rfl | (simp; done)

@[simp] theorem settled_errorReply (s : State) (p : Piece) : (State.errorReply s p).settled = s.settled := by
  unfold State.errorReply
  (try dsimp only); (repeat' split) <;> first | rfl | (simp; done)

@[simp] theorem settled_jobFail (s : State) (n : HearthId) (ev : Bool) : (State.jobFail s n ev).settled = s.settled := by
  unfold State.jobFail
  (try dsimp only); (repeat' split) <;> first | rfl | (simp; done)

@[simp] theorem settled_goOn (s : State) (n : HearthId) : (State.goOn s n).settled = s.settled := by
  unfold State.goOn; simp only []; (repeat' split) <;> simp

@[simp] theorem settled_failFirst (s : State) (n : HearthId) : (s.failFirst n).settled = s.settled := by
  unfold State.failFirst
  (repeat' split) <;> first | rfl | simp

@[simp] theorem settled_recheck (n : HearthId) (s : State) : (State.recheck n s).settled = s.settled := by
  unfold State.recheck
  (try dsimp only); (repeat' split) <;> first | rfl | (simp; done)

@[simp] theorem settled_settleBus (n : HearthId) (s : State) : (State.settleBus n s).settled = s.settled := by
  unfold State.settleBus
  (try dsimp only); (repeat' split) <;> first | rfl | (simp; done)

@[simp] theorem settled_coreTick (s : State) : (State.coreTick s).settled = s.settled := by
  unfold State.coreTick
  rw [settled_issueWaiting, settled_landWaiting]
  exact settled_forHearths _ (fun n s => by rw [settled_settleBus, settled_recheck]) s

@[simp] theorem settled_leaveBuffer (s : State) (o : Origin) : (State.leaveBuffer s o).settled = s.settled := by
  unfold State.leaveBuffer; simp only []; (repeat' split) <;> simp

@[simp] theorem settled_toHost (s : State) (p : Piece) : (State.toHost s p).settled = s.settled := by
  unfold State.toHost; (repeat' split) <;> simp

@[simp] theorem settled_toHearth (s0 : State) (m : HearthId) (p : Piece) : (State.toHearth s0 m p).settled = s0.settled := by
  unfold State.toHearth
  (try dsimp only); (repeat' split) <;> first | (simp; done) | rfl

@[simp] theorem settled_flueTag (s : State) (f : FlueId) (p : Piece) : (s.flueTag f p).1.settled = s.settled := by
  unfold State.flueTag
  (repeat' split) <;> simp

@[simp] theorem settled_transit (s : State) (f : FlueId) (p : Piece) : (State.transit s f p).settled = s.settled := by
  unfold State.transit; split <;> simp

@[simp] theorem settled_toFlue (s : State) (f : FlueId) (p : Piece) : (State.toFlue s f p).settled = s.settled := by
  have h : (s.flueTag f p).1.settled = s.settled := settled_flueTag s f p
  unfold State.toFlue
  dsimp only
  (repeat' split) <;> first
    | exact settled_transit _ _ _
    | exact (settled_sendOver _ _ _).trans h
    | exact (settled_hostDone _ _ _ _).trans ((settled_sendOver _ _ _).trans h)

@[simp] theorem settled_chimneyDone (s : State) (n : HearthId) (serial : Nat) (p : Piece) : (State.chimneyDone s n serial p).settled = s.settled := by
  unfold State.chimneyDone; (repeat' split) <;> simp

@[simp] theorem settled_chimneyPosted (s : State) (n : HearthId) (serial : Nat) (p : Piece) : (State.chimneyPosted s n serial p).settled = s.settled := by
  unfold State.chimneyPosted
  (try dsimp only); (repeat' split) <;> first | rfl | (simp; done)

@[simp] theorem settled_toRequester (s : State) (p : Piece) : (State.toRequester s p).settled = s.settled := by
  unfold State.toRequester
  (try dsimp only); (repeat' split) <;> first | rfl | (simp; done)

@[simp] theorem settled_placeRecord (s : State) : (State.placeRecord s).settled = s.settled := by
  unfold State.placeRecord
  simp

@[simp] theorem settled_deliver (s : State) (p : Piece) : (State.deliver s p).settled = s.settled := by
  have h : ∀ o, (({ s with sw := { s.sw with q := vmod s.sw.q p.src fun l => l.filter (fun x => x.id ≠ p.id), offer := vset s.sw.offer p.src none } } : State).leaveBuffer
      o).settled = s.settled := fun o => settled_leaveBuffer _ o
  unfold State.deliver
  dsimp only
  (repeat' split) <;> first
    | exact (settled_donePiece _ _ _).trans ((settled_countFrame _ _).trans (h _))
    | exact h _
    | exact (settled_toRequester _ _).trans ((settled_countFrame _ _).trans (h _))
    | exact (settled_toHearth _ _ _).trans ((settled_countFrame _ _).trans (h _))
    | exact (settled_countFrame _ _).trans (h _)
    | exact (settled_placeRecord _).trans ((settled_countFrame _ _).trans (h _))
    | exact (settled_toHost _ _).trans ((settled_countFrame _ _).trans (h _))
    | exact (settled_toFlue _ _ _).trans ((settled_countFrame _ _).trans (h _))

@[simp] theorem settled_grantAt (offers : List (PortId × Piece)) (d : PortId) (s : State) :
    (State.grantAt offers d s).settled = s.settled := by
  unfold State.grantAt
  split
  · exact settled_forList _ _ (fun (x : PortId × Piece) s => settled_deliver s x.2) s
  · split
    · rfl
    · simp only []; split
      · exact settled_deliver s _
      · exact settled_deliver s _

@[simp] theorem settled_aimAll (s : State) : (State.aimAll s).settled = s.settled := by
  exact settled_setSw s _

@[simp] theorem settled_contestBeats (s : State) (b : Fin 16) : (State.contestBeats s b).settled = s.settled := by
  unfold State.contestBeats; (repeat' split) <;> simp

@[simp] theorem settled_saveTaps (s : State) : (State.saveTaps s).settled = s.settled := by
  rfl

@[simp] theorem settled_bellowsPower (s : State) : (State.bellowsPower s).settled = s.settled := by
  unfold State.bellowsPower; split <;> simp

@[simp] theorem settled_sleepDom (s : State) (d : DomainId) : (State.sleepDom s d).settled = s.settled := by
  unfold State.sleepDom; split <;> simp

@[simp] theorem settled_sleepLane (s : State) (i : Fin 16) : (State.sleepLane s i).settled = s.settled := by
  simp [State.sleepLane]

@[simp] theorem settled_presentWake (s : State) (port : PortId) (d : DomainId) : (State.presentWake s port d).settled = s.settled := by
  unfold State.presentWake
  (try dsimp only); (repeat' split) <;> first | (simp; done) | rfl

@[simp] theorem settled_enterDetect (s : State) : (State.enterDetect s).settled = s.settled := by
  unfold State.enterDetect
  dsimp only; split
  · rw [settled_woken, settled_forList _ _ (fun i s => settled_presentWake s _ _), settled_forList _ _ (fun i s => settled_presentWake s _ _),
      settled_forList _ _ (fun i s => by split <;> simp)]
    exact settled_saveTaps s
  · rfl

@[simp] theorem settled_settleLane (s : State) (old : Rate) (r : Rate) (i : Fin 16) : (State.settleLane s old r i).settled = s.settled := by
  unfold State.settleLane; simp only []; (repeat' split) <;> simp

@[simp] theorem settled_rerate (s : State) (r : Rate) (i : Fin 16) : (State.rerate s r i).settled = s.settled := by
  unfold State.rerate
  (try dsimp only); (repeat' split) <;> first | (simp; done) | rfl

@[simp] theorem settled_enterRecovery (s : State) : (State.enterRecovery s).settled = s.settled := by
  unfold State.enterRecovery
  dsimp only
  rw [settled_forList _ _ (fun i s => settled_modLane s _ _)]
  exact settled_saveTaps s

@[simp] theorem settled_startFc (s : State) (limits : TxLimits) : (State.startFc s limits).settled = s.settled := by
  rfl

@[simp] theorem settled_takeTx (s : State) (i : Fin 16) (r : Rate) (ask : Option TxEq) : (State.takeTx s i r ask).settled = s.settled := by
  unfold State.takeTx
  (try dsimp only); (repeat' split) <;> first | rfl | (simp; done)

@[simp] theorem settled_deferredLtr (s : State) : (State.deferredLtr s).settled = s.settled := by
  unfold State.deferredLtr
  (try dsimp only); (repeat' split) <;> first | rfl | (simp; done)

@[simp] theorem settled_trained (s : State) (w : Nat) (reversed : Bool) (rate : Rate) (inverted : BitVec 16) : (State.trained s w reversed rate inverted).settled = s.settled := by
  have h : (if s.link.rate = rate then s.saveTaps else s).settled = s.settled := by split <;> simp
  unfold State.trained
  dsimp only
  rw [settled_bellowsPower, settled_forList _ _ (fun i s => settled_sleepLane s i), settled_forList _ _ (fun i s => settled_settleLane s _ _ i)]
  exact h

@[simp] theorem settled_endRecovery (s : State) : (State.endRecovery s).settled = s.settled := by
  unfold State.endRecovery
  split
  · dsimp only
    rw [settled_deferredLtr, settled_forList _ _ (fun i s => settled_modLane s _ _)]; rfl
  · rfl

@[simp] theorem settled_dropUnneeded (s : State) (d : DomainId) : (State.dropUnneeded s d).settled = s.settled := by
  unfold State.dropUnneeded
  (try dsimp only); (repeat' split) <;> first | (simp; done) | rfl

@[simp] theorem settled_passMove (s : State) (l : LaneId) : (State.passMove s l).settled = s.settled := by
  unfold State.passMove
  (try dsimp only); (repeat' split) <;> first | (simp; done) | rfl

@[simp] theorem settled_applyMove (s : State) (l : LaneId) : (State.applyMove s l).settled = s.settled := by
  unfold State.applyMove
  dsimp only
  rw [settled_passMove, settled_modLane]; rfl

@[simp] theorem settled_deferMoves (s : State) (l : LaneId) (k : Nat) : (State.deferMoves s l k).settled = s.settled := by
  rfl

@[simp] theorem settled_moveAll (ended : Bool) (k : Nat) (x1 : Nat) (s : State) (x3 : LaneId) : (State.moveAll ended k x1 s x3).settled = s.settled := by
  induction k generalizing x1 s with
  | zero => rfl
  | succ k ih =>
    unfold State.moveAll; dsimp only; (repeat' split)
    · rfl
    · rw [ih, settled_applyMove]
    · rw [settled_deferMoves]

@[simp] theorem settled_gap (ended : Bool) (l : LaneId) (s : State) : (State.gap ended l s).settled = s.settled := by
  unfold State.gap; rw [settled_modLane, settled_moveAll]

@[simp] theorem settled_gaps (ls : List LaneId) (s : State) : (State.gaps ls s).settled = s.settled := by
  unfold State.gaps
  split
  · rw [settled_snapshot, settled_forList _ _ (fun l s => settled_gap _ l s), settled_admitTick]
  · exact settled_forList _ _ (fun l s => settled_gap _ l s) s

@[simp] theorem settled_passFiller (s : State) (f : FlueId) (fills : BitVec 32) (held : Nat) : (State.passFiller s f fills held).settled = s.settled := by
  unfold State.passFiller
  (try dsimp only); (repeat' split) <;> first | (simp; done) | rfl

@[simp] theorem settled_acquired (s : State) (l : LaneId) : (State.acquired s l).settled = s.settled := by
  unfold State.acquired; split <;> simp

@[simp] theorem settled_endWork (s : State) (o : Origin) (got : List (Nat × Byte)) (status : CplStatus) : (State.endWork s o got status).settled = s.settled := by
  unfold State.endWork
  (try dsimp only); (repeat' split) <;> first | (simp; done) | rfl

@[simp] theorem settled_hostReply (s : State) (o : Origin) (tag : Nat) (got : List (Nat × Byte)) (status : CplStatus) : (State.hostReply s o tag got status).settled = s.settled := by
  unfold State.hostReply
  (try dsimp only); (repeat' split) <;> first | rfl | (simp; done)

@[simp] theorem settled_cutPiece (s : State) (h : Fin 64) (p : Piece) : (State.cutPiece s h p).settled = s.settled := by
  unfold State.cutPiece
  (try dsimp only); (repeat' split) <;> first | (simp; done) | rfl

@[simp] theorem settled_cutTlp (s : State) (h : Fin 64) (mine : List TxTlp) (t : TxTlp) : (State.cutTlp s h mine t).settled = s.settled := by
  unfold State.cutTlp; (repeat' split) <;> simp

@[simp] theorem settled_cutKind0 (s : State) (h : Fin 64) : (s.cutKind0 h).settled = s.settled := by
  unfold State.cutKind0
  simp only []
  rw [settled_forList _ _ (fun t s => settled_cutTlp s h _ t), settled_forList _ _ (fun p s => settled_cutPiece s h p)]
  exact (settled_setTxq _ _).trans (settled_removePieces s _)

@[simp] theorem settled_discardKind0 (s : State) (h : Fin 64) : (s.discardKind0 h).settled = s.settled := by
  unfold State.discardKind0
  simp only []
  rw [settled_forList _ _ (fun o s => by split <;> simp)]
  exact (settled_setTxq _ _).trans (settled_removePieces s _)

@[simp] theorem settled_dropRecords (s : State) : (State.dropRecords s).settled = s.settled := by
  rfl

@[simp] theorem settled_sendFunc (s : State) (h : Fin 64) (reset : Bool) : (State.sendFunc s h reset).settled = s.settled := by
  unfold State.sendFunc
  split
  · dsimp only; rw [settled_control]; rfl
  · rfl

@[simp] theorem settled_sendFuncOf (s : State) (f : FnId) (reset : Bool) : (State.sendFuncOf s f reset).settled = s.settled := by
  unfold State.sendFuncOf; split <;> simp

@[simp] theorem settled_writeBme (s : State) (f : FnId) (v : Bool) : (State.writeBme s f v).settled = s.settled := by
  unfold State.writeBme
  (try dsimp only); (repeat' split) <;> first | rfl | (simp; done)

@[simp] theorem settled_writeMse (s : State) (f : FnId) (v : Bool) : (State.writeMse s f v).settled = s.settled := by
  unfold State.writeMse; split <;> simp

@[simp] theorem settled_presentIntx (s : State) (f : FnId) (up : Bool) : (State.presentIntx s f up).settled = s.settled := by
  unfold State.presentIntx
  (try dsimp only); (repeat' split) <;> first | (simp; done) | rfl

@[simp] theorem settled_writeIntd (s : State) (f : FnId) (v : Bool) : (State.writeIntd s f v).settled = s.settled := by
  unfold State.writeIntd; simp only []; (repeat' split) <;> simp

@[simp] theorem settled_writePower (s : State) (f : FnId) (v : PowerState) : (State.writePower s f v).settled = s.settled := by
  unfold State.writePower; simp only []; (repeat' split) <;> simp

@[simp] theorem settled_writeLtr (s : State) (f : FnId) (v : Bool) : (s.writeLtr f v).settled = s.settled := by
  unfold State.writeLtr
  simp only []; split <;> rfl

@[simp] theorem settled_writeTenBit (s : State) (f : FnId) (v : Bool) : (State.writeTenBit s f v).settled = s.settled := by
  rfl

@[simp] theorem settled_writeExtTag (s : State) (f : FnId) (v : Bool) : (State.writeExtTag s f v).settled = s.settled := by
  rfl

@[simp] theorem settled_dropBeats (s : State) (id : Nat) : (State.dropBeats s id).settled = s.settled := by
  unfold State.dropBeats
  rfl

@[simp] theorem settled_discardReqs (s : State) (pick : HostReq → Bool) : (State.discardReqs s pick).settled = s.settled := by
  unfold State.discardReqs
  exact settled_forList _ _ (fun _ _ => by (try dsimp only); (repeat' split) <;> first | rfl | (simp; done)) _

@[simp] theorem settled_refuseReqs (s : State) (pick : HostReq → Bool) (logged : Bool) : (State.refuseReqs s pick logged).settled = s.settled := by
  unfold State.refuseReqs
  refine settled_forList _ _ (fun x s => ?_) s
  dsimp only; split
  · split <;> simp
  · rfl

@[simp] theorem settled_endFarLocks (s : State) (h : Fin 64) : (State.endFarLocks s h).settled = s.settled := by
  refine settled_forHearths _ (fun m s => ?_) s
  split
  · split
    · exact settled_endFarLock s m false
    · rfl
  · rfl

@[simp] theorem settled_dropWire (s : State) (f : FnId) (intd : Bool) (power : PowerState) : (s.dropWire f intd power).settled = s.settled := by
  unfold State.dropWire
  simp only []; split
  · rw [settled_presentIntx, settled_setIrq]
  · rfl

@[simp] theorem settled_flrHearth (s : State) (h : Fin 64) : (State.flrHearth s h).settled = s.settled := by
  unfold State.flrHearth
  dsimp only
  rw [settled_woken, settled_issueWaiting, settled_landWaiting]
  split <;> simp

@[simp] theorem settled_flrGrate (s : State) : (State.flrGrate s).settled = s.settled := by
  simp [State.flrGrate]

@[simp] theorem settled_endFlr (s : State) (f : FnId) : (s.endFlr f).settled = s.settled := by
  unfold State.endFlr
  simp only []; split
  · split
    · rfl
    · exact settled_presentIntx _ _ _
  · rfl

@[simp] theorem settled_flrAll (s : State) : (s.flrAll).settled = s.settled := by
  unfold State.flrAll
  simp only []
  rw [settled_forList _ _ (fun h s => by split <;> simp)]
  split <;> simp

@[simp] theorem settled_dropTags (s : State) : (s.dropTags).settled = s.settled := by
  unfold State.dropTags; exact settled_forList _ _ (fun o s => settled_endWork s _ _ _) _

@[simp] theorem settled_clearLink (s : State) : (State.clearLink s).settled = s.settled := by
  rfl

@[simp] theorem settled_linkDown (s : State) : (State.linkDown s).settled = s.settled := by
  unfold State.linkDown
  dsimp only
  rw [settled_landWaiting, settled_clearLink, settled_forList _ _ (fun o s => by split <;> simp), settled_flrAll, settled_discardReqs, settled_dropTags]

@[simp] theorem settled_linkFall (s : State) : (s.linkFall).settled = s.settled := by
  unfold State.linkFall
  simp only []; (repeat' split) <;> simp

@[simp] theorem settled_clearSeen (s : State) (p : Fin 4) (half : Fin 2) (v : Dword) : (State.clearSeen s p half v).settled = s.settled := by
  exact settled_forList _ _ (fun i s => by dsimp only; split <;> simp) s

@[simp] theorem settled_afterRead (s : State) (f : FnId) (off : Nat) (v : Dword) : (State.afterRead s f off v).settled = s.settled := by
  unfold State.afterRead; split <;> simp

@[simp] theorem settled_writeCommand (s : State) (f : FnId) (data : Dword) (be : BitVec 4) : (State.writeCommand s f data be).settled = s.settled := by
  simp [State.writeCommand]

@[simp] theorem settled_writeBar (s : State) (f : FnId) (high : Bool) (data : Dword) (be : BitVec 4) : (State.writeBar s f high data be).settled = s.settled := by
  rfl

@[simp] theorem settled_writePmcsr (s : State) (f : FnId) (data : Dword) (be : BitVec 4) : (State.writePmcsr s f data be).settled = s.settled := by
  simp [State.writePmcsr]

@[simp] theorem settled_writeDevctl (s : State) (f : FnId) (data : Dword) (be : BitVec 4) : (State.writeDevctl s f data be).settled = s.settled := by
  unfold State.writeDevctl; simp only []; (repeat' split) <;> simp

@[simp] theorem settled_writeDevctl2 (s : State) (f : FnId) (data : Dword) (be : BitVec 4) : (State.writeDevctl2 s f data be).settled = s.settled := by
  simp [State.writeDevctl2]

@[simp] theorem settled_cfgWrite (s : State) (f : FnId) (off : Nat) (be : BitVec 4) (data : Dword) (bus : Byte) : (State.cfgWrite s f off be data bus).settled = s.settled := by
  unfold State.cfgWrite; simp only []; (repeat' split) <;> simp

@[simp] theorem settled_passNp (s : State) (bytes : Nat) : (State.passNp s bytes).settled = s.settled := by
  rfl

@[simp] theorem settled_cfgDone (s : State) (f : FnId) (tag : Nat) (v : Option Dword) : (State.cfgDone s f tag v).settled = s.settled := by
  unfold State.cfgDone; split <;> simp

@[simp] theorem settled_takeCfgWrite (s : State) (f : FnId) (off : Nat) (be : BitVec 4) (data : Dword) (bus : Byte) (tag : Nat) : (State.takeCfgWrite s f off be data bus tag).settled = s.settled := by
  simp [State.takeCfgWrite]

@[simp] theorem settled_takeCfgRead (s : State) (f : FnId) (off : Nat) (tag : Nat) : (State.takeCfgRead s f off tag).settled = s.settled := by
  simp [State.takeCfgRead]

@[simp] theorem settled_cfgMiss (s : State) (bytes tag : Nat) : (State.cfgMiss s bytes tag).settled = s.settled := by
  unfold State.cfgMiss
  simp

@[simp] theorem settled_allocTag (s : State) (t : TxTlp) : (State.allocTag s t).settled = s.settled := by
  unfold State.allocTag; (repeat' split) <;> rfl

@[simp] theorem settled_sentWrite (s : State) (t : TxTlp) : (State.sentWrite s t).settled = s.settled := by
  unfold State.sentWrite; (repeat' split) <;> simp

@[simp] theorem settled_sendNew (s : State) (t : TxTlp) : (s.sendNew t).settled = s.settled := by
  unfold State.sendNew
  simp only [settled_sentWrite, settled_allocTag]; rfl

@[simp] theorem settled_purge (s : State) (ack : BitVec 12) : (State.purge s ack).settled = s.settled := by
  rfl

@[simp] theorem settled_countReplay (s : State) : (State.countReplay s).settled = s.settled := by
  unfold State.countReplay
  dsimp only; split
  · rw [settled_linkCor, settled_enterRecovery]; rfl
  · rfl

@[simp] theorem settled_freeTag (s : State) (t : HostTag) : (State.freeTag s t).settled = s.settled := by
  unfold State.freeTag
  rfl

@[simp] theorem settled_cplStatusBits (s : State) (f : FnId) (status : CplStatus) : (State.cplStatusBits s f status).settled = s.settled := by
  unfold State.cplStatusBits; split <;> simp

@[simp] theorem settled_takeCpl (s : State) (tag : Nat) (status : CplStatus) (poisoned : Bool) (data : List Byte) (fn : Nat) (hdr : Vector Dword 4) : (State.takeCpl s tag status poisoned data fn hdr).settled = s.settled := by
  unfold State.takeCpl
  (try dsimp only); (repeat' split) <;> first | rfl | (simp; done)

@[simp] theorem settled_passPosted (s : State) (bytes : Nat) : (State.passPosted s bytes).settled = s.settled := by
  rfl

@[simp] theorem settled_pmeTurnOff (s : State) : (State.pmeTurnOff s).settled = s.settled := by
  rfl

@[simp] theorem settled_pass (s : State) (t : Tlp) : (State.pass s t).settled = s.settled := by
  unfold State.pass; split <;> simp

@[simp] theorem settled_unsupported (s : State) (t : Tlp) : (State.unsupported s t).settled = s.settled := by
  unfold State.unsupported; simp only []; (repeat' split) <;> simp

@[simp] theorem settled_takeMem (s : State) (t : Tlp) (read : Bool) : (State.takeMem s t read).settled = s.settled := by
  unfold State.takeMem; (repeat' split) <;> simp

@[simp] theorem settled_takeTlp (s : State) (t : Tlp) : (State.takeTlp s t).settled = s.settled := by
  unfold State.takeTlp; (repeat' split) <;> simp

@[simp] theorem settled_acceptTlp (s : State) (t : Tlp) : (State.acceptTlp s t).settled = s.settled := by
  unfold State.acceptTlp; (repeat' split) <;> simp

@[simp] theorem settled_leaveTxL0s (s : State) : (State.leaveTxL0s s).settled = s.settled := by
  unfold State.leaveTxL0s
  rfl

@[simp] theorem settled_sendLevels (s : State) (q : Fin 4) (f : FlueId) : (State.sendLevels s q f).settled = s.settled := by
  simp [State.sendLevels]

@[simp] theorem settled_sendReports (s : State) (f : FlueId) : (s.sendReports f).settled = s.settled := by
  unfold State.sendReports; exact settled_modFlue s f _

@[simp] theorem settled_pathBegins (s : State) (q : Fin 4) (f : FlueId) : (State.pathBegins s q f).settled = s.settled := by
  unfold State.pathBegins
  (try dsimp only); (repeat' split) <;> first | rfl | (simp; done)

@[simp] theorem settled_pathLost (s : State) (q : Fin 4) : (State.pathLost s q).settled = s.settled := by
  unfold State.pathLost
  dsimp only
  exact (settled_forHearths _ (fun n s => by (repeat' split) <;> simp) _).trans
    ((settled_forHearths _ (fun n s => by (repeat' split) <;> simp) _).trans rfl)

@[simp] theorem settled_repath (old s : State) : (State.repath old s).settled = s.settled := 
  settled_forList _ _ (fun x s => by split <;> simp) s

@[simp] theorem settled_linksChanged (old s : State) : (State.linksChanged old s).settled = s.settled := by
  unfold State.linksChanged
  dsimp only
  rw [settled_woken, settled_issueWaiting, settled_payOwed, settled_repath, settled_forList _ _ (fun q s => by split <;> simp),
    settled_forList _ _ (fun x s => by split <;> simp)]

@[simp] theorem settled_flueEvent (s : State) (f : FlueId) (cause : Nat) : (s.flueEvent f cause).settled = s.settled := by
  unfold State.flueEvent
  simp only []; split
  · exact settled_modFlue s f _
  · exact (settled_logEvent _ _).trans (settled_modFlue s f _)

@[simp] theorem settled_dropTransit (s : State) (f : FlueId) : (State.dropTransit s f).settled = s.settled := by
  rfl

@[simp] theorem settled_reacquire (s : State) (f : FlueId) : (s.reacquire f).settled = s.settled := 
  settled_forList _ _ (fun l s => by split <;> simp) s

@[simp] theorem settled_dropLink (s : State) (f : FlueId) (cause : Nat) : (State.dropLink s f cause).settled = s.settled := by
  simp [State.dropLink]

@[simp] theorem settled_countParity (s : State) (f : FlueId) (e : BlockFault) : (State.countParity s f e).settled = s.settled := by
  unfold State.countParity; split <;> simp

@[simp] theorem settled_deadLink (s : State) (f : FlueId) (cause : Nat) : (s.deadLink f cause).settled = s.settled := by
  have h : ((s.modFlue f fun x => { x with st := .dead }).flueEvent f cause).settled = s.settled := by simp
  unfold State.deadLink
  simp only [settled_linksChanged]; split
  · exact h
  · exact h

@[simp] theorem settled_checkXoff (s : State) (f : FlueId) (c : Cls) : (State.checkXoff s f c).settled = s.settled := by
  unfold State.checkXoff; split <;> simp

@[simp] theorem settled_takePiece (s : State) (f : FlueId) (b : PieceBlk) : (State.takePiece s f b).settled = s.settled := by
  unfold State.takePiece
  dsimp only; split
  · exact (settled_checkXoff _ _ _).trans ((settled_landGated _ _ _).trans ((settled_receipt _ _).trans rfl))
  · simp
  · simp

@[simp] theorem settled_forward (s : State) (q : Fin 4) (b : FlueBlk) : (State.forward s q b).settled = s.settled := by
  unfold State.forward; split <;> simp

@[simp] theorem settled_takeReceipt (s : State) (r : Receipt) : (s.takeReceipt r).settled = s.settled := by
  unfold State.takeReceipt
  simp only [settled_issueWaiting]
  exact settled_forList _ _ (fun u s => settled_endPosted s _ _) _

@[simp] theorem settled_takeBackoff (s : State) (n : HearthId) (tag : Nat) : (State.takeBackoff s n tag).settled = s.settled := by
  unfold State.takeBackoff
  split
  · rfl
  · dsimp only; (repeat' split) <;> first
      | exact (settled_damp _ _).trans (settled_dropTag s _ _ _)
      | exact (settled_push _ _).trans (settled_dropTag s _ _ _)
      | exact settled_dropTag s _ _ _

@[simp] theorem settled_takeLevels (s : State) (pos : Fin 4) (levels : List LevelEntry) : (State.takeLevels s pos levels).settled = s.settled := by
  unfold State.takeLevels
  exact settled_forList _ _ (fun _ _ => by (try dsimp only); (repeat' split) <;> first | rfl | (simp; done)) _

@[simp] theorem settled_endPass (s : State) (p : Fin 4) : (s.endPass p).settled = s.settled := by
  unfold State.endPass
  simp only []; split
  · rw [settled_logEvent, settled_setChim]
  · rfl

@[simp] theorem settled_dropHearthTags (s : State) (n : HearthId) : (State.dropHearthTags s n).settled = s.settled := by
  rfl

@[simp] theorem settled_takeFunc (s : State) (m : FuncMsg) : (State.takeFunc s m).settled = s.settled := by
  unfold State.takeFunc
  dsimp only
  (repeat' split) <;> (try simp only [settled_dropHearthTags, settled_hearthReset, settled_discardKind0, settled_cutKind0]) <;> rfl

@[simp] theorem settled_clockDrop (s : State) (f : FlueId) : (State.clockDrop s f).settled = s.settled := by
  unfold State.clockDrop
  (try dsimp only); (repeat' split) <;> first | (simp; done) | rfl

@[simp] theorem settled_powerMode (s : State) : (s.powerMode).settled = s.settled := by
  unfold State.powerMode
  simp only [State.settled]; (repeat' split) <;> rfl

@[simp] theorem settled_enableFlues (s : State) : (State.enableFlues s).settled = s.settled := by
  unfold State.enableFlues
  dsimp only; split
  · exact settled_forList _ _ (fun f s => by rw [settled_forList _ _ (fun d s => settled_presentWake s _ d), settled_modFlue]) s
  · rfl

@[simp] theorem settled_checkFlues (s : State) : (s.checkFlues).settled = s.settled := by
  unfold State.checkFlues
  split
  · rfl
  · exact settled_forList _ _ (fun f s => by
      rw [settled_forList _ _ (fun d s => settled_sleepDom s d)]; simp) s

@[simp] theorem settled_leaveParked (s : State) (n : HearthId) : (State.leaveParked s n).settled = s.settled := by
  unfold State.leaveParked; simp only []; (repeat' split) <;> simp

@[simp] theorem settled_endHearthGroups (s : State) (n : HearthId) : (State.endHearthGroups s n).settled = s.settled := by
  simp [State.endHearthGroups]

@[simp] theorem settled_startHearthGroups (s : State) (n : HearthId) : (State.startHearthGroups s n).settled = s.settled := by
  rfl

@[simp] theorem settled_sampleGroup (s : State) (g : Fin 48) (readings : List Reading) : (s.sampleGroup g readings).settled = s.settled := by
  unfold State.sampleGroup
  simp only []; split
  · exact settled_setStraps s _
  · exact (settled_modHearth _ _ _).trans (settled_setStraps s _)

@[simp] theorem settled_startTraining (s : State) : (State.startTraining s).settled = s.settled := by
  unfold State.startTraining; split <;> rfl

@[simp] theorem settled_startTestLane (s : State) (l : LaneId) : (State.startTestLane s l).settled = s.settled := by
  unfold State.startTestLane
  dsimp only; split
  · exact settled_forList _ _ (fun d s => settled_presentWake s _ d) s
  · rfl


@[simp] theorem settled_takeBits (s : State) (l : LaneId) (bits : List Bool) : (State.takeBits s l bits).settled = s.settled := by
  unfold State.takeBits
  rfl


end Sys2Proof.Machine
end

