-- ==== Sys2Proof/Laws/State.lean ====
section
/-! SUPPORT. The tables of the state: reading an entry after writing one, and, for each basic update of the state, one lemma
per field it leaves alone and one for what it writes. -/

namespace Sys2Proof.Machine

open Sys2Proof

/-! ### Tables -/

@[simp] theorem vget_vset_self {α : Type} {k : Nat} (v : Vector α k) (i : Fin k) (x : α) : vget (vset v i x) i = x := by
  simp [vget, vset]

theorem vget_vset_ne {α : Type} {k : Nat} (v : Vector α k) (i j : Fin k) (x : α) (h : j ≠ i) :
    vget (vset v i x) j = vget v j := by
  have : i.val ≠ j.val := fun e => h (Fin.ext e.symm)
  simp [vget, vset, this]

theorem vget_vset {α : Type} {k : Nat} (v : Vector α k) (i j : Fin k) (x : α) :
    vget (vset v i x) j = if j = i then x else vget v j := by
  split
  · next h => rw [h, vget_vset_self]
  · next h => exact vget_vset_ne v i j x h

@[simp] theorem vget_vmod_self {α : Type} {k : Nat} (v : Vector α k) (i : Fin k) (f : α → α) :
    vget (vmod v i f) i = f (vget v i) := vget_vset_self v i _

theorem vget_vmod_ne {α : Type} {k : Nat} (v : Vector α k) (i j : Fin k) (f : α → α) (h : j ≠ i) :
    vget (vmod v i f) j = vget v j := vget_vset_ne v i j _ h

@[simp] theorem vget_vmap {α β : Type} {k : Nat} (f : Fin k → α → β) (v : Vector α k) (i : Fin k) :
    vget (vmap f v) i = f i (vget v i) := by
  simp [vget, vmap]

@[simp] theorem vget_replicate {α : Type} {k : Nat} (x : α) (i : Fin k) : vget (Vector.replicate k x) i = x := by
  simp [vget]

/-! ### `setHearth` -/

@[simp] theorem setHearth_pending (s : State) (n : HearthId) (h : Hearth) : (s.setHearth n h).pending = s.pending := rfl
@[simp] theorem setHearth_nextId (s : State) (n : HearthId) (h : Hearth) : (s.setHearth n h).nextId = s.nextId := rfl
@[simp] theorem setHearth_wake (s : State) (n : HearthId) (h : Hearth) : (s.setHearth n h).wake = s.wake := rfl
@[simp] theorem setHearth_upNow (s : State) (n : HearthId) (h : Hearth) : (s.setHearth n h).upNow = s.upNow := rfl
@[simp] theorem setHearth_clk (s : State) (n : HearthId) (h : Hearth) : (s.setHearth n h).clk = s.clk := rfl
@[simp] theorem setHearth_island (s : State) (n : HearthId) (h : Hearth) : (s.setHearth n h).island = s.island := rfl
@[simp] theorem setHearth_straps (s : State) (n : HearthId) (h : Hearth) : (s.setHearth n h).straps = s.straps := rfl
@[simp] theorem setHearth_mode (s : State) (n : HearthId) (h : Hearth) : (s.setHearth n h).mode = s.mode := rfl
@[simp] theorem setHearth_strapMode (s : State) (n : HearthId) (h : Hearth) : (s.setHearth n h).strapMode = s.strapMode := rfl
@[simp] theorem setHearth_slotPower (s : State) (n : HearthId) (h : Hearth) : (s.setHearth n h).slotPower = s.slotPower := rfl
@[simp] theorem setHearth_gate (s : State) (n : HearthId) (h : Hearth) : (s.setHearth n h).gate = s.gate := rfl
@[simp] theorem setHearth_readyOnce (s : State) (n : HearthId) (h : Hearth) : (s.setHearth n h).readyOnce = s.readyOnce := rfl
@[simp] theorem setHearth_cfg (s : State) (n : HearthId) (h : Hearth) : (s.setHearth n h).cfg = s.cfg := rfl
@[simp] theorem setHearth_prot (s : State) (n : HearthId) (h : Hearth) : (s.setHearth n h).prot = s.prot := rfl
@[simp] theorem setHearth_doms (s : State) (n : HearthId) (h : Hearth) : (s.setHearth n h).doms = s.doms := rfl
@[simp] theorem setHearth_ledger (s : State) (n : HearthId) (h : Hearth) : (s.setHearth n h).ledger = s.ledger := rfl
@[simp] theorem setHearth_items (s : State) (n : HearthId) (h : Hearth) : (s.setHearth n h).items = s.items := rfl
@[simp] theorem setHearth_link (s : State) (n : HearthId) (h : Hearth) : (s.setHearth n h).link = s.link := rfl
@[simp] theorem setHearth_dll (s : State) (n : HearthId) (h : Hearth) : (s.setHearth n h).dll = s.dll := rfl
@[simp] theorem setHearth_fc (s : State) (n : HearthId) (h : Hearth) : (s.setHearth n h).fc = s.fc := rfl
@[simp] theorem setHearth_txq (s : State) (n : HearthId) (h : Hearth) : (s.setHearth n h).txq = s.txq := rfl
@[simp] theorem setHearth_reqs (s : State) (n : HearthId) (h : Hearth) : (s.setHearth n h).reqs = s.reqs := rfl
@[simp] theorem setHearth_tags (s : State) (n : HearthId) (h : Hearth) : (s.setHearth n h).tags = s.tags := rfl
@[simp] theorem setHearth_fns (s : State) (n : HearthId) (h : Hearth) : (s.setHearth n h).fns = s.fns := rfl
@[simp] theorem setHearth_sw (s : State) (n : HearthId) (h : Hearth) : (s.setHearth n h).sw = s.sw := rfl
@[simp] theorem setHearth_stone (s : State) (n : HearthId) (h : Hearth) : (s.setHearth n h).stone = s.stone := rfl
@[simp] theorem setHearth_banks (s : State) (n : HearthId) (h : Hearth) : (s.setHearth n h).banks = s.banks := rfl
@[simp] theorem setHearth_lockEnds (s : State) (n : HearthId) (h : Hearth) : (s.setHearth n h).lockEnds = s.lockEnds := rfl
@[simp] theorem setHearth_xtags (s : State) (n : HearthId) (h : Hearth) : (s.setHearth n h).xtags = s.xtags := rfl
@[simp] theorem setHearth_sampler (s : State) (n : HearthId) (h : Hearth) : (s.setHearth n h).sampler = s.sampler := rfl
@[simp] theorem setHearth_soot (s : State) (n : HearthId) (h : Hearth) : (s.setHearth n h).soot = s.soot := rfl
@[simp] theorem setHearth_irq (s : State) (n : HearthId) (h : Hearth) : (s.setHearth n h).irq = s.irq := rfl
@[simp] theorem setHearth_flueA (s : State) (n : HearthId) (h : Hearth) : (s.setHearth n h).flueA = s.flueA := rfl
@[simp] theorem setHearth_flueB (s : State) (n : HearthId) (h : Hearth) : (s.setHearth n h).flueB = s.flueB := rfl
@[simp] theorem setHearth_chim (s : State) (n : HearthId) (h : Hearth) : (s.setHearth n h).chim = s.chim := rfl
@[simp] theorem setHearth_lanes (s : State) (n : HearthId) (h : Hearth) : (s.setHearth n h).lanes = s.lanes := rfl
@[simp] theorem setHearth_tapMoves (s : State) (n : HearthId) (h : Hearth) : (s.setHearth n h).tapMoves = s.tapMoves := rfl
@[simp] theorem setHearth_tests (s : State) (n : HearthId) (h : Hearth) : (s.setHearth n h).tests = s.tests := rfl
@[simp] theorem setHearth_testSeen (s : State) (n : HearthId) (h : Hearth) : (s.setHearth n h).testSeen = s.testSeen := rfl
@[simp] theorem setHearth_tap (s : State) (n : HearthId) (h : Hearth) : (s.setHearth n h).tap = s.tap := rfl
@[simp] theorem setHearth_faultPrev (s : State) (n : HearthId) (h : Hearth) : (s.setHearth n h).faultPrev = s.faultPrev := rfl

/-! ### `modHearth` -/

@[simp] theorem modHearth_pending (s : State) (n : HearthId) (f : Hearth → Hearth) : (s.modHearth n f).pending = s.pending := rfl
@[simp] theorem modHearth_nextId (s : State) (n : HearthId) (f : Hearth → Hearth) : (s.modHearth n f).nextId = s.nextId := rfl
@[simp] theorem modHearth_wake (s : State) (n : HearthId) (f : Hearth → Hearth) : (s.modHearth n f).wake = s.wake := rfl
@[simp] theorem modHearth_upNow (s : State) (n : HearthId) (f : Hearth → Hearth) : (s.modHearth n f).upNow = s.upNow := rfl
@[simp] theorem modHearth_clk (s : State) (n : HearthId) (f : Hearth → Hearth) : (s.modHearth n f).clk = s.clk := rfl
@[simp] theorem modHearth_island (s : State) (n : HearthId) (f : Hearth → Hearth) : (s.modHearth n f).island = s.island := rfl
@[simp] theorem modHearth_straps (s : State) (n : HearthId) (f : Hearth → Hearth) : (s.modHearth n f).straps = s.straps := rfl
@[simp] theorem modHearth_mode (s : State) (n : HearthId) (f : Hearth → Hearth) : (s.modHearth n f).mode = s.mode := rfl
@[simp] theorem modHearth_strapMode (s : State) (n : HearthId) (f : Hearth → Hearth) : (s.modHearth n f).strapMode = s.strapMode := rfl
@[simp] theorem modHearth_slotPower (s : State) (n : HearthId) (f : Hearth → Hearth) : (s.modHearth n f).slotPower = s.slotPower := rfl
@[simp] theorem modHearth_gate (s : State) (n : HearthId) (f : Hearth → Hearth) : (s.modHearth n f).gate = s.gate := rfl
@[simp] theorem modHearth_readyOnce (s : State) (n : HearthId) (f : Hearth → Hearth) : (s.modHearth n f).readyOnce = s.readyOnce := rfl
@[simp] theorem modHearth_cfg (s : State) (n : HearthId) (f : Hearth → Hearth) : (s.modHearth n f).cfg = s.cfg := rfl
@[simp] theorem modHearth_prot (s : State) (n : HearthId) (f : Hearth → Hearth) : (s.modHearth n f).prot = s.prot := rfl
@[simp] theorem modHearth_doms (s : State) (n : HearthId) (f : Hearth → Hearth) : (s.modHearth n f).doms = s.doms := rfl
@[simp] theorem modHearth_ledger (s : State) (n : HearthId) (f : Hearth → Hearth) : (s.modHearth n f).ledger = s.ledger := rfl
@[simp] theorem modHearth_items (s : State) (n : HearthId) (f : Hearth → Hearth) : (s.modHearth n f).items = s.items := rfl
@[simp] theorem modHearth_link (s : State) (n : HearthId) (f : Hearth → Hearth) : (s.modHearth n f).link = s.link := rfl
@[simp] theorem modHearth_dll (s : State) (n : HearthId) (f : Hearth → Hearth) : (s.modHearth n f).dll = s.dll := rfl
@[simp] theorem modHearth_fc (s : State) (n : HearthId) (f : Hearth → Hearth) : (s.modHearth n f).fc = s.fc := rfl
@[simp] theorem modHearth_txq (s : State) (n : HearthId) (f : Hearth → Hearth) : (s.modHearth n f).txq = s.txq := rfl
@[simp] theorem modHearth_reqs (s : State) (n : HearthId) (f : Hearth → Hearth) : (s.modHearth n f).reqs = s.reqs := rfl
@[simp] theorem modHearth_tags (s : State) (n : HearthId) (f : Hearth → Hearth) : (s.modHearth n f).tags = s.tags := rfl
@[simp] theorem modHearth_fns (s : State) (n : HearthId) (f : Hearth → Hearth) : (s.modHearth n f).fns = s.fns := rfl
@[simp] theorem modHearth_sw (s : State) (n : HearthId) (f : Hearth → Hearth) : (s.modHearth n f).sw = s.sw := rfl
@[simp] theorem modHearth_stone (s : State) (n : HearthId) (f : Hearth → Hearth) : (s.modHearth n f).stone = s.stone := rfl
@[simp] theorem modHearth_banks (s : State) (n : HearthId) (f : Hearth → Hearth) : (s.modHearth n f).banks = s.banks := rfl
@[simp] theorem modHearth_lockEnds (s : State) (n : HearthId) (f : Hearth → Hearth) : (s.modHearth n f).lockEnds = s.lockEnds := rfl
@[simp] theorem modHearth_xtags (s : State) (n : HearthId) (f : Hearth → Hearth) : (s.modHearth n f).xtags = s.xtags := rfl
@[simp] theorem modHearth_sampler (s : State) (n : HearthId) (f : Hearth → Hearth) : (s.modHearth n f).sampler = s.sampler := rfl
@[simp] theorem modHearth_soot (s : State) (n : HearthId) (f : Hearth → Hearth) : (s.modHearth n f).soot = s.soot := rfl
@[simp] theorem modHearth_irq (s : State) (n : HearthId) (f : Hearth → Hearth) : (s.modHearth n f).irq = s.irq := rfl
@[simp] theorem modHearth_flueA (s : State) (n : HearthId) (f : Hearth → Hearth) : (s.modHearth n f).flueA = s.flueA := rfl
@[simp] theorem modHearth_flueB (s : State) (n : HearthId) (f : Hearth → Hearth) : (s.modHearth n f).flueB = s.flueB := rfl
@[simp] theorem modHearth_chim (s : State) (n : HearthId) (f : Hearth → Hearth) : (s.modHearth n f).chim = s.chim := rfl
@[simp] theorem modHearth_lanes (s : State) (n : HearthId) (f : Hearth → Hearth) : (s.modHearth n f).lanes = s.lanes := rfl
@[simp] theorem modHearth_tapMoves (s : State) (n : HearthId) (f : Hearth → Hearth) : (s.modHearth n f).tapMoves = s.tapMoves := rfl
@[simp] theorem modHearth_tests (s : State) (n : HearthId) (f : Hearth → Hearth) : (s.modHearth n f).tests = s.tests := rfl
@[simp] theorem modHearth_testSeen (s : State) (n : HearthId) (f : Hearth → Hearth) : (s.modHearth n f).testSeen = s.testSeen := rfl
@[simp] theorem modHearth_tap (s : State) (n : HearthId) (f : Hearth → Hearth) : (s.modHearth n f).tap = s.tap := rfl
@[simp] theorem modHearth_faultPrev (s : State) (n : HearthId) (f : Hearth → Hearth) : (s.modHearth n f).faultPrev = s.faultPrev := rfl

/-! ### `modFn` -/

@[simp] theorem modFn_pending (s : State) (f : FnId) (g : FnCfg → FnCfg) : (s.modFn f g).pending = s.pending := rfl
@[simp] theorem modFn_nextId (s : State) (f : FnId) (g : FnCfg → FnCfg) : (s.modFn f g).nextId = s.nextId := rfl
@[simp] theorem modFn_wake (s : State) (f : FnId) (g : FnCfg → FnCfg) : (s.modFn f g).wake = s.wake := rfl
@[simp] theorem modFn_upNow (s : State) (f : FnId) (g : FnCfg → FnCfg) : (s.modFn f g).upNow = s.upNow := rfl
@[simp] theorem modFn_clk (s : State) (f : FnId) (g : FnCfg → FnCfg) : (s.modFn f g).clk = s.clk := rfl
@[simp] theorem modFn_island (s : State) (f : FnId) (g : FnCfg → FnCfg) : (s.modFn f g).island = s.island := rfl
@[simp] theorem modFn_straps (s : State) (f : FnId) (g : FnCfg → FnCfg) : (s.modFn f g).straps = s.straps := rfl
@[simp] theorem modFn_mode (s : State) (f : FnId) (g : FnCfg → FnCfg) : (s.modFn f g).mode = s.mode := rfl
@[simp] theorem modFn_strapMode (s : State) (f : FnId) (g : FnCfg → FnCfg) : (s.modFn f g).strapMode = s.strapMode := rfl
@[simp] theorem modFn_slotPower (s : State) (f : FnId) (g : FnCfg → FnCfg) : (s.modFn f g).slotPower = s.slotPower := rfl
@[simp] theorem modFn_gate (s : State) (f : FnId) (g : FnCfg → FnCfg) : (s.modFn f g).gate = s.gate := rfl
@[simp] theorem modFn_readyOnce (s : State) (f : FnId) (g : FnCfg → FnCfg) : (s.modFn f g).readyOnce = s.readyOnce := rfl
@[simp] theorem modFn_cfg (s : State) (f : FnId) (g : FnCfg → FnCfg) : (s.modFn f g).cfg = s.cfg := rfl
@[simp] theorem modFn_prot (s : State) (f : FnId) (g : FnCfg → FnCfg) : (s.modFn f g).prot = s.prot := rfl
@[simp] theorem modFn_doms (s : State) (f : FnId) (g : FnCfg → FnCfg) : (s.modFn f g).doms = s.doms := rfl
@[simp] theorem modFn_ledger (s : State) (f : FnId) (g : FnCfg → FnCfg) : (s.modFn f g).ledger = s.ledger := rfl
@[simp] theorem modFn_items (s : State) (f : FnId) (g : FnCfg → FnCfg) : (s.modFn f g).items = s.items := rfl
@[simp] theorem modFn_link (s : State) (f : FnId) (g : FnCfg → FnCfg) : (s.modFn f g).link = s.link := rfl
@[simp] theorem modFn_dll (s : State) (f : FnId) (g : FnCfg → FnCfg) : (s.modFn f g).dll = s.dll := rfl
@[simp] theorem modFn_fc (s : State) (f : FnId) (g : FnCfg → FnCfg) : (s.modFn f g).fc = s.fc := rfl
@[simp] theorem modFn_txq (s : State) (f : FnId) (g : FnCfg → FnCfg) : (s.modFn f g).txq = s.txq := rfl
@[simp] theorem modFn_reqs (s : State) (f : FnId) (g : FnCfg → FnCfg) : (s.modFn f g).reqs = s.reqs := rfl
@[simp] theorem modFn_tags (s : State) (f : FnId) (g : FnCfg → FnCfg) : (s.modFn f g).tags = s.tags := rfl
@[simp] theorem modFn_hearths (s : State) (f : FnId) (g : FnCfg → FnCfg) : (s.modFn f g).hearths = s.hearths := rfl
@[simp] theorem modFn_sw (s : State) (f : FnId) (g : FnCfg → FnCfg) : (s.modFn f g).sw = s.sw := rfl
@[simp] theorem modFn_stone (s : State) (f : FnId) (g : FnCfg → FnCfg) : (s.modFn f g).stone = s.stone := rfl
@[simp] theorem modFn_banks (s : State) (f : FnId) (g : FnCfg → FnCfg) : (s.modFn f g).banks = s.banks := rfl
@[simp] theorem modFn_lockEnds (s : State) (f : FnId) (g : FnCfg → FnCfg) : (s.modFn f g).lockEnds = s.lockEnds := rfl
@[simp] theorem modFn_xtags (s : State) (f : FnId) (g : FnCfg → FnCfg) : (s.modFn f g).xtags = s.xtags := rfl
@[simp] theorem modFn_sampler (s : State) (f : FnId) (g : FnCfg → FnCfg) : (s.modFn f g).sampler = s.sampler := rfl
@[simp] theorem modFn_soot (s : State) (f : FnId) (g : FnCfg → FnCfg) : (s.modFn f g).soot = s.soot := rfl
@[simp] theorem modFn_irq (s : State) (f : FnId) (g : FnCfg → FnCfg) : (s.modFn f g).irq = s.irq := rfl
@[simp] theorem modFn_flueA (s : State) (f : FnId) (g : FnCfg → FnCfg) : (s.modFn f g).flueA = s.flueA := rfl
@[simp] theorem modFn_flueB (s : State) (f : FnId) (g : FnCfg → FnCfg) : (s.modFn f g).flueB = s.flueB := rfl
@[simp] theorem modFn_chim (s : State) (f : FnId) (g : FnCfg → FnCfg) : (s.modFn f g).chim = s.chim := rfl
@[simp] theorem modFn_lanes (s : State) (f : FnId) (g : FnCfg → FnCfg) : (s.modFn f g).lanes = s.lanes := rfl
@[simp] theorem modFn_tapMoves (s : State) (f : FnId) (g : FnCfg → FnCfg) : (s.modFn f g).tapMoves = s.tapMoves := rfl
@[simp] theorem modFn_tests (s : State) (f : FnId) (g : FnCfg → FnCfg) : (s.modFn f g).tests = s.tests := rfl
@[simp] theorem modFn_testSeen (s : State) (f : FnId) (g : FnCfg → FnCfg) : (s.modFn f g).testSeen = s.testSeen := rfl
@[simp] theorem modFn_tap (s : State) (f : FnId) (g : FnCfg → FnCfg) : (s.modFn f g).tap = s.tap := rfl
@[simp] theorem modFn_faultPrev (s : State) (f : FnId) (g : FnCfg → FnCfg) : (s.modFn f g).faultPrev = s.faultPrev := rfl

/-! ### `setDom` -/

@[simp] theorem setDom_pending (s : State) (d : DomainId) (x : DomState) : (s.setDom d x).pending = s.pending := rfl
@[simp] theorem setDom_nextId (s : State) (d : DomainId) (x : DomState) : (s.setDom d x).nextId = s.nextId := rfl
@[simp] theorem setDom_wake (s : State) (d : DomainId) (x : DomState) : (s.setDom d x).wake = s.wake := rfl
@[simp] theorem setDom_upNow (s : State) (d : DomainId) (x : DomState) : (s.setDom d x).upNow = s.upNow := rfl
@[simp] theorem setDom_clk (s : State) (d : DomainId) (x : DomState) : (s.setDom d x).clk = s.clk := rfl
@[simp] theorem setDom_island (s : State) (d : DomainId) (x : DomState) : (s.setDom d x).island = s.island := rfl
@[simp] theorem setDom_straps (s : State) (d : DomainId) (x : DomState) : (s.setDom d x).straps = s.straps := rfl
@[simp] theorem setDom_mode (s : State) (d : DomainId) (x : DomState) : (s.setDom d x).mode = s.mode := rfl
@[simp] theorem setDom_strapMode (s : State) (d : DomainId) (x : DomState) : (s.setDom d x).strapMode = s.strapMode := rfl
@[simp] theorem setDom_slotPower (s : State) (d : DomainId) (x : DomState) : (s.setDom d x).slotPower = s.slotPower := rfl
@[simp] theorem setDom_gate (s : State) (d : DomainId) (x : DomState) : (s.setDom d x).gate = s.gate := rfl
@[simp] theorem setDom_readyOnce (s : State) (d : DomainId) (x : DomState) : (s.setDom d x).readyOnce = s.readyOnce := rfl
@[simp] theorem setDom_cfg (s : State) (d : DomainId) (x : DomState) : (s.setDom d x).cfg = s.cfg := rfl
@[simp] theorem setDom_prot (s : State) (d : DomainId) (x : DomState) : (s.setDom d x).prot = s.prot := rfl
@[simp] theorem setDom_ledger (s : State) (d : DomainId) (x : DomState) : (s.setDom d x).ledger = s.ledger := rfl
@[simp] theorem setDom_items (s : State) (d : DomainId) (x : DomState) : (s.setDom d x).items = s.items := rfl
@[simp] theorem setDom_link (s : State) (d : DomainId) (x : DomState) : (s.setDom d x).link = s.link := rfl
@[simp] theorem setDom_dll (s : State) (d : DomainId) (x : DomState) : (s.setDom d x).dll = s.dll := rfl
@[simp] theorem setDom_fc (s : State) (d : DomainId) (x : DomState) : (s.setDom d x).fc = s.fc := rfl
@[simp] theorem setDom_txq (s : State) (d : DomainId) (x : DomState) : (s.setDom d x).txq = s.txq := rfl
@[simp] theorem setDom_reqs (s : State) (d : DomainId) (x : DomState) : (s.setDom d x).reqs = s.reqs := rfl
@[simp] theorem setDom_tags (s : State) (d : DomainId) (x : DomState) : (s.setDom d x).tags = s.tags := rfl
@[simp] theorem setDom_fns (s : State) (d : DomainId) (x : DomState) : (s.setDom d x).fns = s.fns := rfl
@[simp] theorem setDom_hearths (s : State) (d : DomainId) (x : DomState) : (s.setDom d x).hearths = s.hearths := rfl
@[simp] theorem setDom_sw (s : State) (d : DomainId) (x : DomState) : (s.setDom d x).sw = s.sw := rfl
@[simp] theorem setDom_stone (s : State) (d : DomainId) (x : DomState) : (s.setDom d x).stone = s.stone := rfl
@[simp] theorem setDom_banks (s : State) (d : DomainId) (x : DomState) : (s.setDom d x).banks = s.banks := rfl
@[simp] theorem setDom_lockEnds (s : State) (d : DomainId) (x : DomState) : (s.setDom d x).lockEnds = s.lockEnds := rfl
@[simp] theorem setDom_xtags (s : State) (d : DomainId) (x : DomState) : (s.setDom d x).xtags = s.xtags := rfl
@[simp] theorem setDom_sampler (s : State) (d : DomainId) (x : DomState) : (s.setDom d x).sampler = s.sampler := rfl
@[simp] theorem setDom_soot (s : State) (d : DomainId) (x : DomState) : (s.setDom d x).soot = s.soot := rfl
@[simp] theorem setDom_irq (s : State) (d : DomainId) (x : DomState) : (s.setDom d x).irq = s.irq := rfl
@[simp] theorem setDom_flueA (s : State) (d : DomainId) (x : DomState) : (s.setDom d x).flueA = s.flueA := rfl
@[simp] theorem setDom_flueB (s : State) (d : DomainId) (x : DomState) : (s.setDom d x).flueB = s.flueB := rfl
@[simp] theorem setDom_chim (s : State) (d : DomainId) (x : DomState) : (s.setDom d x).chim = s.chim := rfl
@[simp] theorem setDom_lanes (s : State) (d : DomainId) (x : DomState) : (s.setDom d x).lanes = s.lanes := rfl
@[simp] theorem setDom_tapMoves (s : State) (d : DomainId) (x : DomState) : (s.setDom d x).tapMoves = s.tapMoves := rfl
@[simp] theorem setDom_tests (s : State) (d : DomainId) (x : DomState) : (s.setDom d x).tests = s.tests := rfl
@[simp] theorem setDom_testSeen (s : State) (d : DomainId) (x : DomState) : (s.setDom d x).testSeen = s.testSeen := rfl
@[simp] theorem setDom_tap (s : State) (d : DomainId) (x : DomState) : (s.setDom d x).tap = s.tap := rfl
@[simp] theorem setDom_faultPrev (s : State) (d : DomainId) (x : DomState) : (s.setDom d x).faultPrev = s.faultPrev := rfl

/-! ### `modFlue` -/

@[simp] theorem modFlue_pending (s : State) (f : FlueId) (g : Flue → Flue) : (s.modFlue f g).pending = s.pending := by cases f <;> rfl
@[simp] theorem modFlue_nextId (s : State) (f : FlueId) (g : Flue → Flue) : (s.modFlue f g).nextId = s.nextId := by cases f <;> rfl
@[simp] theorem modFlue_wake (s : State) (f : FlueId) (g : Flue → Flue) : (s.modFlue f g).wake = s.wake := by cases f <;> rfl
@[simp] theorem modFlue_upNow (s : State) (f : FlueId) (g : Flue → Flue) : (s.modFlue f g).upNow = s.upNow := by cases f <;> rfl
@[simp] theorem modFlue_clk (s : State) (f : FlueId) (g : Flue → Flue) : (s.modFlue f g).clk = s.clk := by cases f <;> rfl
@[simp] theorem modFlue_island (s : State) (f : FlueId) (g : Flue → Flue) : (s.modFlue f g).island = s.island := by cases f <;> rfl
@[simp] theorem modFlue_straps (s : State) (f : FlueId) (g : Flue → Flue) : (s.modFlue f g).straps = s.straps := by cases f <;> rfl
@[simp] theorem modFlue_mode (s : State) (f : FlueId) (g : Flue → Flue) : (s.modFlue f g).mode = s.mode := by cases f <;> rfl
@[simp] theorem modFlue_strapMode (s : State) (f : FlueId) (g : Flue → Flue) : (s.modFlue f g).strapMode = s.strapMode := by cases f <;> rfl
@[simp] theorem modFlue_slotPower (s : State) (f : FlueId) (g : Flue → Flue) : (s.modFlue f g).slotPower = s.slotPower := by cases f <;> rfl
@[simp] theorem modFlue_gate (s : State) (f : FlueId) (g : Flue → Flue) : (s.modFlue f g).gate = s.gate := by cases f <;> rfl
@[simp] theorem modFlue_readyOnce (s : State) (f : FlueId) (g : Flue → Flue) : (s.modFlue f g).readyOnce = s.readyOnce := by cases f <;> rfl
@[simp] theorem modFlue_cfg (s : State) (f : FlueId) (g : Flue → Flue) : (s.modFlue f g).cfg = s.cfg := by cases f <;> rfl
@[simp] theorem modFlue_prot (s : State) (f : FlueId) (g : Flue → Flue) : (s.modFlue f g).prot = s.prot := by cases f <;> rfl
@[simp] theorem modFlue_doms (s : State) (f : FlueId) (g : Flue → Flue) : (s.modFlue f g).doms = s.doms := by cases f <;> rfl
@[simp] theorem modFlue_ledger (s : State) (f : FlueId) (g : Flue → Flue) : (s.modFlue f g).ledger = s.ledger := by cases f <;> rfl
@[simp] theorem modFlue_items (s : State) (f : FlueId) (g : Flue → Flue) : (s.modFlue f g).items = s.items := by cases f <;> rfl
@[simp] theorem modFlue_link (s : State) (f : FlueId) (g : Flue → Flue) : (s.modFlue f g).link = s.link := by cases f <;> rfl
@[simp] theorem modFlue_dll (s : State) (f : FlueId) (g : Flue → Flue) : (s.modFlue f g).dll = s.dll := by cases f <;> rfl
@[simp] theorem modFlue_fc (s : State) (f : FlueId) (g : Flue → Flue) : (s.modFlue f g).fc = s.fc := by cases f <;> rfl
@[simp] theorem modFlue_txq (s : State) (f : FlueId) (g : Flue → Flue) : (s.modFlue f g).txq = s.txq := by cases f <;> rfl
@[simp] theorem modFlue_reqs (s : State) (f : FlueId) (g : Flue → Flue) : (s.modFlue f g).reqs = s.reqs := by cases f <;> rfl
@[simp] theorem modFlue_tags (s : State) (f : FlueId) (g : Flue → Flue) : (s.modFlue f g).tags = s.tags := by cases f <;> rfl
@[simp] theorem modFlue_fns (s : State) (f : FlueId) (g : Flue → Flue) : (s.modFlue f g).fns = s.fns := by cases f <;> rfl
@[simp] theorem modFlue_hearths (s : State) (f : FlueId) (g : Flue → Flue) : (s.modFlue f g).hearths = s.hearths := by cases f <;> rfl
@[simp] theorem modFlue_sw (s : State) (f : FlueId) (g : Flue → Flue) : (s.modFlue f g).sw = s.sw := by cases f <;> rfl
@[simp] theorem modFlue_stone (s : State) (f : FlueId) (g : Flue → Flue) : (s.modFlue f g).stone = s.stone := by cases f <;> rfl
@[simp] theorem modFlue_banks (s : State) (f : FlueId) (g : Flue → Flue) : (s.modFlue f g).banks = s.banks := by cases f <;> rfl
@[simp] theorem modFlue_lockEnds (s : State) (f : FlueId) (g : Flue → Flue) : (s.modFlue f g).lockEnds = s.lockEnds := by cases f <;> rfl
@[simp] theorem modFlue_xtags (s : State) (f : FlueId) (g : Flue → Flue) : (s.modFlue f g).xtags = s.xtags := by cases f <;> rfl
@[simp] theorem modFlue_sampler (s : State) (f : FlueId) (g : Flue → Flue) : (s.modFlue f g).sampler = s.sampler := by cases f <;> rfl
@[simp] theorem modFlue_soot (s : State) (f : FlueId) (g : Flue → Flue) : (s.modFlue f g).soot = s.soot := by cases f <;> rfl
@[simp] theorem modFlue_irq (s : State) (f : FlueId) (g : Flue → Flue) : (s.modFlue f g).irq = s.irq := by cases f <;> rfl
@[simp] theorem modFlue_chim (s : State) (f : FlueId) (g : Flue → Flue) : (s.modFlue f g).chim = s.chim := by cases f <;> rfl
@[simp] theorem modFlue_lanes (s : State) (f : FlueId) (g : Flue → Flue) : (s.modFlue f g).lanes = s.lanes := by cases f <;> rfl
@[simp] theorem modFlue_tapMoves (s : State) (f : FlueId) (g : Flue → Flue) : (s.modFlue f g).tapMoves = s.tapMoves := by cases f <;> rfl
@[simp] theorem modFlue_tests (s : State) (f : FlueId) (g : Flue → Flue) : (s.modFlue f g).tests = s.tests := by cases f <;> rfl
@[simp] theorem modFlue_testSeen (s : State) (f : FlueId) (g : Flue → Flue) : (s.modFlue f g).testSeen = s.testSeen := by cases f <;> rfl
@[simp] theorem modFlue_tap (s : State) (f : FlueId) (g : Flue → Flue) : (s.modFlue f g).tap = s.tap := by cases f <;> rfl
@[simp] theorem modFlue_faultPrev (s : State) (f : FlueId) (g : Flue → Flue) : (s.modFlue f g).faultPrev = s.faultPrev := by cases f <;> rfl

/-! ### `modLane` -/

@[simp] theorem modLane_pending (s : State) (l : LaneId) (g : Lane → Lane) : (s.modLane l g).pending = s.pending := rfl
@[simp] theorem modLane_nextId (s : State) (l : LaneId) (g : Lane → Lane) : (s.modLane l g).nextId = s.nextId := rfl
@[simp] theorem modLane_wake (s : State) (l : LaneId) (g : Lane → Lane) : (s.modLane l g).wake = s.wake := rfl
@[simp] theorem modLane_upNow (s : State) (l : LaneId) (g : Lane → Lane) : (s.modLane l g).upNow = s.upNow := rfl
@[simp] theorem modLane_clk (s : State) (l : LaneId) (g : Lane → Lane) : (s.modLane l g).clk = s.clk := rfl
@[simp] theorem modLane_island (s : State) (l : LaneId) (g : Lane → Lane) : (s.modLane l g).island = s.island := rfl
@[simp] theorem modLane_straps (s : State) (l : LaneId) (g : Lane → Lane) : (s.modLane l g).straps = s.straps := rfl
@[simp] theorem modLane_mode (s : State) (l : LaneId) (g : Lane → Lane) : (s.modLane l g).mode = s.mode := rfl
@[simp] theorem modLane_strapMode (s : State) (l : LaneId) (g : Lane → Lane) : (s.modLane l g).strapMode = s.strapMode := rfl
@[simp] theorem modLane_slotPower (s : State) (l : LaneId) (g : Lane → Lane) : (s.modLane l g).slotPower = s.slotPower := rfl
@[simp] theorem modLane_gate (s : State) (l : LaneId) (g : Lane → Lane) : (s.modLane l g).gate = s.gate := rfl
@[simp] theorem modLane_readyOnce (s : State) (l : LaneId) (g : Lane → Lane) : (s.modLane l g).readyOnce = s.readyOnce := rfl
@[simp] theorem modLane_cfg (s : State) (l : LaneId) (g : Lane → Lane) : (s.modLane l g).cfg = s.cfg := rfl
@[simp] theorem modLane_prot (s : State) (l : LaneId) (g : Lane → Lane) : (s.modLane l g).prot = s.prot := rfl
@[simp] theorem modLane_doms (s : State) (l : LaneId) (g : Lane → Lane) : (s.modLane l g).doms = s.doms := rfl
@[simp] theorem modLane_ledger (s : State) (l : LaneId) (g : Lane → Lane) : (s.modLane l g).ledger = s.ledger := rfl
@[simp] theorem modLane_items (s : State) (l : LaneId) (g : Lane → Lane) : (s.modLane l g).items = s.items := rfl
@[simp] theorem modLane_link (s : State) (l : LaneId) (g : Lane → Lane) : (s.modLane l g).link = s.link := rfl
@[simp] theorem modLane_dll (s : State) (l : LaneId) (g : Lane → Lane) : (s.modLane l g).dll = s.dll := rfl
@[simp] theorem modLane_fc (s : State) (l : LaneId) (g : Lane → Lane) : (s.modLane l g).fc = s.fc := rfl
@[simp] theorem modLane_txq (s : State) (l : LaneId) (g : Lane → Lane) : (s.modLane l g).txq = s.txq := rfl
@[simp] theorem modLane_reqs (s : State) (l : LaneId) (g : Lane → Lane) : (s.modLane l g).reqs = s.reqs := rfl
@[simp] theorem modLane_tags (s : State) (l : LaneId) (g : Lane → Lane) : (s.modLane l g).tags = s.tags := rfl
@[simp] theorem modLane_fns (s : State) (l : LaneId) (g : Lane → Lane) : (s.modLane l g).fns = s.fns := rfl
@[simp] theorem modLane_hearths (s : State) (l : LaneId) (g : Lane → Lane) : (s.modLane l g).hearths = s.hearths := rfl
@[simp] theorem modLane_sw (s : State) (l : LaneId) (g : Lane → Lane) : (s.modLane l g).sw = s.sw := rfl
@[simp] theorem modLane_stone (s : State) (l : LaneId) (g : Lane → Lane) : (s.modLane l g).stone = s.stone := rfl
@[simp] theorem modLane_banks (s : State) (l : LaneId) (g : Lane → Lane) : (s.modLane l g).banks = s.banks := rfl
@[simp] theorem modLane_lockEnds (s : State) (l : LaneId) (g : Lane → Lane) : (s.modLane l g).lockEnds = s.lockEnds := rfl
@[simp] theorem modLane_xtags (s : State) (l : LaneId) (g : Lane → Lane) : (s.modLane l g).xtags = s.xtags := rfl
@[simp] theorem modLane_sampler (s : State) (l : LaneId) (g : Lane → Lane) : (s.modLane l g).sampler = s.sampler := rfl
@[simp] theorem modLane_soot (s : State) (l : LaneId) (g : Lane → Lane) : (s.modLane l g).soot = s.soot := rfl
@[simp] theorem modLane_irq (s : State) (l : LaneId) (g : Lane → Lane) : (s.modLane l g).irq = s.irq := rfl
@[simp] theorem modLane_flueA (s : State) (l : LaneId) (g : Lane → Lane) : (s.modLane l g).flueA = s.flueA := rfl
@[simp] theorem modLane_flueB (s : State) (l : LaneId) (g : Lane → Lane) : (s.modLane l g).flueB = s.flueB := rfl
@[simp] theorem modLane_chim (s : State) (l : LaneId) (g : Lane → Lane) : (s.modLane l g).chim = s.chim := rfl
@[simp] theorem modLane_tapMoves (s : State) (l : LaneId) (g : Lane → Lane) : (s.modLane l g).tapMoves = s.tapMoves := rfl
@[simp] theorem modLane_tests (s : State) (l : LaneId) (g : Lane → Lane) : (s.modLane l g).tests = s.tests := rfl
@[simp] theorem modLane_testSeen (s : State) (l : LaneId) (g : Lane → Lane) : (s.modLane l g).testSeen = s.testSeen := rfl
@[simp] theorem modLane_tap (s : State) (l : LaneId) (g : Lane → Lane) : (s.modLane l g).tap = s.tap := rfl
@[simp] theorem modLane_faultPrev (s : State) (l : LaneId) (g : Lane → Lane) : (s.modLane l g).faultPrev = s.faultPrev := rfl

/-! ### `modTest` -/

@[simp] theorem modTest_pending (s : State) (l : LaneId) (g : TestLane → TestLane) : (s.modTest l g).pending = s.pending := rfl
@[simp] theorem modTest_nextId (s : State) (l : LaneId) (g : TestLane → TestLane) : (s.modTest l g).nextId = s.nextId := rfl
@[simp] theorem modTest_wake (s : State) (l : LaneId) (g : TestLane → TestLane) : (s.modTest l g).wake = s.wake := rfl
@[simp] theorem modTest_upNow (s : State) (l : LaneId) (g : TestLane → TestLane) : (s.modTest l g).upNow = s.upNow := rfl
@[simp] theorem modTest_clk (s : State) (l : LaneId) (g : TestLane → TestLane) : (s.modTest l g).clk = s.clk := rfl
@[simp] theorem modTest_island (s : State) (l : LaneId) (g : TestLane → TestLane) : (s.modTest l g).island = s.island := rfl
@[simp] theorem modTest_straps (s : State) (l : LaneId) (g : TestLane → TestLane) : (s.modTest l g).straps = s.straps := rfl
@[simp] theorem modTest_mode (s : State) (l : LaneId) (g : TestLane → TestLane) : (s.modTest l g).mode = s.mode := rfl
@[simp] theorem modTest_strapMode (s : State) (l : LaneId) (g : TestLane → TestLane) : (s.modTest l g).strapMode = s.strapMode := rfl
@[simp] theorem modTest_slotPower (s : State) (l : LaneId) (g : TestLane → TestLane) : (s.modTest l g).slotPower = s.slotPower := rfl
@[simp] theorem modTest_gate (s : State) (l : LaneId) (g : TestLane → TestLane) : (s.modTest l g).gate = s.gate := rfl
@[simp] theorem modTest_readyOnce (s : State) (l : LaneId) (g : TestLane → TestLane) : (s.modTest l g).readyOnce = s.readyOnce := rfl
@[simp] theorem modTest_cfg (s : State) (l : LaneId) (g : TestLane → TestLane) : (s.modTest l g).cfg = s.cfg := rfl
@[simp] theorem modTest_prot (s : State) (l : LaneId) (g : TestLane → TestLane) : (s.modTest l g).prot = s.prot := rfl
@[simp] theorem modTest_doms (s : State) (l : LaneId) (g : TestLane → TestLane) : (s.modTest l g).doms = s.doms := rfl
@[simp] theorem modTest_ledger (s : State) (l : LaneId) (g : TestLane → TestLane) : (s.modTest l g).ledger = s.ledger := rfl
@[simp] theorem modTest_items (s : State) (l : LaneId) (g : TestLane → TestLane) : (s.modTest l g).items = s.items := rfl
@[simp] theorem modTest_link (s : State) (l : LaneId) (g : TestLane → TestLane) : (s.modTest l g).link = s.link := rfl
@[simp] theorem modTest_dll (s : State) (l : LaneId) (g : TestLane → TestLane) : (s.modTest l g).dll = s.dll := rfl
@[simp] theorem modTest_fc (s : State) (l : LaneId) (g : TestLane → TestLane) : (s.modTest l g).fc = s.fc := rfl
@[simp] theorem modTest_txq (s : State) (l : LaneId) (g : TestLane → TestLane) : (s.modTest l g).txq = s.txq := rfl
@[simp] theorem modTest_reqs (s : State) (l : LaneId) (g : TestLane → TestLane) : (s.modTest l g).reqs = s.reqs := rfl
@[simp] theorem modTest_tags (s : State) (l : LaneId) (g : TestLane → TestLane) : (s.modTest l g).tags = s.tags := rfl
@[simp] theorem modTest_fns (s : State) (l : LaneId) (g : TestLane → TestLane) : (s.modTest l g).fns = s.fns := rfl
@[simp] theorem modTest_hearths (s : State) (l : LaneId) (g : TestLane → TestLane) : (s.modTest l g).hearths = s.hearths := rfl
@[simp] theorem modTest_sw (s : State) (l : LaneId) (g : TestLane → TestLane) : (s.modTest l g).sw = s.sw := rfl
@[simp] theorem modTest_stone (s : State) (l : LaneId) (g : TestLane → TestLane) : (s.modTest l g).stone = s.stone := rfl
@[simp] theorem modTest_banks (s : State) (l : LaneId) (g : TestLane → TestLane) : (s.modTest l g).banks = s.banks := rfl
@[simp] theorem modTest_lockEnds (s : State) (l : LaneId) (g : TestLane → TestLane) : (s.modTest l g).lockEnds = s.lockEnds := rfl
@[simp] theorem modTest_xtags (s : State) (l : LaneId) (g : TestLane → TestLane) : (s.modTest l g).xtags = s.xtags := rfl
@[simp] theorem modTest_sampler (s : State) (l : LaneId) (g : TestLane → TestLane) : (s.modTest l g).sampler = s.sampler := rfl
@[simp] theorem modTest_soot (s : State) (l : LaneId) (g : TestLane → TestLane) : (s.modTest l g).soot = s.soot := rfl
@[simp] theorem modTest_irq (s : State) (l : LaneId) (g : TestLane → TestLane) : (s.modTest l g).irq = s.irq := rfl
@[simp] theorem modTest_flueA (s : State) (l : LaneId) (g : TestLane → TestLane) : (s.modTest l g).flueA = s.flueA := rfl
@[simp] theorem modTest_flueB (s : State) (l : LaneId) (g : TestLane → TestLane) : (s.modTest l g).flueB = s.flueB := rfl
@[simp] theorem modTest_chim (s : State) (l : LaneId) (g : TestLane → TestLane) : (s.modTest l g).chim = s.chim := rfl
@[simp] theorem modTest_lanes (s : State) (l : LaneId) (g : TestLane → TestLane) : (s.modTest l g).lanes = s.lanes := rfl
@[simp] theorem modTest_tapMoves (s : State) (l : LaneId) (g : TestLane → TestLane) : (s.modTest l g).tapMoves = s.tapMoves := rfl
@[simp] theorem modTest_testSeen (s : State) (l : LaneId) (g : TestLane → TestLane) : (s.modTest l g).testSeen = s.testSeen := rfl
@[simp] theorem modTest_tap (s : State) (l : LaneId) (g : TestLane → TestLane) : (s.modTest l g).tap = s.tap := rfl
@[simp] theorem modTest_faultPrev (s : State) (l : LaneId) (g : TestLane → TestLane) : (s.modTest l g).faultPrev = s.faultPrev := rfl

/-! ### `woken` -/

@[simp] theorem woken_pending (s : State) : s.woken.pending = s.pending := rfl
@[simp] theorem woken_nextId (s : State) : s.woken.nextId = s.nextId := rfl
@[simp] theorem woken_upNow (s : State) : s.woken.upNow = s.upNow := rfl
@[simp] theorem woken_clk (s : State) : s.woken.clk = s.clk := rfl
@[simp] theorem woken_island (s : State) : s.woken.island = s.island := rfl
@[simp] theorem woken_straps (s : State) : s.woken.straps = s.straps := rfl
@[simp] theorem woken_mode (s : State) : s.woken.mode = s.mode := rfl
@[simp] theorem woken_strapMode (s : State) : s.woken.strapMode = s.strapMode := rfl
@[simp] theorem woken_slotPower (s : State) : s.woken.slotPower = s.slotPower := rfl
@[simp] theorem woken_gate (s : State) : s.woken.gate = s.gate := rfl
@[simp] theorem woken_readyOnce (s : State) : s.woken.readyOnce = s.readyOnce := rfl
@[simp] theorem woken_cfg (s : State) : s.woken.cfg = s.cfg := rfl
@[simp] theorem woken_prot (s : State) : s.woken.prot = s.prot := rfl
@[simp] theorem woken_doms (s : State) : s.woken.doms = s.doms := rfl
@[simp] theorem woken_ledger (s : State) : s.woken.ledger = s.ledger := rfl
@[simp] theorem woken_items (s : State) : s.woken.items = s.items := rfl
@[simp] theorem woken_link (s : State) : s.woken.link = s.link := rfl
@[simp] theorem woken_dll (s : State) : s.woken.dll = s.dll := rfl
@[simp] theorem woken_fc (s : State) : s.woken.fc = s.fc := rfl
@[simp] theorem woken_txq (s : State) : s.woken.txq = s.txq := rfl
@[simp] theorem woken_reqs (s : State) : s.woken.reqs = s.reqs := rfl
@[simp] theorem woken_tags (s : State) : s.woken.tags = s.tags := rfl
@[simp] theorem woken_fns (s : State) : s.woken.fns = s.fns := rfl
@[simp] theorem woken_hearths (s : State) : s.woken.hearths = s.hearths := rfl
@[simp] theorem woken_sw (s : State) : s.woken.sw = s.sw := rfl
@[simp] theorem woken_stone (s : State) : s.woken.stone = s.stone := rfl
@[simp] theorem woken_banks (s : State) : s.woken.banks = s.banks := rfl
@[simp] theorem woken_lockEnds (s : State) : s.woken.lockEnds = s.lockEnds := rfl
@[simp] theorem woken_xtags (s : State) : s.woken.xtags = s.xtags := rfl
@[simp] theorem woken_sampler (s : State) : s.woken.sampler = s.sampler := rfl
@[simp] theorem woken_soot (s : State) : s.woken.soot = s.soot := rfl
@[simp] theorem woken_irq (s : State) : s.woken.irq = s.irq := rfl
@[simp] theorem woken_flueA (s : State) : s.woken.flueA = s.flueA := rfl
@[simp] theorem woken_flueB (s : State) : s.woken.flueB = s.flueB := rfl
@[simp] theorem woken_chim (s : State) : s.woken.chim = s.chim := rfl
@[simp] theorem woken_lanes (s : State) : s.woken.lanes = s.lanes := rfl
@[simp] theorem woken_tapMoves (s : State) : s.woken.tapMoves = s.tapMoves := rfl
@[simp] theorem woken_tests (s : State) : s.woken.tests = s.tests := rfl
@[simp] theorem woken_testSeen (s : State) : s.woken.testSeen = s.testSeen := rfl
@[simp] theorem woken_tap (s : State) : s.woken.tap = s.tap := rfl
@[simp] theorem woken_faultPrev (s : State) : s.woken.faultPrev = s.faultPrev := rfl

/-! ### `presentService` -/

@[simp] theorem presentService_pending (s : State) (port : PortId) (path : List DomainId) (cost : Nat) (w : Work) : (s.presentService port path cost w).pending = s.pending := rfl
@[simp] theorem presentService_upNow (s : State) (port : PortId) (path : List DomainId) (cost : Nat) (w : Work) : (s.presentService port path cost w).upNow = s.upNow := rfl
@[simp] theorem presentService_clk (s : State) (port : PortId) (path : List DomainId) (cost : Nat) (w : Work) : (s.presentService port path cost w).clk = s.clk := rfl
@[simp] theorem presentService_island (s : State) (port : PortId) (path : List DomainId) (cost : Nat) (w : Work) : (s.presentService port path cost w).island = s.island := rfl
@[simp] theorem presentService_straps (s : State) (port : PortId) (path : List DomainId) (cost : Nat) (w : Work) : (s.presentService port path cost w).straps = s.straps := rfl
@[simp] theorem presentService_mode (s : State) (port : PortId) (path : List DomainId) (cost : Nat) (w : Work) : (s.presentService port path cost w).mode = s.mode := rfl
@[simp] theorem presentService_strapMode (s : State) (port : PortId) (path : List DomainId) (cost : Nat) (w : Work) : (s.presentService port path cost w).strapMode = s.strapMode := rfl
@[simp] theorem presentService_slotPower (s : State) (port : PortId) (path : List DomainId) (cost : Nat) (w : Work) : (s.presentService port path cost w).slotPower = s.slotPower := rfl
@[simp] theorem presentService_gate (s : State) (port : PortId) (path : List DomainId) (cost : Nat) (w : Work) : (s.presentService port path cost w).gate = s.gate := rfl
@[simp] theorem presentService_readyOnce (s : State) (port : PortId) (path : List DomainId) (cost : Nat) (w : Work) : (s.presentService port path cost w).readyOnce = s.readyOnce := rfl
@[simp] theorem presentService_cfg (s : State) (port : PortId) (path : List DomainId) (cost : Nat) (w : Work) : (s.presentService port path cost w).cfg = s.cfg := rfl
@[simp] theorem presentService_prot (s : State) (port : PortId) (path : List DomainId) (cost : Nat) (w : Work) : (s.presentService port path cost w).prot = s.prot := rfl
@[simp] theorem presentService_doms (s : State) (port : PortId) (path : List DomainId) (cost : Nat) (w : Work) : (s.presentService port path cost w).doms = s.doms := rfl
@[simp] theorem presentService_ledger (s : State) (port : PortId) (path : List DomainId) (cost : Nat) (w : Work) : (s.presentService port path cost w).ledger = s.ledger := rfl
@[simp] theorem presentService_link (s : State) (port : PortId) (path : List DomainId) (cost : Nat) (w : Work) : (s.presentService port path cost w).link = s.link := rfl
@[simp] theorem presentService_dll (s : State) (port : PortId) (path : List DomainId) (cost : Nat) (w : Work) : (s.presentService port path cost w).dll = s.dll := rfl
@[simp] theorem presentService_fc (s : State) (port : PortId) (path : List DomainId) (cost : Nat) (w : Work) : (s.presentService port path cost w).fc = s.fc := rfl
@[simp] theorem presentService_txq (s : State) (port : PortId) (path : List DomainId) (cost : Nat) (w : Work) : (s.presentService port path cost w).txq = s.txq := rfl
@[simp] theorem presentService_reqs (s : State) (port : PortId) (path : List DomainId) (cost : Nat) (w : Work) : (s.presentService port path cost w).reqs = s.reqs := rfl
@[simp] theorem presentService_tags (s : State) (port : PortId) (path : List DomainId) (cost : Nat) (w : Work) : (s.presentService port path cost w).tags = s.tags := rfl
@[simp] theorem presentService_fns (s : State) (port : PortId) (path : List DomainId) (cost : Nat) (w : Work) : (s.presentService port path cost w).fns = s.fns := rfl
@[simp] theorem presentService_hearths (s : State) (port : PortId) (path : List DomainId) (cost : Nat) (w : Work) : (s.presentService port path cost w).hearths = s.hearths := rfl
@[simp] theorem presentService_sw (s : State) (port : PortId) (path : List DomainId) (cost : Nat) (w : Work) : (s.presentService port path cost w).sw = s.sw := rfl
@[simp] theorem presentService_stone (s : State) (port : PortId) (path : List DomainId) (cost : Nat) (w : Work) : (s.presentService port path cost w).stone = s.stone := rfl
@[simp] theorem presentService_banks (s : State) (port : PortId) (path : List DomainId) (cost : Nat) (w : Work) : (s.presentService port path cost w).banks = s.banks := rfl
@[simp] theorem presentService_lockEnds (s : State) (port : PortId) (path : List DomainId) (cost : Nat) (w : Work) : (s.presentService port path cost w).lockEnds = s.lockEnds := rfl
@[simp] theorem presentService_xtags (s : State) (port : PortId) (path : List DomainId) (cost : Nat) (w : Work) : (s.presentService port path cost w).xtags = s.xtags := rfl
@[simp] theorem presentService_sampler (s : State) (port : PortId) (path : List DomainId) (cost : Nat) (w : Work) : (s.presentService port path cost w).sampler = s.sampler := rfl
@[simp] theorem presentService_soot (s : State) (port : PortId) (path : List DomainId) (cost : Nat) (w : Work) : (s.presentService port path cost w).soot = s.soot := rfl
@[simp] theorem presentService_irq (s : State) (port : PortId) (path : List DomainId) (cost : Nat) (w : Work) : (s.presentService port path cost w).irq = s.irq := rfl
@[simp] theorem presentService_flueA (s : State) (port : PortId) (path : List DomainId) (cost : Nat) (w : Work) : (s.presentService port path cost w).flueA = s.flueA := rfl
@[simp] theorem presentService_flueB (s : State) (port : PortId) (path : List DomainId) (cost : Nat) (w : Work) : (s.presentService port path cost w).flueB = s.flueB := rfl
@[simp] theorem presentService_chim (s : State) (port : PortId) (path : List DomainId) (cost : Nat) (w : Work) : (s.presentService port path cost w).chim = s.chim := rfl
@[simp] theorem presentService_lanes (s : State) (port : PortId) (path : List DomainId) (cost : Nat) (w : Work) : (s.presentService port path cost w).lanes = s.lanes := rfl
@[simp] theorem presentService_tapMoves (s : State) (port : PortId) (path : List DomainId) (cost : Nat) (w : Work) : (s.presentService port path cost w).tapMoves = s.tapMoves := rfl
@[simp] theorem presentService_tests (s : State) (port : PortId) (path : List DomainId) (cost : Nat) (w : Work) : (s.presentService port path cost w).tests = s.tests := rfl
@[simp] theorem presentService_testSeen (s : State) (port : PortId) (path : List DomainId) (cost : Nat) (w : Work) : (s.presentService port path cost w).testSeen = s.testSeen := rfl
@[simp] theorem presentService_tap (s : State) (port : PortId) (path : List DomainId) (cost : Nat) (w : Work) : (s.presentService port path cost w).tap = s.tap := rfl
@[simp] theorem presentService_faultPrev (s : State) (port : PortId) (path : List DomainId) (cost : Nat) (w : Work) : (s.presentService port path cost w).faultPrev = s.faultPrev := rfl

/-! ### `presentHost` -/

@[simp] theorem presentHost_pending (s : State) (port : PortId) (path : List DomainId) (cost : Nat) (w : Work) : (s.presentHost port path cost w).pending = s.pending := rfl
@[simp] theorem presentHost_upNow (s : State) (port : PortId) (path : List DomainId) (cost : Nat) (w : Work) : (s.presentHost port path cost w).upNow = s.upNow := rfl
@[simp] theorem presentHost_clk (s : State) (port : PortId) (path : List DomainId) (cost : Nat) (w : Work) : (s.presentHost port path cost w).clk = s.clk := rfl
@[simp] theorem presentHost_island (s : State) (port : PortId) (path : List DomainId) (cost : Nat) (w : Work) : (s.presentHost port path cost w).island = s.island := rfl
@[simp] theorem presentHost_straps (s : State) (port : PortId) (path : List DomainId) (cost : Nat) (w : Work) : (s.presentHost port path cost w).straps = s.straps := rfl
@[simp] theorem presentHost_mode (s : State) (port : PortId) (path : List DomainId) (cost : Nat) (w : Work) : (s.presentHost port path cost w).mode = s.mode := rfl
@[simp] theorem presentHost_strapMode (s : State) (port : PortId) (path : List DomainId) (cost : Nat) (w : Work) : (s.presentHost port path cost w).strapMode = s.strapMode := rfl
@[simp] theorem presentHost_slotPower (s : State) (port : PortId) (path : List DomainId) (cost : Nat) (w : Work) : (s.presentHost port path cost w).slotPower = s.slotPower := rfl
@[simp] theorem presentHost_gate (s : State) (port : PortId) (path : List DomainId) (cost : Nat) (w : Work) : (s.presentHost port path cost w).gate = s.gate := rfl
@[simp] theorem presentHost_readyOnce (s : State) (port : PortId) (path : List DomainId) (cost : Nat) (w : Work) : (s.presentHost port path cost w).readyOnce = s.readyOnce := rfl
@[simp] theorem presentHost_cfg (s : State) (port : PortId) (path : List DomainId) (cost : Nat) (w : Work) : (s.presentHost port path cost w).cfg = s.cfg := rfl
@[simp] theorem presentHost_prot (s : State) (port : PortId) (path : List DomainId) (cost : Nat) (w : Work) : (s.presentHost port path cost w).prot = s.prot := rfl
@[simp] theorem presentHost_doms (s : State) (port : PortId) (path : List DomainId) (cost : Nat) (w : Work) : (s.presentHost port path cost w).doms = s.doms := rfl
@[simp] theorem presentHost_ledger (s : State) (port : PortId) (path : List DomainId) (cost : Nat) (w : Work) : (s.presentHost port path cost w).ledger = s.ledger := rfl
@[simp] theorem presentHost_link (s : State) (port : PortId) (path : List DomainId) (cost : Nat) (w : Work) : (s.presentHost port path cost w).link = s.link := rfl
@[simp] theorem presentHost_dll (s : State) (port : PortId) (path : List DomainId) (cost : Nat) (w : Work) : (s.presentHost port path cost w).dll = s.dll := rfl
@[simp] theorem presentHost_fc (s : State) (port : PortId) (path : List DomainId) (cost : Nat) (w : Work) : (s.presentHost port path cost w).fc = s.fc := rfl
@[simp] theorem presentHost_txq (s : State) (port : PortId) (path : List DomainId) (cost : Nat) (w : Work) : (s.presentHost port path cost w).txq = s.txq := rfl
@[simp] theorem presentHost_reqs (s : State) (port : PortId) (path : List DomainId) (cost : Nat) (w : Work) : (s.presentHost port path cost w).reqs = s.reqs := rfl
@[simp] theorem presentHost_tags (s : State) (port : PortId) (path : List DomainId) (cost : Nat) (w : Work) : (s.presentHost port path cost w).tags = s.tags := rfl
@[simp] theorem presentHost_fns (s : State) (port : PortId) (path : List DomainId) (cost : Nat) (w : Work) : (s.presentHost port path cost w).fns = s.fns := rfl
@[simp] theorem presentHost_hearths (s : State) (port : PortId) (path : List DomainId) (cost : Nat) (w : Work) : (s.presentHost port path cost w).hearths = s.hearths := rfl
@[simp] theorem presentHost_sw (s : State) (port : PortId) (path : List DomainId) (cost : Nat) (w : Work) : (s.presentHost port path cost w).sw = s.sw := rfl
@[simp] theorem presentHost_stone (s : State) (port : PortId) (path : List DomainId) (cost : Nat) (w : Work) : (s.presentHost port path cost w).stone = s.stone := rfl
@[simp] theorem presentHost_banks (s : State) (port : PortId) (path : List DomainId) (cost : Nat) (w : Work) : (s.presentHost port path cost w).banks = s.banks := rfl
@[simp] theorem presentHost_lockEnds (s : State) (port : PortId) (path : List DomainId) (cost : Nat) (w : Work) : (s.presentHost port path cost w).lockEnds = s.lockEnds := rfl
@[simp] theorem presentHost_xtags (s : State) (port : PortId) (path : List DomainId) (cost : Nat) (w : Work) : (s.presentHost port path cost w).xtags = s.xtags := rfl
@[simp] theorem presentHost_sampler (s : State) (port : PortId) (path : List DomainId) (cost : Nat) (w : Work) : (s.presentHost port path cost w).sampler = s.sampler := rfl
@[simp] theorem presentHost_soot (s : State) (port : PortId) (path : List DomainId) (cost : Nat) (w : Work) : (s.presentHost port path cost w).soot = s.soot := rfl
@[simp] theorem presentHost_irq (s : State) (port : PortId) (path : List DomainId) (cost : Nat) (w : Work) : (s.presentHost port path cost w).irq = s.irq := rfl
@[simp] theorem presentHost_flueA (s : State) (port : PortId) (path : List DomainId) (cost : Nat) (w : Work) : (s.presentHost port path cost w).flueA = s.flueA := rfl
@[simp] theorem presentHost_flueB (s : State) (port : PortId) (path : List DomainId) (cost : Nat) (w : Work) : (s.presentHost port path cost w).flueB = s.flueB := rfl
@[simp] theorem presentHost_chim (s : State) (port : PortId) (path : List DomainId) (cost : Nat) (w : Work) : (s.presentHost port path cost w).chim = s.chim := rfl
@[simp] theorem presentHost_lanes (s : State) (port : PortId) (path : List DomainId) (cost : Nat) (w : Work) : (s.presentHost port path cost w).lanes = s.lanes := rfl
@[simp] theorem presentHost_tapMoves (s : State) (port : PortId) (path : List DomainId) (cost : Nat) (w : Work) : (s.presentHost port path cost w).tapMoves = s.tapMoves := rfl
@[simp] theorem presentHost_tests (s : State) (port : PortId) (path : List DomainId) (cost : Nat) (w : Work) : (s.presentHost port path cost w).tests = s.tests := rfl
@[simp] theorem presentHost_testSeen (s : State) (port : PortId) (path : List DomainId) (cost : Nat) (w : Work) : (s.presentHost port path cost w).testSeen = s.testSeen := rfl
@[simp] theorem presentHost_tap (s : State) (port : PortId) (path : List DomainId) (cost : Nat) (w : Work) : (s.presentHost port path cost w).tap = s.tap := rfl
@[simp] theorem presentHost_faultPrev (s : State) (port : PortId) (path : List DomainId) (cost : Nat) (w : Work) : (s.presentHost port path cost w).faultPrev = s.faultPrev := rfl

/-! ### `presentSlot` -/

@[simp] theorem presentSlot_pending (s : State) (k : Fin 19) (port : PortId) (path : List DomainId) (cost : Nat) (w : Work) : (s.presentSlot k port path cost w).pending = s.pending := rfl
@[simp] theorem presentSlot_upNow (s : State) (k : Fin 19) (port : PortId) (path : List DomainId) (cost : Nat) (w : Work) : (s.presentSlot k port path cost w).upNow = s.upNow := rfl
@[simp] theorem presentSlot_clk (s : State) (k : Fin 19) (port : PortId) (path : List DomainId) (cost : Nat) (w : Work) : (s.presentSlot k port path cost w).clk = s.clk := rfl
@[simp] theorem presentSlot_island (s : State) (k : Fin 19) (port : PortId) (path : List DomainId) (cost : Nat) (w : Work) : (s.presentSlot k port path cost w).island = s.island := rfl
@[simp] theorem presentSlot_straps (s : State) (k : Fin 19) (port : PortId) (path : List DomainId) (cost : Nat) (w : Work) : (s.presentSlot k port path cost w).straps = s.straps := rfl
@[simp] theorem presentSlot_mode (s : State) (k : Fin 19) (port : PortId) (path : List DomainId) (cost : Nat) (w : Work) : (s.presentSlot k port path cost w).mode = s.mode := rfl
@[simp] theorem presentSlot_strapMode (s : State) (k : Fin 19) (port : PortId) (path : List DomainId) (cost : Nat) (w : Work) : (s.presentSlot k port path cost w).strapMode = s.strapMode := rfl
@[simp] theorem presentSlot_slotPower (s : State) (k : Fin 19) (port : PortId) (path : List DomainId) (cost : Nat) (w : Work) : (s.presentSlot k port path cost w).slotPower = s.slotPower := rfl
@[simp] theorem presentSlot_gate (s : State) (k : Fin 19) (port : PortId) (path : List DomainId) (cost : Nat) (w : Work) : (s.presentSlot k port path cost w).gate = s.gate := rfl
@[simp] theorem presentSlot_readyOnce (s : State) (k : Fin 19) (port : PortId) (path : List DomainId) (cost : Nat) (w : Work) : (s.presentSlot k port path cost w).readyOnce = s.readyOnce := rfl
@[simp] theorem presentSlot_cfg (s : State) (k : Fin 19) (port : PortId) (path : List DomainId) (cost : Nat) (w : Work) : (s.presentSlot k port path cost w).cfg = s.cfg := rfl
@[simp] theorem presentSlot_prot (s : State) (k : Fin 19) (port : PortId) (path : List DomainId) (cost : Nat) (w : Work) : (s.presentSlot k port path cost w).prot = s.prot := rfl
@[simp] theorem presentSlot_doms (s : State) (k : Fin 19) (port : PortId) (path : List DomainId) (cost : Nat) (w : Work) : (s.presentSlot k port path cost w).doms = s.doms := rfl
@[simp] theorem presentSlot_ledger (s : State) (k : Fin 19) (port : PortId) (path : List DomainId) (cost : Nat) (w : Work) : (s.presentSlot k port path cost w).ledger = s.ledger := rfl
@[simp] theorem presentSlot_link (s : State) (k : Fin 19) (port : PortId) (path : List DomainId) (cost : Nat) (w : Work) : (s.presentSlot k port path cost w).link = s.link := rfl
@[simp] theorem presentSlot_dll (s : State) (k : Fin 19) (port : PortId) (path : List DomainId) (cost : Nat) (w : Work) : (s.presentSlot k port path cost w).dll = s.dll := rfl
@[simp] theorem presentSlot_fc (s : State) (k : Fin 19) (port : PortId) (path : List DomainId) (cost : Nat) (w : Work) : (s.presentSlot k port path cost w).fc = s.fc := rfl
@[simp] theorem presentSlot_txq (s : State) (k : Fin 19) (port : PortId) (path : List DomainId) (cost : Nat) (w : Work) : (s.presentSlot k port path cost w).txq = s.txq := rfl
@[simp] theorem presentSlot_reqs (s : State) (k : Fin 19) (port : PortId) (path : List DomainId) (cost : Nat) (w : Work) : (s.presentSlot k port path cost w).reqs = s.reqs := rfl
@[simp] theorem presentSlot_tags (s : State) (k : Fin 19) (port : PortId) (path : List DomainId) (cost : Nat) (w : Work) : (s.presentSlot k port path cost w).tags = s.tags := rfl
@[simp] theorem presentSlot_fns (s : State) (k : Fin 19) (port : PortId) (path : List DomainId) (cost : Nat) (w : Work) : (s.presentSlot k port path cost w).fns = s.fns := rfl
@[simp] theorem presentSlot_hearths (s : State) (k : Fin 19) (port : PortId) (path : List DomainId) (cost : Nat) (w : Work) : (s.presentSlot k port path cost w).hearths = s.hearths := rfl
@[simp] theorem presentSlot_sw (s : State) (k : Fin 19) (port : PortId) (path : List DomainId) (cost : Nat) (w : Work) : (s.presentSlot k port path cost w).sw = s.sw := rfl
@[simp] theorem presentSlot_stone (s : State) (k : Fin 19) (port : PortId) (path : List DomainId) (cost : Nat) (w : Work) : (s.presentSlot k port path cost w).stone = s.stone := rfl
@[simp] theorem presentSlot_banks (s : State) (k : Fin 19) (port : PortId) (path : List DomainId) (cost : Nat) (w : Work) : (s.presentSlot k port path cost w).banks = s.banks := rfl
@[simp] theorem presentSlot_lockEnds (s : State) (k : Fin 19) (port : PortId) (path : List DomainId) (cost : Nat) (w : Work) : (s.presentSlot k port path cost w).lockEnds = s.lockEnds := rfl
@[simp] theorem presentSlot_xtags (s : State) (k : Fin 19) (port : PortId) (path : List DomainId) (cost : Nat) (w : Work) : (s.presentSlot k port path cost w).xtags = s.xtags := rfl
@[simp] theorem presentSlot_sampler (s : State) (k : Fin 19) (port : PortId) (path : List DomainId) (cost : Nat) (w : Work) : (s.presentSlot k port path cost w).sampler = s.sampler := rfl
@[simp] theorem presentSlot_soot (s : State) (k : Fin 19) (port : PortId) (path : List DomainId) (cost : Nat) (w : Work) : (s.presentSlot k port path cost w).soot = s.soot := rfl
@[simp] theorem presentSlot_irq (s : State) (k : Fin 19) (port : PortId) (path : List DomainId) (cost : Nat) (w : Work) : (s.presentSlot k port path cost w).irq = s.irq := rfl
@[simp] theorem presentSlot_flueA (s : State) (k : Fin 19) (port : PortId) (path : List DomainId) (cost : Nat) (w : Work) : (s.presentSlot k port path cost w).flueA = s.flueA := rfl
@[simp] theorem presentSlot_flueB (s : State) (k : Fin 19) (port : PortId) (path : List DomainId) (cost : Nat) (w : Work) : (s.presentSlot k port path cost w).flueB = s.flueB := rfl
@[simp] theorem presentSlot_chim (s : State) (k : Fin 19) (port : PortId) (path : List DomainId) (cost : Nat) (w : Work) : (s.presentSlot k port path cost w).chim = s.chim := rfl
@[simp] theorem presentSlot_lanes (s : State) (k : Fin 19) (port : PortId) (path : List DomainId) (cost : Nat) (w : Work) : (s.presentSlot k port path cost w).lanes = s.lanes := rfl
@[simp] theorem presentSlot_tapMoves (s : State) (k : Fin 19) (port : PortId) (path : List DomainId) (cost : Nat) (w : Work) : (s.presentSlot k port path cost w).tapMoves = s.tapMoves := rfl
@[simp] theorem presentSlot_tests (s : State) (k : Fin 19) (port : PortId) (path : List DomainId) (cost : Nat) (w : Work) : (s.presentSlot k port path cost w).tests = s.tests := rfl
@[simp] theorem presentSlot_testSeen (s : State) (k : Fin 19) (port : PortId) (path : List DomainId) (cost : Nat) (w : Work) : (s.presentSlot k port path cost w).testSeen = s.testSeen := rfl
@[simp] theorem presentSlot_tap (s : State) (k : Fin 19) (port : PortId) (path : List DomainId) (cost : Nat) (w : Work) : (s.presentSlot k port path cost w).tap = s.tap := rfl
@[simp] theorem presentSlot_faultPrev (s : State) (k : Fin 19) (port : PortId) (path : List DomainId) (cost : Nat) (w : Work) : (s.presentSlot k port path cost w).faultPrev = s.faultPrev := rfl

/-! ### `sendTlp` -/

@[simp] theorem sendTlp_pending (s : State) (t : TxTlp) : (s.sendTlp t).pending = s.pending := rfl
@[simp] theorem sendTlp_upNow (s : State) (t : TxTlp) : (s.sendTlp t).upNow = s.upNow := rfl
@[simp] theorem sendTlp_clk (s : State) (t : TxTlp) : (s.sendTlp t).clk = s.clk := rfl
@[simp] theorem sendTlp_island (s : State) (t : TxTlp) : (s.sendTlp t).island = s.island := rfl
@[simp] theorem sendTlp_straps (s : State) (t : TxTlp) : (s.sendTlp t).straps = s.straps := rfl
@[simp] theorem sendTlp_mode (s : State) (t : TxTlp) : (s.sendTlp t).mode = s.mode := rfl
@[simp] theorem sendTlp_strapMode (s : State) (t : TxTlp) : (s.sendTlp t).strapMode = s.strapMode := rfl
@[simp] theorem sendTlp_slotPower (s : State) (t : TxTlp) : (s.sendTlp t).slotPower = s.slotPower := rfl
@[simp] theorem sendTlp_gate (s : State) (t : TxTlp) : (s.sendTlp t).gate = s.gate := rfl
@[simp] theorem sendTlp_readyOnce (s : State) (t : TxTlp) : (s.sendTlp t).readyOnce = s.readyOnce := rfl
@[simp] theorem sendTlp_cfg (s : State) (t : TxTlp) : (s.sendTlp t).cfg = s.cfg := rfl
@[simp] theorem sendTlp_prot (s : State) (t : TxTlp) : (s.sendTlp t).prot = s.prot := rfl
@[simp] theorem sendTlp_doms (s : State) (t : TxTlp) : (s.sendTlp t).doms = s.doms := rfl
@[simp] theorem sendTlp_ledger (s : State) (t : TxTlp) : (s.sendTlp t).ledger = s.ledger := rfl
@[simp] theorem sendTlp_items (s : State) (t : TxTlp) : (s.sendTlp t).items = s.items := rfl
@[simp] theorem sendTlp_link (s : State) (t : TxTlp) : (s.sendTlp t).link = s.link := rfl
@[simp] theorem sendTlp_dll (s : State) (t : TxTlp) : (s.sendTlp t).dll = s.dll := rfl
@[simp] theorem sendTlp_fc (s : State) (t : TxTlp) : (s.sendTlp t).fc = s.fc := rfl
@[simp] theorem sendTlp_reqs (s : State) (t : TxTlp) : (s.sendTlp t).reqs = s.reqs := rfl
@[simp] theorem sendTlp_tags (s : State) (t : TxTlp) : (s.sendTlp t).tags = s.tags := rfl
@[simp] theorem sendTlp_fns (s : State) (t : TxTlp) : (s.sendTlp t).fns = s.fns := rfl
@[simp] theorem sendTlp_hearths (s : State) (t : TxTlp) : (s.sendTlp t).hearths = s.hearths := rfl
@[simp] theorem sendTlp_sw (s : State) (t : TxTlp) : (s.sendTlp t).sw = s.sw := rfl
@[simp] theorem sendTlp_stone (s : State) (t : TxTlp) : (s.sendTlp t).stone = s.stone := rfl
@[simp] theorem sendTlp_banks (s : State) (t : TxTlp) : (s.sendTlp t).banks = s.banks := rfl
@[simp] theorem sendTlp_lockEnds (s : State) (t : TxTlp) : (s.sendTlp t).lockEnds = s.lockEnds := rfl
@[simp] theorem sendTlp_xtags (s : State) (t : TxTlp) : (s.sendTlp t).xtags = s.xtags := rfl
@[simp] theorem sendTlp_sampler (s : State) (t : TxTlp) : (s.sendTlp t).sampler = s.sampler := rfl
@[simp] theorem sendTlp_soot (s : State) (t : TxTlp) : (s.sendTlp t).soot = s.soot := rfl
@[simp] theorem sendTlp_irq (s : State) (t : TxTlp) : (s.sendTlp t).irq = s.irq := rfl
@[simp] theorem sendTlp_flueA (s : State) (t : TxTlp) : (s.sendTlp t).flueA = s.flueA := rfl
@[simp] theorem sendTlp_flueB (s : State) (t : TxTlp) : (s.sendTlp t).flueB = s.flueB := rfl
@[simp] theorem sendTlp_chim (s : State) (t : TxTlp) : (s.sendTlp t).chim = s.chim := rfl
@[simp] theorem sendTlp_lanes (s : State) (t : TxTlp) : (s.sendTlp t).lanes = s.lanes := rfl
@[simp] theorem sendTlp_tapMoves (s : State) (t : TxTlp) : (s.sendTlp t).tapMoves = s.tapMoves := rfl
@[simp] theorem sendTlp_tests (s : State) (t : TxTlp) : (s.sendTlp t).tests = s.tests := rfl
@[simp] theorem sendTlp_testSeen (s : State) (t : TxTlp) : (s.sendTlp t).testSeen = s.testSeen := rfl
@[simp] theorem sendTlp_tap (s : State) (t : TxTlp) : (s.sendTlp t).tap = s.tap := rfl
@[simp] theorem sendTlp_faultPrev (s : State) (t : TxTlp) : (s.sendTlp t).faultPrev = s.faultPrev := rfl

/-! ### `push` -/

@[simp] theorem push_pending (s : State) (p : Piece) : (s.push p).pending = s.pending := rfl
@[simp] theorem push_upNow (s : State) (p : Piece) : (s.push p).upNow = s.upNow := rfl
@[simp] theorem push_clk (s : State) (p : Piece) : (s.push p).clk = s.clk := rfl
@[simp] theorem push_island (s : State) (p : Piece) : (s.push p).island = s.island := rfl
@[simp] theorem push_straps (s : State) (p : Piece) : (s.push p).straps = s.straps := rfl
@[simp] theorem push_mode (s : State) (p : Piece) : (s.push p).mode = s.mode := rfl
@[simp] theorem push_strapMode (s : State) (p : Piece) : (s.push p).strapMode = s.strapMode := rfl
@[simp] theorem push_slotPower (s : State) (p : Piece) : (s.push p).slotPower = s.slotPower := rfl
@[simp] theorem push_gate (s : State) (p : Piece) : (s.push p).gate = s.gate := rfl
@[simp] theorem push_readyOnce (s : State) (p : Piece) : (s.push p).readyOnce = s.readyOnce := rfl
@[simp] theorem push_cfg (s : State) (p : Piece) : (s.push p).cfg = s.cfg := rfl
@[simp] theorem push_prot (s : State) (p : Piece) : (s.push p).prot = s.prot := rfl
@[simp] theorem push_doms (s : State) (p : Piece) : (s.push p).doms = s.doms := rfl
@[simp] theorem push_ledger (s : State) (p : Piece) : (s.push p).ledger = s.ledger := rfl
@[simp] theorem push_items (s : State) (p : Piece) : (s.push p).items = s.items := rfl
@[simp] theorem push_link (s : State) (p : Piece) : (s.push p).link = s.link := rfl
@[simp] theorem push_dll (s : State) (p : Piece) : (s.push p).dll = s.dll := rfl
@[simp] theorem push_fc (s : State) (p : Piece) : (s.push p).fc = s.fc := rfl
@[simp] theorem push_txq (s : State) (p : Piece) : (s.push p).txq = s.txq := rfl
@[simp] theorem push_reqs (s : State) (p : Piece) : (s.push p).reqs = s.reqs := rfl
@[simp] theorem push_tags (s : State) (p : Piece) : (s.push p).tags = s.tags := rfl
@[simp] theorem push_fns (s : State) (p : Piece) : (s.push p).fns = s.fns := rfl
@[simp] theorem push_hearths (s : State) (p : Piece) : (s.push p).hearths = s.hearths := rfl
@[simp] theorem push_stone (s : State) (p : Piece) : (s.push p).stone = s.stone := rfl
@[simp] theorem push_banks (s : State) (p : Piece) : (s.push p).banks = s.banks := rfl
@[simp] theorem push_lockEnds (s : State) (p : Piece) : (s.push p).lockEnds = s.lockEnds := rfl
@[simp] theorem push_xtags (s : State) (p : Piece) : (s.push p).xtags = s.xtags := rfl
@[simp] theorem push_sampler (s : State) (p : Piece) : (s.push p).sampler = s.sampler := rfl
@[simp] theorem push_soot (s : State) (p : Piece) : (s.push p).soot = s.soot := rfl
@[simp] theorem push_irq (s : State) (p : Piece) : (s.push p).irq = s.irq := rfl
@[simp] theorem push_flueA (s : State) (p : Piece) : (s.push p).flueA = s.flueA := rfl
@[simp] theorem push_flueB (s : State) (p : Piece) : (s.push p).flueB = s.flueB := rfl
@[simp] theorem push_chim (s : State) (p : Piece) : (s.push p).chim = s.chim := rfl
@[simp] theorem push_lanes (s : State) (p : Piece) : (s.push p).lanes = s.lanes := rfl
@[simp] theorem push_tapMoves (s : State) (p : Piece) : (s.push p).tapMoves = s.tapMoves := rfl
@[simp] theorem push_tests (s : State) (p : Piece) : (s.push p).tests = s.tests := rfl
@[simp] theorem push_testSeen (s : State) (p : Piece) : (s.push p).testSeen = s.testSeen := rfl
@[simp] theorem push_tap (s : State) (p : Piece) : (s.push p).tap = s.tap := rfl
@[simp] theorem push_faultPrev (s : State) (p : Piece) : (s.push p).faultPrev = s.faultPrev := rfl

/-! ### `writeFault` -/

@[simp] theorem writeFault_pending (s : State) (e : FaultEntry) : (s.writeFault e).pending = s.pending := rfl
@[simp] theorem writeFault_nextId (s : State) (e : FaultEntry) : (s.writeFault e).nextId = s.nextId := rfl
@[simp] theorem writeFault_wake (s : State) (e : FaultEntry) : (s.writeFault e).wake = s.wake := rfl
@[simp] theorem writeFault_upNow (s : State) (e : FaultEntry) : (s.writeFault e).upNow = s.upNow := rfl
@[simp] theorem writeFault_clk (s : State) (e : FaultEntry) : (s.writeFault e).clk = s.clk := rfl
@[simp] theorem writeFault_island (s : State) (e : FaultEntry) : (s.writeFault e).island = s.island := rfl
@[simp] theorem writeFault_straps (s : State) (e : FaultEntry) : (s.writeFault e).straps = s.straps := rfl
@[simp] theorem writeFault_mode (s : State) (e : FaultEntry) : (s.writeFault e).mode = s.mode := rfl
@[simp] theorem writeFault_strapMode (s : State) (e : FaultEntry) : (s.writeFault e).strapMode = s.strapMode := rfl
@[simp] theorem writeFault_slotPower (s : State) (e : FaultEntry) : (s.writeFault e).slotPower = s.slotPower := rfl
@[simp] theorem writeFault_gate (s : State) (e : FaultEntry) : (s.writeFault e).gate = s.gate := rfl
@[simp] theorem writeFault_readyOnce (s : State) (e : FaultEntry) : (s.writeFault e).readyOnce = s.readyOnce := rfl
@[simp] theorem writeFault_cfg (s : State) (e : FaultEntry) : (s.writeFault e).cfg = s.cfg := rfl
@[simp] theorem writeFault_prot (s : State) (e : FaultEntry) : (s.writeFault e).prot = s.prot := rfl
@[simp] theorem writeFault_doms (s : State) (e : FaultEntry) : (s.writeFault e).doms = s.doms := rfl
@[simp] theorem writeFault_ledger (s : State) (e : FaultEntry) : (s.writeFault e).ledger = s.ledger := rfl
@[simp] theorem writeFault_items (s : State) (e : FaultEntry) : (s.writeFault e).items = s.items := rfl
@[simp] theorem writeFault_link (s : State) (e : FaultEntry) : (s.writeFault e).link = s.link := rfl
@[simp] theorem writeFault_dll (s : State) (e : FaultEntry) : (s.writeFault e).dll = s.dll := rfl
@[simp] theorem writeFault_fc (s : State) (e : FaultEntry) : (s.writeFault e).fc = s.fc := rfl
@[simp] theorem writeFault_txq (s : State) (e : FaultEntry) : (s.writeFault e).txq = s.txq := rfl
@[simp] theorem writeFault_reqs (s : State) (e : FaultEntry) : (s.writeFault e).reqs = s.reqs := rfl
@[simp] theorem writeFault_tags (s : State) (e : FaultEntry) : (s.writeFault e).tags = s.tags := rfl
@[simp] theorem writeFault_fns (s : State) (e : FaultEntry) : (s.writeFault e).fns = s.fns := rfl
@[simp] theorem writeFault_hearths (s : State) (e : FaultEntry) : (s.writeFault e).hearths = s.hearths := rfl
@[simp] theorem writeFault_sw (s : State) (e : FaultEntry) : (s.writeFault e).sw = s.sw := rfl
@[simp] theorem writeFault_stone (s : State) (e : FaultEntry) : (s.writeFault e).stone = s.stone := rfl
@[simp] theorem writeFault_banks (s : State) (e : FaultEntry) : (s.writeFault e).banks = s.banks := rfl
@[simp] theorem writeFault_lockEnds (s : State) (e : FaultEntry) : (s.writeFault e).lockEnds = s.lockEnds := rfl
@[simp] theorem writeFault_xtags (s : State) (e : FaultEntry) : (s.writeFault e).xtags = s.xtags := rfl
@[simp] theorem writeFault_sampler (s : State) (e : FaultEntry) : (s.writeFault e).sampler = s.sampler := rfl
@[simp] theorem writeFault_irq (s : State) (e : FaultEntry) : (s.writeFault e).irq = s.irq := rfl
@[simp] theorem writeFault_flueA (s : State) (e : FaultEntry) : (s.writeFault e).flueA = s.flueA := rfl
@[simp] theorem writeFault_flueB (s : State) (e : FaultEntry) : (s.writeFault e).flueB = s.flueB := rfl
@[simp] theorem writeFault_chim (s : State) (e : FaultEntry) : (s.writeFault e).chim = s.chim := rfl
@[simp] theorem writeFault_lanes (s : State) (e : FaultEntry) : (s.writeFault e).lanes = s.lanes := rfl
@[simp] theorem writeFault_tapMoves (s : State) (e : FaultEntry) : (s.writeFault e).tapMoves = s.tapMoves := rfl
@[simp] theorem writeFault_tests (s : State) (e : FaultEntry) : (s.writeFault e).tests = s.tests := rfl
@[simp] theorem writeFault_testSeen (s : State) (e : FaultEntry) : (s.writeFault e).testSeen = s.testSeen := rfl
@[simp] theorem writeFault_tap (s : State) (e : FaultEntry) : (s.writeFault e).tap = s.tap := rfl
@[simp] theorem writeFault_faultPrev (s : State) (e : FaultEntry) : (s.writeFault e).faultPrev = s.faultPrev := rfl

/-! ### `modReq` -/

@[simp] theorem modReq_pending (s : State) (id : Nat) (f : HostReq → HostReq) : (s.modReq id f).pending = s.pending := rfl
@[simp] theorem modReq_nextId (s : State) (id : Nat) (f : HostReq → HostReq) : (s.modReq id f).nextId = s.nextId := rfl
@[simp] theorem modReq_wake (s : State) (id : Nat) (f : HostReq → HostReq) : (s.modReq id f).wake = s.wake := rfl
@[simp] theorem modReq_upNow (s : State) (id : Nat) (f : HostReq → HostReq) : (s.modReq id f).upNow = s.upNow := rfl
@[simp] theorem modReq_clk (s : State) (id : Nat) (f : HostReq → HostReq) : (s.modReq id f).clk = s.clk := rfl
@[simp] theorem modReq_island (s : State) (id : Nat) (f : HostReq → HostReq) : (s.modReq id f).island = s.island := rfl
@[simp] theorem modReq_straps (s : State) (id : Nat) (f : HostReq → HostReq) : (s.modReq id f).straps = s.straps := rfl
@[simp] theorem modReq_mode (s : State) (id : Nat) (f : HostReq → HostReq) : (s.modReq id f).mode = s.mode := rfl
@[simp] theorem modReq_strapMode (s : State) (id : Nat) (f : HostReq → HostReq) : (s.modReq id f).strapMode = s.strapMode := rfl
@[simp] theorem modReq_slotPower (s : State) (id : Nat) (f : HostReq → HostReq) : (s.modReq id f).slotPower = s.slotPower := rfl
@[simp] theorem modReq_gate (s : State) (id : Nat) (f : HostReq → HostReq) : (s.modReq id f).gate = s.gate := rfl
@[simp] theorem modReq_readyOnce (s : State) (id : Nat) (f : HostReq → HostReq) : (s.modReq id f).readyOnce = s.readyOnce := rfl
@[simp] theorem modReq_cfg (s : State) (id : Nat) (f : HostReq → HostReq) : (s.modReq id f).cfg = s.cfg := rfl
@[simp] theorem modReq_prot (s : State) (id : Nat) (f : HostReq → HostReq) : (s.modReq id f).prot = s.prot := rfl
@[simp] theorem modReq_doms (s : State) (id : Nat) (f : HostReq → HostReq) : (s.modReq id f).doms = s.doms := rfl
@[simp] theorem modReq_ledger (s : State) (id : Nat) (f : HostReq → HostReq) : (s.modReq id f).ledger = s.ledger := rfl
@[simp] theorem modReq_items (s : State) (id : Nat) (f : HostReq → HostReq) : (s.modReq id f).items = s.items := rfl
@[simp] theorem modReq_link (s : State) (id : Nat) (f : HostReq → HostReq) : (s.modReq id f).link = s.link := rfl
@[simp] theorem modReq_dll (s : State) (id : Nat) (f : HostReq → HostReq) : (s.modReq id f).dll = s.dll := rfl
@[simp] theorem modReq_fc (s : State) (id : Nat) (f : HostReq → HostReq) : (s.modReq id f).fc = s.fc := rfl
@[simp] theorem modReq_txq (s : State) (id : Nat) (f : HostReq → HostReq) : (s.modReq id f).txq = s.txq := rfl
@[simp] theorem modReq_tags (s : State) (id : Nat) (f : HostReq → HostReq) : (s.modReq id f).tags = s.tags := rfl
@[simp] theorem modReq_fns (s : State) (id : Nat) (f : HostReq → HostReq) : (s.modReq id f).fns = s.fns := rfl
@[simp] theorem modReq_hearths (s : State) (id : Nat) (f : HostReq → HostReq) : (s.modReq id f).hearths = s.hearths := rfl
@[simp] theorem modReq_sw (s : State) (id : Nat) (f : HostReq → HostReq) : (s.modReq id f).sw = s.sw := rfl
@[simp] theorem modReq_stone (s : State) (id : Nat) (f : HostReq → HostReq) : (s.modReq id f).stone = s.stone := rfl
@[simp] theorem modReq_banks (s : State) (id : Nat) (f : HostReq → HostReq) : (s.modReq id f).banks = s.banks := rfl
@[simp] theorem modReq_lockEnds (s : State) (id : Nat) (f : HostReq → HostReq) : (s.modReq id f).lockEnds = s.lockEnds := rfl
@[simp] theorem modReq_xtags (s : State) (id : Nat) (f : HostReq → HostReq) : (s.modReq id f).xtags = s.xtags := rfl
@[simp] theorem modReq_sampler (s : State) (id : Nat) (f : HostReq → HostReq) : (s.modReq id f).sampler = s.sampler := rfl
@[simp] theorem modReq_soot (s : State) (id : Nat) (f : HostReq → HostReq) : (s.modReq id f).soot = s.soot := rfl
@[simp] theorem modReq_irq (s : State) (id : Nat) (f : HostReq → HostReq) : (s.modReq id f).irq = s.irq := rfl
@[simp] theorem modReq_flueA (s : State) (id : Nat) (f : HostReq → HostReq) : (s.modReq id f).flueA = s.flueA := rfl
@[simp] theorem modReq_flueB (s : State) (id : Nat) (f : HostReq → HostReq) : (s.modReq id f).flueB = s.flueB := rfl
@[simp] theorem modReq_chim (s : State) (id : Nat) (f : HostReq → HostReq) : (s.modReq id f).chim = s.chim := rfl
@[simp] theorem modReq_lanes (s : State) (id : Nat) (f : HostReq → HostReq) : (s.modReq id f).lanes = s.lanes := rfl
@[simp] theorem modReq_tapMoves (s : State) (id : Nat) (f : HostReq → HostReq) : (s.modReq id f).tapMoves = s.tapMoves := rfl
@[simp] theorem modReq_tests (s : State) (id : Nat) (f : HostReq → HostReq) : (s.modReq id f).tests = s.tests := rfl
@[simp] theorem modReq_testSeen (s : State) (id : Nat) (f : HostReq → HostReq) : (s.modReq id f).testSeen = s.testSeen := rfl
@[simp] theorem modReq_tap (s : State) (id : Nat) (f : HostReq → HostReq) : (s.modReq id f).tap = s.tap := rfl
@[simp] theorem modReq_faultPrev (s : State) (id : Nat) (f : HostReq → HostReq) : (s.modReq id f).faultPrev = s.faultPrev := rfl

/-! ### `emit` -/

@[simp] theorem emit_pending (s : State) (f : FlueId) (b : FlueBlk) : (s.emit f b).pending = s.pending := by cases f <;> rfl
@[simp] theorem emit_nextId (s : State) (f : FlueId) (b : FlueBlk) : (s.emit f b).nextId = s.nextId := by cases f <;> rfl
@[simp] theorem emit_wake (s : State) (f : FlueId) (b : FlueBlk) : (s.emit f b).wake = s.wake := by cases f <;> rfl
@[simp] theorem emit_upNow (s : State) (f : FlueId) (b : FlueBlk) : (s.emit f b).upNow = s.upNow := by cases f <;> rfl
@[simp] theorem emit_clk (s : State) (f : FlueId) (b : FlueBlk) : (s.emit f b).clk = s.clk := by cases f <;> rfl
@[simp] theorem emit_island (s : State) (f : FlueId) (b : FlueBlk) : (s.emit f b).island = s.island := by cases f <;> rfl
@[simp] theorem emit_straps (s : State) (f : FlueId) (b : FlueBlk) : (s.emit f b).straps = s.straps := by cases f <;> rfl
@[simp] theorem emit_mode (s : State) (f : FlueId) (b : FlueBlk) : (s.emit f b).mode = s.mode := by cases f <;> rfl
@[simp] theorem emit_strapMode (s : State) (f : FlueId) (b : FlueBlk) : (s.emit f b).strapMode = s.strapMode := by cases f <;> rfl
@[simp] theorem emit_slotPower (s : State) (f : FlueId) (b : FlueBlk) : (s.emit f b).slotPower = s.slotPower := by cases f <;> rfl
@[simp] theorem emit_gate (s : State) (f : FlueId) (b : FlueBlk) : (s.emit f b).gate = s.gate := by cases f <;> rfl
@[simp] theorem emit_readyOnce (s : State) (f : FlueId) (b : FlueBlk) : (s.emit f b).readyOnce = s.readyOnce := by cases f <;> rfl
@[simp] theorem emit_cfg (s : State) (f : FlueId) (b : FlueBlk) : (s.emit f b).cfg = s.cfg := by cases f <;> rfl
@[simp] theorem emit_prot (s : State) (f : FlueId) (b : FlueBlk) : (s.emit f b).prot = s.prot := by cases f <;> rfl
@[simp] theorem emit_doms (s : State) (f : FlueId) (b : FlueBlk) : (s.emit f b).doms = s.doms := by cases f <;> rfl
@[simp] theorem emit_ledger (s : State) (f : FlueId) (b : FlueBlk) : (s.emit f b).ledger = s.ledger := by cases f <;> rfl
@[simp] theorem emit_items (s : State) (f : FlueId) (b : FlueBlk) : (s.emit f b).items = s.items := by cases f <;> rfl
@[simp] theorem emit_link (s : State) (f : FlueId) (b : FlueBlk) : (s.emit f b).link = s.link := by cases f <;> rfl
@[simp] theorem emit_dll (s : State) (f : FlueId) (b : FlueBlk) : (s.emit f b).dll = s.dll := by cases f <;> rfl
@[simp] theorem emit_fc (s : State) (f : FlueId) (b : FlueBlk) : (s.emit f b).fc = s.fc := by cases f <;> rfl
@[simp] theorem emit_txq (s : State) (f : FlueId) (b : FlueBlk) : (s.emit f b).txq = s.txq := by cases f <;> rfl
@[simp] theorem emit_reqs (s : State) (f : FlueId) (b : FlueBlk) : (s.emit f b).reqs = s.reqs := by cases f <;> rfl
@[simp] theorem emit_tags (s : State) (f : FlueId) (b : FlueBlk) : (s.emit f b).tags = s.tags := by cases f <;> rfl
@[simp] theorem emit_fns (s : State) (f : FlueId) (b : FlueBlk) : (s.emit f b).fns = s.fns := by cases f <;> rfl
@[simp] theorem emit_hearths (s : State) (f : FlueId) (b : FlueBlk) : (s.emit f b).hearths = s.hearths := by cases f <;> rfl
@[simp] theorem emit_sw (s : State) (f : FlueId) (b : FlueBlk) : (s.emit f b).sw = s.sw := by cases f <;> rfl
@[simp] theorem emit_stone (s : State) (f : FlueId) (b : FlueBlk) : (s.emit f b).stone = s.stone := by cases f <;> rfl
@[simp] theorem emit_banks (s : State) (f : FlueId) (b : FlueBlk) : (s.emit f b).banks = s.banks := by cases f <;> rfl
@[simp] theorem emit_lockEnds (s : State) (f : FlueId) (b : FlueBlk) : (s.emit f b).lockEnds = s.lockEnds := by cases f <;> rfl
@[simp] theorem emit_xtags (s : State) (f : FlueId) (b : FlueBlk) : (s.emit f b).xtags = s.xtags := by cases f <;> rfl
@[simp] theorem emit_sampler (s : State) (f : FlueId) (b : FlueBlk) : (s.emit f b).sampler = s.sampler := by cases f <;> rfl
@[simp] theorem emit_soot (s : State) (f : FlueId) (b : FlueBlk) : (s.emit f b).soot = s.soot := by cases f <;> rfl
@[simp] theorem emit_irq (s : State) (f : FlueId) (b : FlueBlk) : (s.emit f b).irq = s.irq := by cases f <;> rfl
@[simp] theorem emit_chim (s : State) (f : FlueId) (b : FlueBlk) : (s.emit f b).chim = s.chim := by cases f <;> rfl
@[simp] theorem emit_lanes (s : State) (f : FlueId) (b : FlueBlk) : (s.emit f b).lanes = s.lanes := by cases f <;> rfl
@[simp] theorem emit_tapMoves (s : State) (f : FlueId) (b : FlueBlk) : (s.emit f b).tapMoves = s.tapMoves := by cases f <;> rfl
@[simp] theorem emit_tests (s : State) (f : FlueId) (b : FlueBlk) : (s.emit f b).tests = s.tests := by cases f <;> rfl
@[simp] theorem emit_testSeen (s : State) (f : FlueId) (b : FlueBlk) : (s.emit f b).testSeen = s.testSeen := by cases f <;> rfl
@[simp] theorem emit_tap (s : State) (f : FlueId) (b : FlueBlk) : (s.emit f b).tap = s.tap := by cases f <;> rfl
@[simp] theorem emit_faultPrev (s : State) (f : FlueId) (b : FlueBlk) : (s.emit f b).faultPrev = s.faultPrev := by cases f <;> rfl

/-! ### What each update writes -/

theorem hearth_setHearth (s : State) (n m : HearthId) (h : Hearth) :
    (s.setHearth n h).hearth m = if m = n then h else s.hearth m := vget_vset _ _ _ _

theorem hearth_modHearth (s : State) (n m : HearthId) (f : Hearth → Hearth) :
    (s.modHearth n f).hearth m = if m = n then f (s.hearth n) else s.hearth m := vget_vset _ _ _ _

@[simp] theorem hearth_modHearth_self (s : State) (n : HearthId) (f : Hearth → Hearth) :
    (s.modHearth n f).hearth n = f (s.hearth n) := vget_vset_self _ _ _

theorem hearth_modHearth_ne (s : State) (n m : HearthId) (f : Hearth → Hearth) (h : m ≠ n) :
    (s.modHearth n f).hearth m = s.hearth m := vget_vset_ne _ _ _ _ h

theorem fn_modFn (s : State) (f k : FnId) (g : FnCfg → FnCfg) :
    (s.modFn f g).fn k = if k = f then g (s.fn f) else s.fn k := vget_vset _ _ _ _

@[simp] theorem fn_modFn_self (s : State) (f : FnId) (g : FnCfg → FnCfg) : (s.modFn f g).fn f = g (s.fn f) := vget_vset_self _ _ _

theorem dom_setDom (s : State) (d e : DomainId) (x : DomState) :
    (s.setDom d x).dom e = if e = d then x else s.dom e := vget_vset _ _ _ _

@[simp] theorem dom_setDom_self (s : State) (d : DomainId) (x : DomState) : (s.setDom d x).dom d = x := vget_vset_self _ _ _

theorem lane_modLane (s : State) (l k : LaneId) (g : Lane → Lane) :
    (s.modLane l g).lane k = if k = l then g (s.lane l) else s.lane k := vget_vset _ _ _ _

@[simp] theorem lane_modLane_self (s : State) (l : LaneId) (g : Lane → Lane) : (s.modLane l g).lane l = g (s.lane l) :=
  vget_vset_self _ _ _

theorem test_modTest (s : State) (l k : LaneId) (g : TestLane → TestLane) :
    (s.modTest l g).test k = if k = l then g (s.test l) else s.test k := vget_vset _ _ _ _

@[simp] theorem test_modTest_self (s : State) (l : LaneId) (g : TestLane → TestLane) : (s.modTest l g).test l = g (s.test l) :=
  vget_vset_self _ _ _

@[simp] theorem flue_modFlue_self (s : State) (f : FlueId) (g : Flue → Flue) : (s.modFlue f g).flue f = g (s.flue f) := by
  cases f <;> rfl

@[simp] theorem flue_modFlue_other (s : State) (f : FlueId) (g : Flue → Flue) :
    (s.modFlue f g).flue (FlueId.other f) = s.flue (FlueId.other f) := by
  cases f <;> rfl

@[simp] theorem woken_wake (s : State) : s.woken.wake = true := rfl
@[simp] theorem woken_hearth (s : State) (n : HearthId) : s.woken.hearth n = s.hearth n := rfl
@[simp] theorem woken_fn (s : State) (f : FnId) : s.woken.fn f = s.fn f := rfl
@[simp] theorem woken_dom (s : State) (d : DomainId) : s.woken.dom d = s.dom d := rfl
@[simp] theorem woken_lane (s : State) (l : LaneId) : s.woken.lane l = s.lane l := rfl
@[simp] theorem woken_test (s : State) (l : LaneId) : s.woken.test l = s.test l := rfl
@[simp] theorem woken_flue (s : State) (f : FlueId) : s.woken.flue f = s.flue f := by cases f <;> rfl
@[simp] theorem sendTlp_wake (s : State) (t : TxTlp) : (s.sendTlp t).wake = true := rfl
@[simp] theorem sendTlp_txq (s : State) (t : TxTlp) : (s.sendTlp t).txq = s.txq ++ [{ t with id := s.nextId, readyAt := s.now }] := rfl
@[simp] theorem presentSlot_wake (s : State) (k : Fin 19) (port : PortId) (path : List DomainId) (cost : Nat) (w : Work) :
    (s.presentSlot k port path cost w).wake = true := rfl

end Sys2Proof.Machine
end

