-- ==== Sys2Proof/Laws/Standing.lean ====
section
/-! SUPPORT. One lemma for each operation of the work in progress (cycles, requests, pieces, interrupt changes, messages,
errors): it leaves `State.standing` alone. -/

namespace Sys2Proof.Machine

open Sys2Proof

/-- The standing part of a state given by its fields. -/
@[simp] theorem standing_mk (a0 : List Instr) (a1 : Nat) (a2 : Bool) (a3 : List DomainId) (a4 : Clock) (a5 : Island) (a6 : Straps) (a7 : Mode) (a8 : Mode) (a9 : Bool) (a10 : Bool) (a11 : Bool) (a12 : GlobalCfg) (a13 : Prot) (a14 : Vector DomState 162) (a15 : Ledger) (a16 : Items) (a17 : HostLink) (a18 : Dll) (a19 : Fc) (a20 : List TxTlp) (a21 : List HostReq) (a22 : List HostTag) (a23 : Vector FnCfg 65) (a24 : Vector Hearth 16) (a25 : Switch) (a26 : List Host.Cell) (a27 : Vector Bank 16) (a28 : List LockScope) (a29 : List (Nat × HearthId)) (a30 : Sampler) (a31 : Soot) (a32 : Irq) (a33 : Flue) (a34 : Flue) (a35 : Chimney) (a36 : Vector Lane 32) (a37 : BitVec 32) (a38 : Vector TestLane 32) (a39 : Bool) (a40 : Tap) (a41 : Bool) :
    (State.mk a0 a1 a2 a3 a4 a5 a6 a7 a8 a9 a10 a11 a12 a13 a14 a15 a16 a17 a18 a19 a20 a21 a22 a23 a24 a25 a26 a27 a28 a29 a30 a31 a32 a33 a34 a35 a36 a37 a38 a39 a40 a41).standing =
      { pending := a0, clk := a4, island := a5, straps := a6, mode := a7, strapMode := a8, slotPower := a9, gate := a10, readyOnce := a11, cfg := a12, prot := a13, doms := a14, ledger := a15, link := a17, dll := a18, tags := a22, fns := steadyFns a23, hearths := steadyHearths a24, stone := a26, flueA := a33.steady, flueB := a34.steady, lanes := a36, tapMoves := a37, tests := a38, testSeen := a39, tap := a40, faultPrev := a41} := rfl

/-- A state rebuilt from another one's parts. -/
@[simp] theorem standing_fold (t : State) :
    ({ pending := t.pending, clk := t.clk, island := t.island, straps := t.straps, mode := t.mode, strapMode := t.strapMode, slotPower := t.slotPower, gate := t.gate, readyOnce := t.readyOnce, cfg := t.cfg, prot := t.prot, doms := t.doms, ledger := t.ledger, link := t.link, dll := t.dll, tags := t.tags, fns := steadyFns t.fns, hearths := steadyHearths t.hearths, stone := t.stone, flueA := t.flueA.steady, flueB := t.flueB.steady, lanes := t.lanes, tapMoves := t.tapMoves, tests := t.tests, testSeen := t.testSeen, tap := t.tap, faultPrev := t.faultPrev } : Standing) = t.standing := rfl

theorem vmap_vset {α β : Type} {k : Nat} (f : α → β) (v : Vector α k) (i : Fin k) (x : α) (h : f x = f (vget v i)) :
    vmap (fun _ a => f a) (vset v i x) = vmap (fun _ a => f a) v := by
  apply Vector.ext
  intro j hj
  show (vmap (fun _ a => f a) (vset v i x))[(⟨j, hj⟩ : Fin k).val] = _
  simp only [vmap, Vector.getElem_ofFn, vget_vset]
  split
  · next e => rw [h, ← e]
  · rfl

theorem vmap_vmap {α β γ : Type} {k : Nat} (f : β → γ) (g : Fin k → α → β) (v : Vector α k) :
    vmap (fun _ a => f a) (vmap g v) = vmap (fun i a => f (g i a)) v := by
  apply Vector.ext
  intro j hj
  simp [vmap, vget]

theorem vmap_congr {α β : Type} {k : Nat} (f g : Fin k → α → β) (v : Vector α k) (h : ∀ i a, f i a = g i a) : vmap f v = vmap g v := by
  have e : f = g := funext fun i => funext fun a => h i a
  rw [e]

theorem steadyHearths_vmap (v : Vector Hearth 16) (f : HearthId → Hearth → Hearth) (h : ∀ k x, (f k x).steady = x.steady) :
    steadyHearths (vmap f v) = steadyHearths v := by
  unfold steadyHearths
  rw [vmap_vmap]
  apply vmap_congr
  exact h

theorem steadyFns_vmap (v : Vector FnCfg 65) (f : FnId → FnCfg → FnCfg) (h : ∀ k x, (f k x).steady = x.steady) :
    steadyFns (vmap f v) = steadyFns v := by
  unfold steadyFns
  rw [vmap_vmap]
  apply vmap_congr
  exact h

/-- One hearth, one function or one flue end replaced by one with the same steady part. -/
theorem standing_modHearth (s : State) (n : HearthId) (f : Hearth → Hearth) (h : (f (s.hearth n)).steady = (s.hearth n).steady) :
    (s.modHearth n f).standing = s.standing := by
  have e : steadyHearths (vset s.hearths n (f (s.hearth n))) = steadyHearths s.hearths := by
    unfold steadyHearths; exact vmap_vset Hearth.steady s.hearths n (f (s.hearth n)) h
  simp only [State.modHearth, State.setHearth, State.standing, e]

theorem standing_modFn (s : State) (k : FnId) (f : FnCfg → FnCfg) (h : (f (s.fn k)).steady = (s.fn k).steady) :
    (s.modFn k f).standing = s.standing := by
  have e : steadyFns (vset s.fns k (f (s.fn k))) = steadyFns s.fns := by
    unfold steadyFns; exact vmap_vset FnCfg.steady s.fns k (f (s.fn k)) h
  simp only [State.modFn, State.standing, e]

theorem standing_modFlue (s : State) (k : FlueId) (f : Flue → Flue) (h : (f (s.flue k)).steady = (s.flue k).steady) :
    (s.modFlue k f).standing = s.standing := by
  cases k <;> simp only [State.modFlue, State.standing, State.flue] at h ⊢ <;> rw [h]

theorem standing_mapFns (s : State) (f : FnId → FnCfg → FnCfg) (h : ∀ k c, (f k c).steady = c.steady) :
    ({ s with fns := vmap f s.fns } : State).standing = s.standing := by
  have e : steadyFns (vmap f s.fns) = steadyFns s.fns := by
    exact steadyFns_vmap _ _ h
  simp only [State.standing, e]

theorem standing_mapHearths (s : State) (f : HearthId → Hearth → Hearth) (h : ∀ k c, (f k c).steady = c.steady) :
    ({ s with hearths := vmap f s.hearths } : State).standing = s.standing := by
  have e : steadyHearths (vmap f s.hearths) = steadyHearths s.hearths := by
    exact steadyHearths_vmap _ _ h
  simp only [State.standing, e]

theorem standing_ite (c : Prop) [Decidable c] (a b : State) :
    (if c then a else b).standing = if c then a.standing else b.standing := apply_ite _ _ _ _

theorem standing_forList {α : Type} (l : List α) (f : α → State → State) (h : ∀ x s, (f x s).standing = s.standing) (s : State) :
    (forList l f s).standing = s.standing := by
  unfold forList
  induction l generalizing s with
  | nil => rfl
  | cons x xs ih => rw [List.foldl_cons, ih, h]

theorem standing_forHearths (f : HearthId → State → State) (h : ∀ n s, (f n s).standing = s.standing) (s : State) :
    (forHearths f s).standing = s.standing := standing_forList allHearths f h s

/-! One field replaced. -/

theorem standing_setTxq (s : State) (v : List TxTlp) : ({ s with txq := v } : State).standing = s.standing := rfl
theorem standing_setReqs (s : State) (v : List HostReq) : ({ s with reqs := v } : State).standing = s.standing := rfl
theorem standing_setChim (s : State) (v : Chimney) : ({ s with chim := v } : State).standing = s.standing := rfl
theorem standing_setSoot (s : State) (v : Soot) : ({ s with soot := v } : State).standing = s.standing := rfl
theorem standing_setIrq (s : State) (v : Irq) : ({ s with irq := v } : State).standing = s.standing := rfl
theorem standing_setItems (s : State) (v : Items) : ({ s with items := v } : State).standing = s.standing := rfl
theorem standing_setSampler (s : State) (v : Sampler) : ({ s with sampler := v } : State).standing = s.standing := rfl
theorem standing_setSw (s : State) (v : Switch) : ({ s with sw := v } : State).standing = s.standing := rfl
theorem standing_setBanks (s : State) (v : Vector Bank 16) : ({ s with banks := v } : State).standing = s.standing := rfl
theorem standing_setXtags (s : State) (v : List (Nat × HearthId)) : ({ s with xtags := v } : State).standing = s.standing := rfl
theorem standing_setWake (s : State) (w : Bool) (v : List LockScope) : ({ s with wake := w, lockEnds := v } : State).standing = s.standing := rfl
theorem standing_setNextId (s : State) (v : Nat) : ({ s with nextId := v } : State).standing = s.standing := rfl
theorem standing_setTxqSampler (s : State) (v : List TxTlp) (w : Sampler) : ({ s with txq := v, sampler := w } : State).standing = s.standing := rfl

@[simp] theorem standing_woken (s : State) : (State.woken s).standing = s.standing := by
  rfl

@[simp] theorem standing_presentService (s : State) (port : PortId) (path : List DomainId) (cost : Nat) (work : Work) : (State.presentService s port path cost work).standing = s.standing := by
  rfl

@[simp] theorem standing_presentHost (s : State) (port : PortId) (path : List DomainId) (cost : Nat) (work : Work) : (State.presentHost s port path cost work).standing = s.standing := by
  rfl

@[simp] theorem standing_presentSlot (s : State) (k : Fin 19) (port : PortId) (path : List DomainId) (cost : Nat) (work : Work) : (State.presentSlot s k port path cost work).standing = s.standing := by
  rfl

@[simp] theorem standing_dropItems (s : State) (p : Item → Bool) : (State.dropItems s p).standing = s.standing := by
  rfl

@[simp] theorem standing_dropAdmitted (s : State) (p : Item → Bool) : (State.dropAdmitted s p).standing = s.standing := by
  rfl

@[simp] theorem standing_sendTlp (s : State) (t : TxTlp) : (State.sendTlp s t).standing = s.standing := by
  rfl

@[simp] theorem standing_presentMessage (s : State) (kind : TxKind) (fn : FnId) (path : List DomainId) (cost : Nat) : (State.presentMessage s kind fn path cost).standing = s.standing := by
  unfold State.presentMessage
  simp

@[simp] theorem standing_errMessage (s : State) (f : FnId) (k : Option TxKind) : (State.errMessage s f k).standing = s.standing := by
  unfold State.errMessage
  (try dsimp only); (repeat' split) <;> (try simp) <;> first | exact standing_modHearth _ _ _ rfl | exact standing_modFn _ _ _ rfl | exact standing_modFlue _ _ _ rfl

@[simp] theorem standing_recordCor (s : State) (f : FnId) (e : CorErr) : (State.recordCor s f e).standing = s.standing := by
  unfold State.recordCor; dsimp only; (repeat' split) <;> (try simp) <;> (first | exact standing_modHearth _ _ _ rfl | exact standing_modFn _ _ _ rfl | exact standing_modFlue _ _ _ rfl)

@[simp] theorem standing_recordUnc (s : State) (f : FnId) (e : UncErr) (advisory : Bool) (hdr : Vector Dword 4) : (State.recordUnc s f e advisory hdr).standing = s.standing := by
  unfold State.recordUnc; dsimp only; (repeat' split) <;> (try simp) <;> (first | exact standing_modHearth _ _ _ rfl | exact standing_modFn _ _ _ rfl | exact standing_modFlue _ _ _ rfl)

@[simp] theorem standing_linkMessage (s : State) (k : TxKind) (f : Option FnId) : (State.linkMessage s k f).standing = s.standing := by
  unfold State.linkMessage
  (try dsimp only); (repeat' split) <;> first | (simp; done) | rfl | exact standing_modHearth _ _ _ rfl | exact standing_modFn _ _ _ rfl | exact standing_modFlue _ _ _ rfl

@[simp] theorem standing_linkCor (s : State) (e : CorErr) : (State.linkCor s e).standing = s.standing := by
  unfold State.linkCor
  dsimp only
  rw [standing_linkMessage]
  exact standing_mapFns s _ fun k c => by split <;> rfl

@[simp] theorem standing_linkUnc (s : State) (e : UncErr) : (State.linkUnc s e).standing = s.standing := by
  unfold State.linkUnc
  dsimp only
  rw [standing_linkMessage, standing_linkMessage]
  exact standing_mapFns s _ fun k c => by split <;> rfl

@[simp] theorem standing_logEvent (s : State) (f : FnId) : (State.logEvent s f).standing = s.standing := by
  simp [State.logEvent]

@[simp] theorem standing_setStatus (s : State) (f : FnId) (bit : Nat) : (s.setStatus f bit).standing = s.standing := by
  unfold State.setStatus; split
  · exact standing_modFn _ _ _ rfl
  · rfl

@[simp] theorem standing_writeFault (s : State) (e : FaultEntry) : (State.writeFault s e).standing = s.standing := by
  rfl

@[simp] theorem standing_removePieces (s : State) (q : Piece → Bool) : (s.removePieces q).standing = s.standing := by
  simp only [State.removePieces, State.standing, State.dropAdmitted, State.dropItems]
  rw [steadyHearths_vmap]; intro _ _; rfl

@[simp] theorem standing_dropStored (s : State) (q : Origin → Bool) : (State.dropStored s q).standing = s.standing := by
  unfold State.dropStored
  rfl

@[simp] theorem standing_freeTags (s : State) : (State.freeTags s).standing = s.standing := by
  rfl

@[simp] theorem standing_push (s : State) (p : Piece) : (State.push s p).standing = s.standing := by
  rfl

@[simp] theorem standing_endPosted (s : State) (n : HearthId) (serial : Nat) : (State.endPosted s n serial).standing = s.standing := by
  unfold State.endPosted; (try simp only []); first | exact standing_modHearth _ _ _ rfl | exact standing_modFn _ _ _ rfl | exact standing_modFlue _ _ _ rfl

@[simp] theorem standing_answer (s : State) (n : HearthId) (r : Resp) : (State.answer s n r).standing = s.standing := by
  unfold State.answer
  (try dsimp only); (repeat' split) <;> (try simp) <;> first | exact standing_modHearth _ _ _ rfl | exact standing_modFn _ _ _ rfl | exact standing_modFlue _ _ _ rfl

@[simp] theorem standing_damp (s : State) (n : HearthId) : (State.damp s n).standing = s.standing := by
  unfold State.damp; split <;> simp

@[simp] theorem standing_driveRead (s : State) (n : HearthId) (got : List (Nat × Byte)) : (State.driveRead s n got).standing = s.standing := by
  unfold State.driveRead; dsimp only; (repeat' split) <;> (try simp) <;> (first | exact standing_modHearth _ _ _ rfl | exact standing_modFn _ _ _ rfl | exact standing_modFlue _ _ _ rfl)

@[simp] theorem standing_fetchRead (s : State) (n : HearthId) (serial : Nat) (got : List (Nat × Byte)) : (State.fetchRead s n serial got).standing = s.standing := by
  unfold State.fetchRead
  (try dsimp only); (repeat' split) <;> (try simp) <;> first | exact standing_modHearth _ _ _ rfl | exact standing_modFn _ _ _ rfl | exact standing_modFlue _ _ _ rfl

@[simp] theorem standing_farSide (s : State) (n : HearthId) (ev : Bool) : (State.farSide s n ev).standing = s.standing := by
  unfold State.farSide; dsimp only; (repeat' split) <;> simp

@[simp] theorem standing_dropUnsent (s : State) (n : HearthId) (serial : Nat) : (State.dropUnsent s n serial).standing = s.standing := by
  rfl

@[simp] theorem standing_endCycle (s : State) (n : HearthId) : (s.endCycle n).standing = s.standing := by
  unfold State.endCycle; split
  · rfl
  · dsimp only; rw [standing_modHearth _ _ _ rfl]; split <;> simp

@[simp] theorem standing_dropCycleWork (s : State) (n : HearthId) (c : Cycle) (release : Bool) : (State.dropCycleWork s n c release).standing = s.standing := by
  unfold State.dropCycleWork
  simp

@[simp] theorem standing_expireCycle (s : State) (n : HearthId) (release : Bool) : (State.expireCycle s n release).standing = s.standing := by
  unfold State.expireCycle
  (repeat' split)
  · rfl
  · rw [standing_modHearth _ _ _ rfl]; simp
  · simp
  · rfl

@[simp] theorem standing_completeCycle (s : State) (n : HearthId) (serial : Nat) (got : List (Nat × Byte)) (status : CplStatus) :
    (s.completeCycle n serial got status).standing = s.standing := by
  unfold State.completeCycle; (repeat' split) <;> simp

@[simp] theorem standing_tapPulse (s : State) (p : PortId) : (s.tapPulse p).standing = s.standing := by
  unfold State.tapPulse; split
  · exact standing_modHearth _ _ _ rfl
  · rfl

@[simp] theorem standing_countFrame (s : State) (p : Piece) : (s.countFrame p).standing = s.standing := by
  unfold State.countFrame
  dsimp only; (repeat' split) <;> (try rfl)
  simp only [standing_presentSlot, standing_tapPulse]; rfl

@[simp] theorem standing_syncWire (s : State) (f : FnId) : (s.syncWire f).standing = s.standing := by
  unfold State.syncWire
  simp only []; split
  · rfl
  · split
    · exact standing_sendTlp _ _
    · rfl

@[simp] theorem standing_syncWires (s : State) : (s.syncWires).standing = s.standing := standing_forList _ _ (fun f s => standing_syncWire s f) s

@[simp] theorem standing_pushChange (s : State) (c : Change) (t : Tally) : (State.pushChange s c t).standing = s.standing := by
  unfold State.pushChange
  (try dsimp only); (repeat' split) <;> first | (simp; done) | rfl | exact standing_modHearth _ _ _ rfl | exact standing_modFn _ _ _ rfl | exact standing_modFlue _ _ _ rfl

@[simp] theorem standing_pmeFor (s : State) (k : Sink) : (State.pmeFor s k).standing = s.standing := by
  unfold State.pmeFor
  (try dsimp only); (repeat' split) <;> (try simp) <;> first | exact standing_modHearth _ _ _ rfl | exact standing_modFn _ _ _ rfl | exact standing_modFlue _ _ _ rfl

@[simp] theorem standing_setSlotSource (s : State) (h : Fin 64) (code : Option Nat) : (State.setSlotSource s h code).standing = s.standing := by
  unfold State.setSlotSource
  simp

@[simp] theorem standing_applyChange (s : State) (c : Change) : (s.applyChange c).standing = s.standing := by
  unfold State.applyChange
  split
  · rfl
  · cases c.slotCode <;> simp only [] <;> (repeat' split) <;> first | rfl | exact standing_pmeFor _ _

@[simp] theorem standing_emit (s : State) (f : FlueId) (b : FlueBlk) : (State.emit s f b).standing = s.standing := by
  unfold State.emit; (try simp only []); first | exact standing_modHearth _ _ _ rfl | exact standing_modFn _ _ _ rfl | exact standing_modFlue _ _ _ rfl

@[simp] theorem standing_flushStore (s : State) : (State.flushStore s).standing = s.standing := by
  unfold State.flushStore
  exact standing_forList _ _ (fun _ _ => by (try dsimp only); (repeat' split) <;> first | rfl | (simp; done)) _

@[simp] theorem standing_sendOver (s : State) (f : FlueId) (p : Piece) : (State.sendOver s f p).standing = s.standing := by
  unfold State.sendOver
  simp

@[simp] theorem standing_moveTag (s : State) (f : FlueId) (x : Stored) : (State.moveTag s f x).1.standing = s.standing := by
  unfold State.moveTag
  (repeat' split)
  · dsimp only
    rw [standing_modFlue _ _ _ rfl, standing_modFlue _ _ _ rfl]
  · rfl
  · rfl

@[simp] theorem standing_moveStore (s : State) (f : FlueId) (q : Stored → Bool) (x0 : List Stored) : (State.moveStore s f q x0).1.standing = s.standing := by
  induction x0 generalizing s with
  | nil => rfl
  | cons x rest ih =>
    unfold State.moveStore
    split
    · dsimp only; rw [ih, standing_moveTag]
    · exact ih s

@[simp] theorem standing_resend (s : State) (q : Fin 4) (c : Cls) : (State.resend s q c).standing = s.standing := by
  unfold State.resend
  dsimp only; split
  · rfl
  · rw [standing_flushStore, standing_setChim, standing_moveStore]

@[simp] theorem standing_control (s : State) (q : Fin 4) (b : FlueBlk) : (State.control s q b).standing = s.standing := by
  unfold State.control
  (try dsimp only); (repeat' split) <;> first | (simp; done) | rfl | exact standing_modHearth _ _ _ rfl | exact standing_modFn _ _ _ rfl | exact standing_modFlue _ _ _ rfl

@[simp] theorem standing_payOwed (s : State) : (State.payOwed s).standing = s.standing := by
  unfold State.payOwed
  exact standing_forList _ _ (fun _ _ => by (try dsimp only); (repeat' split) <;> first | rfl | (simp; done)) _

@[simp] theorem standing_sendBackoff (s : State) (q : Fin 4) (port : PortId) (tag : Nat) : (State.sendBackoff s q port tag).standing = s.standing := by
  unfold State.sendBackoff
  (try dsimp only); (repeat' split) <;> first | (simp; done) | rfl | exact standing_modHearth _ _ _ rfl | exact standing_modFn _ _ _ rfl | exact standing_modFlue _ _ _ rfl

@[simp] theorem standing_receipt (s : State) (src : Fin 4) : (State.receipt s src).standing = s.standing := by
  unfold State.receipt
  simp

@[simp] theorem standing_performedFrom (s : State) (p : Fin 4) (num : BitVec 16) : (s.performedFrom p num).standing = s.standing := by
  unfold State.performedFrom
  simp only [standing_receipt, standing_setChim]

@[simp] theorem standing_modReq (s : State) (id : Nat) (f : HostReq → HostReq) : (State.modReq s id f).standing = s.standing := by
  rfl

@[simp] theorem standing_releaseCredits (s : State) (id : Nat) : (State.releaseCredits s id).standing = s.standing := by
  unfold State.releaseCredits; dsimp only; (repeat' split) <;> rfl

@[simp] theorem standing_sendCpl (s : State) (r : HostReq) (status : CplStatus) (bytes : List (Nat × Byte)) (off len : Nat) :
    (s.sendCpl r status bytes off len).standing = s.standing := by
  unfold State.sendCpl
  dsimp only; split <;> simp

@[simp] theorem standing_closeReq (s : State) (id : Nat) : (s.closeReq id).standing = s.standing := by
  unfold State.closeReq; exact standing_releaseCredits s id

@[simp] theorem standing_sendBlocks (k : Nat) (s : State) (id : Nat) : (State.sendBlocks k s id).standing = s.standing := by
  induction k generalizing s with
  | zero => rfl
  | succ k ih => unfold State.sendBlocks; dsimp only; (repeat' split) <;> first | rfl | simp [ih]

@[simp] theorem standing_finishReq (s : State) (id : Nat) : (s.finishReq id).standing = s.standing := by
  unfold State.finishReq; (repeat' split) <;> simp

@[simp] theorem standing_hostDone (s : State) (id : Nat) (got : List (Nat × Byte)) (pieces : Nat) :
    (s.hostDone id got pieces).standing = s.standing := by
  unfold State.hostDone; dsimp only; (repeat' split) <;> simp

@[simp] theorem standing_refuseReq (s : State) (r : HostReq) (status : CplStatus) (e : Option UncErr) :
    (s.refuseReq r status e).standing = s.standing := by
  unfold State.refuseReq; dsimp only; (repeat' split) <;> simp

@[simp] theorem standing_dropReqWork (s : State) (id : Nat) : (State.dropReqWork s id).standing = s.standing := by
  unfold State.dropReqWork
  dsimp only
  rw [standing_removePieces, standing_mapHearths]
  intro k h
  have e : ∀ b : Bus, ∀ q, { Bus.dropRest b q with jobs := [], strobe := none } = { b with jobs := [], strobe := none } := by
    intro b q; unfold Bus.dropRest; split <;> rfl
  simp only [Hearth.steady, e]

@[simp] theorem standing_endRead (k : Nat) (s : State) (x2 : HostReq) : (State.endRead k s x2).standing = s.standing := by
  induction k generalizing s x2 with
  | zero => rfl
  | succ k ih => unfold State.endRead; dsimp only; (repeat' split) <;> simp [ih]

@[simp] theorem standing_endWrite (s : State) (r : HostReq) (modes : List (Bool × Bool)) (ev : Bool) : (State.endWrite s r modes ev).standing = s.standing := by
  unfold State.endWrite
  exact standing_forList _ _ (fun _ _ => by (try dsimp only); (repeat' split) <;> first | rfl | (simp; done)) _

@[simp] theorem standing_nextTick (s : State) (id : Nat) : (State.nextTick s id).standing = s.standing := by
  unfold State.nextTick
  simp

@[simp] theorem standing_endReq (s : State) (id : Nat) (ev : Bool) (struck : Option (Bool × Bool)) : (State.endReq s id ev struck).standing = s.standing := by
  unfold State.endReq
  (try dsimp only); (repeat' split) <;> first | (simp; done) | rfl | exact standing_modHearth _ _ _ rfl | exact standing_modFn _ _ _ rfl | exact standing_modFlue _ _ _ rfl

@[simp] theorem standing_missReq (s : State) (id : Nat) : (s.missReq id).standing = s.standing := by
  unfold State.missReq; split <;> simp

@[simp] theorem standing_remoteReply (s : State) (src : PortId) (q : Fin 4) (port : PortId) (tag : Nat) (key : BitVec 4) (got : List (Nat × Byte)) (status : CplStatus) : (State.remoteReply s src q port tag key got status).standing = s.standing := by
  unfold State.remoteReply
  simp

@[simp] theorem standing_failPiece (s : State) (p : Piece) (ev : Bool) (got : List (Nat × Byte)) : (State.failPiece s p ev got).standing = s.standing := by
  unfold State.failPiece
  (try dsimp only); (repeat' split) <;> first | (simp; done) | rfl | exact standing_modHearth _ _ _ rfl | exact standing_modFn _ _ _ rfl | exact standing_modFlue _ _ _ rfl

@[simp] theorem standing_donePiece (s : State) (p : Piece) (got : List (Nat × Byte)) : (State.donePiece s p got).standing = s.standing := by
  unfold State.donePiece
  (try dsimp only); (repeat' split) <;> first | (simp; done) | rfl | exact standing_modHearth _ _ _ rfl | exact standing_modFn _ _ _ rfl | exact standing_modFlue _ _ _ rfl

@[simp] theorem standing_endLock (s : State) (n : HearthId) (rose : Bool) : (s.endLock n rose).standing = s.standing := by
  unfold State.endLock; split
  · rfl
  · next l _ =>
    show ({ s.modHearth n (fun h => { h with lock := none, lockMasked := !rose }) with wake := true, lockEnds := l.scope :: s.lockEnds } : State).standing = _
    exact (standing_setWake _ _ _).trans (standing_modHearth _ _ _ rfl)

@[simp] theorem standing_contest (s : State) (sc : LockScope) : (s.contest sc).standing = s.standing := by
  unfold State.contest; split
  · rfl
  · exact standing_modHearth _ _ _ rfl

@[simp] theorem standing_endFarLock (s : State) (m : HearthId) (mask : Bool) : (State.endFarLock s m mask).standing = s.standing := by
  unfold State.endFarLock
  (try dsimp only); (repeat' split) <;> (try simp) <;> first | exact standing_modHearth _ _ _ rfl | exact standing_modFn _ _ _ rfl | exact standing_modFlue _ _ _ rfl

@[simp] theorem standing_takeFarLock (s : State) (p : Piece) (m : HearthId) : (State.takeFarLock s p m).standing = s.standing := by
  unfold State.takeFarLock
  dsimp only
  (repeat' split) <;> first | rfl | exact standing_modHearth _ _ _ rfl | exact (standing_modHearth _ _ _ rfl).trans (standing_endFarLock _ _ _)

@[simp] theorem standing_contestBus (m : HearthId) (s : State) : (State.contestBus m s).standing = s.standing := by
  unfold State.contestBus
  split
  · exact (standing_modHearth _ _ _ rfl).trans (standing_contest _ _)
  · rfl

@[simp] theorem standing_yieldWaiting (s : State) (n : HearthId) : (State.yieldWaiting s n).standing = s.standing := by
  unfold State.yieldWaiting
  dsimp only
  rw [standing_forList _ _ (fun p s => by split <;> simp), standing_removePieces]

@[simp] theorem standing_admitCycle (s : State) (p : Piece) : (State.admitCycle s p).standing = s.standing := by
  unfold State.admitCycle
  (try dsimp only); (repeat' split) <;> (try simp) <;> first | exact standing_modHearth _ _ _ rfl | exact standing_modFn _ _ _ rfl | exact standing_modFlue _ _ _ rfl

@[simp] theorem standing_presentArrival (s : State) (f : FlueId) (b : PieceBlk) (path : List DomainId) (cost : Nat) (w : Work) : (State.presentArrival s f b path cost w).standing = s.standing := by
  unfold State.presentArrival; split <;> simp

@[simp] theorem standing_refuseArrival (s : State) (b : PieceBlk) (st : CplStatus) : (State.refuseArrival s b st).standing = s.standing := by
  unfold State.refuseArrival
  (try dsimp only); (repeat' split) <;> first | (simp; done) | rfl | exact standing_modHearth _ _ _ rfl | exact standing_modFn _ _ _ rfl | exact standing_modFlue _ _ _ rfl

@[simp] theorem standing_farArrival (s : State) (f : FlueId) (b : PieceBlk) : (State.farArrival s f b).standing = s.standing := by
  unfold State.farArrival
  (try dsimp only); (repeat' split) <;> first | (simp; done) | rfl | exact standing_modHearth _ _ _ rfl | exact standing_modFn _ _ _ rfl | exact standing_modFlue _ _ _ rfl

@[simp] theorem standing_backOff (s : State) (b : PieceBlk) : (State.backOff s b).standing = s.standing := by
  unfold State.backOff
  simp

@[simp] theorem standing_faultArrival (s : State) (b : PieceBlk) (m : HearthId) (a : Nat) (key : BitVec 4) : (State.faultArrival s b m a key).standing = s.standing := by
  unfold State.faultArrival; dsimp only; (repeat' split) <;> simp

@[simp] theorem standing_decodeArrival (s : State) (f : FlueId) (b : PieceBlk) (m : HearthId) : (State.decodeArrival s f b m).standing = s.standing := by
  unfold State.decodeArrival
  (try dsimp only); (repeat' split) <;> first | (simp; done) | rfl | exact standing_modHearth _ _ _ rfl | exact standing_modFn _ _ _ rfl | exact standing_modFlue _ _ _ rfl

@[simp] theorem standing_landHearth (s : State) (f : FlueId) (b : PieceBlk) (m : HearthId) : (State.landHearth s f b m).standing = s.standing := by
  unfold State.landHearth
  (try dsimp only); (repeat' split) <;> first | (simp; done) | rfl | exact standing_modHearth _ _ _ rfl | exact standing_modFn _ _ _ rfl | exact standing_modFlue _ _ _ rfl

@[simp] theorem standing_landHost (s : State) (f : FlueId) (b : PieceBlk) : (State.landHost s f b).standing = s.standing := by
  unfold State.landHost
  (try dsimp only); (repeat' split) <;> first | (simp; done) | rfl | exact standing_modHearth _ _ _ rfl | exact standing_modFn _ _ _ rfl | exact standing_modFlue _ _ _ rfl

@[simp] theorem standing_landWaiting (s : State) : (State.landWaiting s).standing = s.standing := by
  unfold State.landWaiting
  dsimp only; split
  · rfl
  · exact standing_forList _ _ (fun x s => standing_landHost s _ _) _

@[simp] theorem standing_landChange (s : State) (f : FlueId) (b : PieceBlk) : (State.landChange s f b).standing = s.standing := by
  unfold State.landChange; dsimp only; (repeat' split) <;> simp

@[simp] theorem standing_dropTag (s : State) (g : FlueId) (tag : Nat) (o : Origin) : (State.dropTag s g tag o).standing = s.standing := by
  unfold State.dropTag; (try simp only []); first | exact standing_modHearth _ _ _ rfl | exact standing_modFn _ _ _ rfl | exact standing_modFlue _ _ _ rfl

@[simp] theorem standing_landCompletion (s : State) (f : FlueId) (b : PieceBlk) : (State.landCompletion s f b).standing = s.standing := by
  unfold State.landCompletion; split <;> simp

@[simp] theorem standing_landTransit (s : State) (f : FlueId) (b : PieceBlk) : (State.landTransit s f b).standing = s.standing := by
  simp [State.landTransit]

@[simp] theorem standing_land (s : State) (f : FlueId) (b : PieceBlk) : (State.land s f b).standing = s.standing := by
  unfold State.land
  (try dsimp only); (repeat' split) <;> first | (simp; done) | rfl | exact standing_modHearth _ _ _ rfl | exact standing_modFn _ _ _ rfl | exact standing_modFlue _ _ _ rfl

@[simp] theorem standing_releaseArrivals (s : State) (n : HearthId) : (State.releaseArrivals s n).standing = s.standing := by
  unfold State.releaseArrivals
  split
  · exact standing_forList _ _ (fun x s => standing_landHearth s _ _ _) _
  · rfl

@[simp] theorem standing_landGated (s : State) (f : FlueId) (b : PieceBlk) : (State.landGated s f b).standing = s.standing := by
  unfold State.landGated
  (try dsimp only); (repeat' split) <;> first | (simp; done) | rfl | exact standing_modHearth _ _ _ rfl | exact standing_modFn _ _ _ rfl | exact standing_modFlue _ _ _ rfl

@[simp] theorem standing_landAll (s : State) : (State.landAll s).standing = s.standing := by
  unfold State.landAll
  exact standing_forList _ _ (fun _ _ => by (try dsimp only); (repeat' split) <;> first | rfl | (simp; done)) _

@[simp] theorem standing_presentPieces (s : State) (l : List (Piece × Nat)) : (s.presentPieces l).standing = s.standing := 
  standing_forList _ _ (fun p s => standing_presentHost s _ _ _ _) s

@[simp] theorem standing_issueWith (s : State) (id : Nat) (l : List (Piece × Nat)) : (State.issueWith s id l).standing = s.standing := by
  simp [State.issueWith]

@[simp] theorem standing_tryIssue (s : State) (id : Nat) : (State.tryIssue s id).standing = s.standing := by
  unfold State.tryIssue; dsimp only; (repeat' split) <;> simp

@[simp] theorem standing_issueWaiting (s : State) : (s.issueWaiting).standing = s.standing := standing_forList _ _ (fun id s => standing_tryIssue s id) s

@[simp] theorem standing_decoded (s : State) (id : Nat) (ps : List (DWin × Nat × Nat)) (pooled : Bool) (from' : Tally) : (State.decoded s id ps pooled from').standing = s.standing := by
  unfold State.decoded
  simp

@[simp] theorem standing_decodeReq (s : State) (id : Nat) : (State.decodeReq s id).standing = s.standing := by
  unfold State.decodeReq
  (try dsimp only); (repeat' split) <;> first | (simp; done) | rfl | exact standing_modHearth _ _ _ rfl | exact standing_modFn _ _ _ rfl | exact standing_modFlue _ _ _ rfl

@[simp] theorem standing_placeReq (s : State) (id : Nat) (n : HearthId) : (s.placeReq id n).standing = s.standing := by
  unfold State.placeReq; (repeat' split) <;> first | rfl | simp

@[simp] theorem standing_releaseHeld (s : State) (n : HearthId) : (s.releaseHeld n).standing = s.standing := by
  unfold State.releaseHeld
  rw [standing_releaseArrivals]
  exact standing_forList _ _ (fun id s => standing_placeReq s id n) s

@[simp] theorem standing_arrive (s : State) (fn : FnId) (stone read : Bool) (q : MemReq) (serve : Nat → State → State)
    (hs : ∀ k s, (serve k s).standing = s.standing) : (s.arrive fn stone read q serve).standing = s.standing := by
  unfold State.arrive
  dsimp only; (repeat' split) <;> (try simp only [hs, standing_closeReq, standing_refuseReq, standing_recordUnc]) <;> rfl

@[simp] theorem standing_serveBar0 (h : Fin 64) (id : Nat) (s : State) : (State.serveBar0 h id s).standing = s.standing := by
  unfold State.serveBar0
  (try dsimp only); (repeat' split) <;> first | (simp; done) | rfl | exact standing_modHearth _ _ _ rfl | exact standing_modFn _ _ _ rfl | exact standing_modFlue _ _ _ rfl

@[simp] theorem standing_serveBar2 (id : Nat) (s : State) : (State.serveBar2 id s).standing = s.standing := by
  unfold State.serveBar2; dsimp only; (repeat' split) <;> simp

@[simp] theorem standing_noFunction (s : State) (read : Bool) (q : MemReq) : (s.noFunction read q).standing = s.standing := by
  unfold State.noFunction
  simp only [standing_closeReq, standing_refuseReq]; rfl

@[simp] theorem standing_bar0 (s : State) (h : Fin 64) (read : Bool) (q : MemReq) : (s.bar0 h read q).standing = s.standing := by
  unfold State.bar0; (repeat' split) <;> simp

@[simp] theorem standing_bar2 (s : State) (read : Bool) (q : MemReq) : (s.bar2 read q).standing = s.standing := by
  unfold State.bar2; split <;> simp

@[simp] theorem standing_presentChange (s : State) (n : HearthId) (r : Route) (input : Fin 9) (entry : BitVec 8) (code : Option Nat) (level : Bool) : (State.presentChange s n r input entry code level).standing = s.standing := by
  unfold State.presentChange
  (try dsimp only); (repeat' split) <;> first | (simp; done) | rfl | exact standing_modHearth _ _ _ rfl | exact standing_modFn _ _ _ rfl | exact standing_modFlue _ _ _ rfl

@[simp] theorem standing_presentSlotChange (s : State) (n : HearthId) (code : Option Nat) (level : Bool) : (State.presentSlotChange s n code level).standing = s.standing := by
  unfold State.presentSlotChange
  simp

@[simp] theorem standing_slotEvent (s : State) (n : HearthId) (x : Slot) : (State.slotEvent s n x).standing = s.standing := by
  unfold State.slotEvent
  (try dsimp only); (repeat' split) <;> first | (simp; done) | rfl | exact standing_modHearth _ _ _ rfl | exact standing_modFn _ _ _ rfl | exact standing_modFlue _ _ _ rfl

@[simp] theorem standing_clearSlotEvent (s : State) (h : Fin 64) : (State.clearSlotEvent s h).standing = s.standing := by
  unfold State.clearSlotEvent
  (try dsimp only); (repeat' split) <;> first | (simp; done) | rfl | exact standing_modHearth _ _ _ rfl | exact standing_modFn _ _ _ rfl | exact standing_modFlue _ _ _ rfl

@[simp] theorem standing_contribute (s : State) (n : HearthId) : (State.contribute s n).standing = s.standing := by
  unfold State.contribute
  exact standing_forList _ _ (fun _ _ => by (try dsimp only); (repeat' split) <;> first | rfl | (simp; done)) _

@[simp] theorem standing_deassertInputs (s : State) (n : HearthId) : (State.deassertInputs s n).standing = s.standing := by
  unfold State.deassertInputs
  dsimp only
  rw [standing_forList _ _ (fun c s => standing_presentChange s _ _ _ _ _ _), standing_forList _ _ (fun x s => standing_presentChange s _ _ _ _ _ _),
    standing_dropItems]

@[simp] theorem standing_padsOn (s : State) (n : HearthId) : (State.padsOn s n).standing = s.standing := by
  unfold State.padsOn; split <;> simp

@[simp] theorem standing_failBus (s : State) (n : HearthId) (ev : Bool) : (State.failBus s n ev).standing = s.standing := by
  have h : ∀ x : Hearth, ({ x with bus := { x.bus with jobs := [], strobe := none } } : Hearth).steady = x.steady := fun x => rfl
  unfold State.failBus
  dsimp only
  rw [standing_freeTags, standing_forList _ _ (fun (p : Piece × List (Nat × Byte)) s => standing_failPiece s p.1 ev p.2), standing_modHearth _ _ _ (h _),
    standing_removePieces]
  exact standing_forList _ _ (fun r s => standing_endReq s _ _ _) s

@[simp] theorem standing_failBlocked (s : State) (n : HearthId) : (s.failBlocked n).standing = s.standing := 
  standing_forHearths _ (fun k s => by split <;> (try split) <;> simp) s

@[simp] theorem standing_endHearthWork (s : State) (n : HearthId) : (s.endHearthWork n).standing = s.standing := by
  simp [State.endHearthWork]

@[simp] theorem standing_missSameTick (s : State) (n : HearthId) : (State.missSameTick s n).standing = s.standing := by
  unfold State.missSameTick
  exact standing_forList _ _ (fun _ _ => by (try dsimp only); (repeat' split) <;> first | rfl | (simp; done)) _

@[simp] theorem standing_expireWork (s : State) (n : HearthId) : (State.expireWork s n).standing = s.standing := by
  have h : ∀ x : Hearth, ({ x with lockMasked := x.lockMasked || x.lockLow } : Hearth).steady = x.steady := fun x => rfl
  unfold State.expireWork
  rw [standing_modHearth _ _ _ (h _), standing_endLock, standing_failBlocked, standing_failBus, standing_expireCycle]

@[simp] theorem standing_dampBlocked (s : State) (n : HearthId) : (State.dampBlocked s n).standing = s.standing := by
  exact standing_forHearths _ (fun k s => by (repeat' split) <;> simp) s

@[simp] theorem standing_moveSources (s : State) (n : HearthId) (new : HearthCfg) : (State.moveSources s n new).standing = s.standing := by
  have h : ∀ f : Fin 8 → State → State, (∀ q t, (f q t).standing = t.standing) → (forList (List.finRange 8) f s).standing = s.standing :=
    fun f hf => standing_forList _ f hf s
  unfold State.moveSources
  dsimp only
  (repeat' split)
  · rw [standing_presentSlotChange]; exact h _ fun q t => by split <;> simp
  · rw [standing_clearSlotEvent]; exact h _ fun q t => by split <;> simp
  · exact h _ fun q t => by split <;> simp

@[simp] theorem standing_pay (s : State) (n : HearthId) : (State.pay s n).standing = s.standing := by
  unfold State.pay; dsimp only; (repeat' split) <;> (try simp) <;> (first | exact standing_modHearth _ _ _ rfl | exact standing_modFn _ _ _ rfl | exact standing_modFlue _ _ _ rfl)

@[simp] theorem standing_breakLoop (s : State) (n : HearthId) : (s.breakLoop n).standing = s.standing := by
  unfold State.breakLoop; (repeat' split) <;> first | rfl | simp

@[simp] theorem standing_latch (s : State) (n : HearthId) (c : Cycle) : (s.latch n c).standing = s.standing := by
  unfold State.latch
  rw [standing_woken, standing_setNextId]
  exact standing_modHearth _ _ _ rfl

@[simp] theorem standing_takeLock (s : State) (n : HearthId) (c : Cycle) : (State.takeLock s n c).standing = s.standing := by
  unfold State.takeLock; dsimp only; (repeat' split) <;> (try simp) <;> (first | exact standing_modHearth _ _ _ rfl | exact standing_modFn _ _ _ rfl | exact standing_modFlue _ _ _ rfl)

@[simp] theorem standing_runCycle (s : State) (n : HearthId) (c : Cycle) : (s.runCycle n c).standing = s.standing := by
  unfold State.runCycle; dsimp only; (repeat' split) <;> simp

@[simp] theorem standing_dropWait (s : State) (n : HearthId) : (State.dropWait s n).standing = s.standing := by
  unfold State.dropWait
  exact standing_modHearth _ _ _ (by split <;> rfl)

@[simp] theorem standing_driveNext (s : State) (n : HearthId) : (State.driveNext s n).standing = s.standing := by
  unfold State.driveNext; dsimp only; (repeat' split) <;> (try simp) <;> (first | exact standing_modHearth _ _ _ rfl | exact standing_modFn _ _ _ rfl | exact standing_modFlue _ _ _ rfl)

@[simp] theorem standing_unblock (s : State) (m : HearthId) : (s.unblock m).standing = s.standing := 
  standing_forHearths _ (fun k s => by split <;> simp) s

@[simp] theorem standing_popJob (s : State) (n : HearthId) : (State.popJob s n).standing = s.standing := by
  unfold State.popJob; (try simp only []); first | exact standing_modHearth _ _ _ rfl | exact standing_modFn _ _ _ rfl | exact standing_modFlue _ _ _ rfl

@[simp] theorem standing_farWriteDone (s : State) (m : HearthId) (p : Piece) : (State.farWriteDone s m p).standing = s.standing := by
  unfold State.farWriteDone
  (try dsimp only); (repeat' split) <;> first | (simp; done) | rfl | exact standing_modHearth _ _ _ rfl | exact standing_modFn _ _ _ rfl | exact standing_modFlue _ _ _ rfl

@[simp] theorem standing_lockedWriteDone (s : State) (sc : LockScope) (p : Piece) : (s.lockedWriteDone sc p).standing = s.standing := by
  unfold State.lockedWriteDone; dsimp only; (repeat' split) <;> first | rfl | simp

@[simp] theorem standing_restartWatch (s : State) (o : Origin) : (State.restartWatch s o).standing = s.standing := by
  unfold State.restartWatch; split <;> simp

@[simp] theorem standing_jobAck (s : State) (n : HearthId) (data : BitVec 32) : (State.jobAck s n data).standing = s.standing := by
  unfold State.jobAck
  split
  · rfl
  · split
    · rfl
    · dsimp only; split
      · simp
      · exact (standing_modHearth _ _ _ rfl).trans (standing_restartWatch _ _)

@[simp] theorem standing_errorReply (s : State) (p : Piece) : (State.errorReply s p).standing = s.standing := by
  unfold State.errorReply
  (try dsimp only); (repeat' split) <;> first | (simp; done) | rfl | exact standing_modHearth _ _ _ rfl | exact standing_modFn _ _ _ rfl | exact standing_modFlue _ _ _ rfl

@[simp] theorem standing_jobFail (s : State) (n : HearthId) (ev : Bool) : (State.jobFail s n ev).standing = s.standing := by
  unfold State.jobFail
  (try dsimp only); (repeat' split) <;> first | (simp; done) | rfl | exact standing_modHearth _ _ _ rfl | exact standing_modFn _ _ _ rfl | exact standing_modFlue _ _ _ rfl

@[simp] theorem standing_failFirst (s : State) (n : HearthId) : (s.failFirst n).standing = s.standing := by
  unfold State.failFirst
  (repeat' split) <;> first | rfl | simp

@[simp] theorem standing_recheck (n : HearthId) (s : State) : (State.recheck n s).standing = s.standing := by
  unfold State.recheck
  (try dsimp only); (repeat' split) <;> first | (simp; done) | rfl | exact standing_modHearth _ _ _ rfl | exact standing_modFn _ _ _ rfl | exact standing_modFlue _ _ _ rfl

@[simp] theorem standing_leaveBuffer (s : State) (o : Origin) : (State.leaveBuffer s o).standing = s.standing := by
  unfold State.leaveBuffer; dsimp only; (repeat' split) <;> simp

@[simp] theorem standing_toHost (s : State) (p : Piece) : (State.toHost s p).standing = s.standing := by
  unfold State.toHost; dsimp only; (repeat' split) <;> simp

@[simp] theorem standing_toHearth (s0 : State) (m : HearthId) (p : Piece) : (State.toHearth s0 m p).standing = s0.standing := by
  unfold State.toHearth
  dsimp only
  (repeat' split)
  · simp
  · simp
  · rw [standing_driveNext, standing_modHearth _ _ _ rfl, standing_takeFarLock]

@[simp] theorem standing_flueTag (s : State) (f : FlueId) (p : Piece) : (State.flueTag s f p).1.standing = s.standing := by
  unfold State.flueTag
  (try dsimp only); (repeat' split) <;> first | (simp; done) | rfl | exact standing_modHearth _ _ _ rfl | exact standing_modFn _ _ _ rfl | exact standing_modFlue _ _ _ rfl

@[simp] theorem standing_transit (s : State) (f : FlueId) (p : Piece) : (State.transit s f p).standing = s.standing := by
  unfold State.transit; split <;> simp

@[simp] theorem standing_toFlue (s : State) (f : FlueId) (p : Piece) : (State.toFlue s f p).standing = s.standing := by
  have h : (s.flueTag f p).1.standing = s.standing := standing_flueTag s f p
  unfold State.toFlue
  dsimp only
  (repeat' split) <;> first
    | exact standing_transit _ _ _
    | exact (standing_sendOver _ _ _).trans h
    | exact (standing_hostDone _ _ _ _).trans ((standing_sendOver _ _ _).trans h)

@[simp] theorem standing_chimneyDone (s : State) (n : HearthId) (serial : Nat) (p : Piece) : (s.chimneyDone n serial p).standing = s.standing := by
  unfold State.chimneyDone; (repeat' split) <;> first | rfl | simp

@[simp] theorem standing_chimneyPosted (s : State) (n : HearthId) (serial : Nat) (p : Piece) : (State.chimneyPosted s n serial p).standing = s.standing := by
  unfold State.chimneyPosted
  (try dsimp only); (repeat' split) <;> first | (simp; done) | rfl | exact standing_modHearth _ _ _ rfl | exact standing_modFn _ _ _ rfl | exact standing_modFlue _ _ _ rfl

@[simp] theorem standing_toRequester (s : State) (p : Piece) : (State.toRequester s p).standing = s.standing := by
  unfold State.toRequester
  (try dsimp only); (repeat' split) <;> first | (simp; done) | rfl | exact standing_modHearth _ _ _ rfl | exact standing_modFn _ _ _ rfl | exact standing_modFlue _ _ _ rfl

@[simp] theorem standing_placeRecord (s : State) : (State.placeRecord s).standing = s.standing := by
  unfold State.placeRecord
  simp

@[simp] theorem standing_deliver (s : State) (p : Piece) : (State.deliver s p).standing = s.standing := by
  have h : ∀ o, (({ s with sw := { s.sw with q := vmod s.sw.q p.src fun l => l.filter (fun x => x.id ≠ p.id), offer := vset s.sw.offer p.src none } } : State).leaveBuffer
      o).standing = s.standing := fun o => standing_leaveBuffer _ o
  unfold State.deliver
  dsimp only
  (repeat' split) <;> first
    | exact (standing_donePiece _ _ _).trans ((standing_countFrame _ _).trans (h _))
    | exact h _
    | exact (standing_toRequester _ _).trans ((standing_countFrame _ _).trans (h _))
    | exact (standing_toHearth _ _ _).trans ((standing_countFrame _ _).trans (h _))
    | exact (standing_countFrame _ _).trans (h _)
    | exact (standing_placeRecord _).trans ((standing_countFrame _ _).trans (h _))
    | exact (standing_toHost _ _).trans ((standing_countFrame _ _).trans (h _))
    | exact (standing_toFlue _ _ _).trans ((standing_countFrame _ _).trans (h _))

@[simp] theorem standing_grantAt (offers : List (PortId × Piece)) (d : PortId) (s : State) : (State.grantAt offers d s).standing = s.standing := by
  unfold State.grantAt
  split
  · exact standing_forList _ _ (fun (o : PortId × Piece) s => standing_deliver s o.2) s
  · split
    · rfl
    · dsimp only; split
      · rw [standing_setSw, standing_deliver]
      · simp

@[simp] theorem standing_aimAll (s : State) : (State.aimAll s).standing = s.standing := by
  exact standing_setSw s _

@[simp] theorem standing_contestBeats (s : State) (b : Fin 16) : (s.contestBeats b).standing = s.standing := by
  unfold State.contestBeats; (repeat' split) <;> first | rfl | simp

@[simp] theorem standing_presentWake (s : State) (port : PortId) (d : DomainId) : (State.presentWake s port d).standing = s.standing := by
  unfold State.presentWake
  (try dsimp only); (repeat' split) <;> first | (simp; done) | rfl | exact standing_modHearth _ _ _ rfl | exact standing_modFn _ _ _ rfl | exact standing_modFlue _ _ _ rfl

@[simp] theorem standing_startFc (s : State) (limits : TxLimits) : (State.startFc s limits).standing = s.standing := by
  rfl

@[simp] theorem standing_endWork (s : State) (o : Origin) (got : List (Nat × Byte)) (status : CplStatus) : (State.endWork s o got status).standing = s.standing := by
  unfold State.endWork
  (try dsimp only); (repeat' split) <;> first | (simp; done) | rfl | exact standing_modHearth _ _ _ rfl | exact standing_modFn _ _ _ rfl | exact standing_modFlue _ _ _ rfl

@[simp] theorem standing_hostReply (s : State) (o : Origin) (tag : Nat) (got : List (Nat × Byte)) (status : CplStatus) : (State.hostReply s o tag got status).standing = s.standing := by
  unfold State.hostReply
  (try dsimp only); (repeat' split) <;> first | (simp; done) | rfl | exact standing_modHearth _ _ _ rfl | exact standing_modFn _ _ _ rfl | exact standing_modFlue _ _ _ rfl

@[simp] theorem standing_cutPiece (s : State) (h : Fin 64) (p : Piece) : (State.cutPiece s h p).standing = s.standing := by
  unfold State.cutPiece
  (try dsimp only); (repeat' split) <;> first | (simp; done) | rfl | exact standing_modHearth _ _ _ rfl | exact standing_modFn _ _ _ rfl | exact standing_modFlue _ _ _ rfl

@[simp] theorem standing_cutTlp (s : State) (h : Fin 64) (mine : List TxTlp) (t : TxTlp) : (s.cutTlp h mine t).standing = s.standing := by
  unfold State.cutTlp; (repeat' split) <;> first | rfl | simp

@[simp] theorem standing_cutKind0 (s : State) (h : Fin 64) : (s.cutKind0 h).standing = s.standing := by
  unfold State.cutKind0
  dsimp only
  rw [standing_forList _ _ (fun t s => standing_cutTlp s h _ t), standing_forList _ _ (fun p s => standing_cutPiece s h p)]
  rw [standing_setTxq, standing_removePieces]

@[simp] theorem standing_discardKind0 (s : State) (h : Fin 64) : (s.discardKind0 h).standing = s.standing := by
  unfold State.discardKind0
  dsimp only
  rw [standing_forList _ _ (fun o s => by split <;> simp), standing_setTxq, standing_removePieces]

@[simp] theorem standing_dropRecords (s : State) : s.dropRecords.standing = s.standing := by
  unfold State.dropRecords
  dsimp only
  rw [standing_setTxqSampler, standing_removePieces]

@[simp] theorem standing_sendFunc (s : State) (h : Fin 64) (reset : Bool) : (State.sendFunc s h reset).standing = s.standing := by
  unfold State.sendFunc
  split
  · dsimp only; rw [standing_control]; rfl
  · rfl

@[simp] theorem standing_sendFuncOf (s : State) (f : FnId) (reset : Bool) : (State.sendFuncOf s f reset).standing = s.standing := by
  unfold State.sendFuncOf; split <;> simp

@[simp] theorem standing_presentIntx (s : State) (f : FnId) (up : Bool) : (State.presentIntx s f up).standing = s.standing := by
  unfold State.presentIntx
  (try dsimp only); (repeat' split) <;> first | (simp; done) | rfl | exact standing_modHearth _ _ _ rfl | exact standing_modFn _ _ _ rfl | exact standing_modFlue _ _ _ rfl

@[simp] theorem standing_dropBeats (s : State) (id : Nat) : (State.dropBeats s id).standing = s.standing := by
  unfold State.dropBeats
  simp

@[simp] theorem standing_discardReqs (s : State) (pick : HostReq → Bool) : (State.discardReqs s pick).standing = s.standing := by
  unfold State.discardReqs
  exact standing_forList _ _ (fun _ _ => by (try dsimp only); (repeat' split) <;> first | rfl | (simp; done)) _

@[simp] theorem standing_refuseReqs (s : State) (pick : HostReq → Bool) (logged : Bool) : (State.refuseReqs s pick logged).standing = s.standing := by
  unfold State.refuseReqs
  refine standing_forList _ _ (fun x s => ?_) s
  dsimp only; split
  · split <;> simp
  · rfl

@[simp] theorem standing_endFarLocks (s : State) (h : Fin 64) : (State.endFarLocks s h).standing = s.standing := by
  refine standing_forHearths _ (fun m s => ?_) s
  split
  · split
    · exact standing_endFarLock s m false
    · rfl
  · rfl

@[simp] theorem standing_dropWire (s : State) (f : FnId) (intd : Bool) (power : PowerState) : (s.dropWire f intd power).standing = s.standing := by
  unfold State.dropWire
  simp only []; split
  · rw [standing_presentIntx, standing_setIrq]
  · rfl

@[simp] theorem standing_clearSeen (s : State) (p : Fin 4) (half : Fin 2) (v : Dword) : (State.clearSeen s p half v).standing = s.standing := by
  exact standing_forList _ _ (fun i s => by dsimp only; split <;> simp) s

@[simp] theorem standing_afterRead (s : State) (f : FnId) (off : Nat) (v : Dword) : (State.afterRead s f off v).standing = s.standing := by
  unfold State.afterRead; split <;> simp

@[simp] theorem standing_passNp (s : State) (bytes : Nat) : (State.passNp s bytes).standing = s.standing := by
  rfl

@[simp] theorem standing_cfgDone (s : State) (f : FnId) (tag : Nat) (v : Option Dword) : (State.cfgDone s f tag v).standing = s.standing := by
  unfold State.cfgDone; split <;> simp

@[simp] theorem standing_takeCfgRead (s : State) (f : FnId) (off : Nat) (tag : Nat) : (State.takeCfgRead s f off tag).standing = s.standing := by
  simp [State.takeCfgRead]

@[simp] theorem standing_cfgMiss (s : State) (bytes tag : Nat) : (State.cfgMiss s bytes tag).standing = s.standing := by
  unfold State.cfgMiss
  simp

@[simp] theorem standing_sentWrite (s : State) (t : TxTlp) : (s.sentWrite t).standing = s.standing := by
  unfold State.sentWrite; (repeat' split) <;> simp

@[simp] theorem standing_cplStatusBits (s : State) (f : FnId) (status : CplStatus) : (State.cplStatusBits s f status).standing = s.standing := by
  unfold State.cplStatusBits; split <;> simp

@[simp] theorem standing_passPosted (s : State) (bytes : Nat) : (State.passPosted s bytes).standing = s.standing := by
  rfl

@[simp] theorem standing_pmeTurnOff (s : State) : (State.pmeTurnOff s).standing = s.standing := by
  rfl

@[simp] theorem standing_pass (s : State) (t : Tlp) : (State.pass s t).standing = s.standing := by
  unfold State.pass; split <;> simp

@[simp] theorem standing_unsupported (s : State) (t : Tlp) : (State.unsupported s t).standing = s.standing := by
  unfold State.unsupported; dsimp only; (repeat' split) <;> simp

@[simp] theorem standing_takeMem (s : State) (t : Tlp) (read : Bool) : (s.takeMem t read).standing = s.standing := by
  unfold State.takeMem; dsimp only; (repeat' split) <;> simp

@[simp] theorem standing_sendLevels (s : State) (q : Fin 4) (f : FlueId) : (State.sendLevels s q f).standing = s.standing := by
  simp [State.sendLevels]

@[simp] theorem standing_sendReports (s : State) (f : FlueId) : (State.sendReports s f).standing = s.standing := by
  unfold State.sendReports; (try simp only []); first | exact standing_modHearth _ _ _ rfl | exact standing_modFn _ _ _ rfl | exact standing_modFlue _ _ _ rfl

@[simp] theorem standing_pathBegins (s : State) (q : Fin 4) (f : FlueId) : (State.pathBegins s q f).standing = s.standing := by
  unfold State.pathBegins
  (try dsimp only); (repeat' split) <;> first | (simp; done) | rfl | exact standing_modHearth _ _ _ rfl | exact standing_modFn _ _ _ rfl | exact standing_modFlue _ _ _ rfl

@[simp] theorem standing_pathLost (s : State) (q : Fin 4) : (State.pathLost s q).standing = s.standing := by
  refine (standing_forHearths _ (fun n s => ?_) _).trans ((standing_forHearths _ (fun n s => ?_) _).trans (standing_setChim s _))
  · (repeat' split) <;> first | rfl | exact standing_endFarLock _ _ _
  · (repeat' split) <;> first | rfl | exact standing_endLock _ _ _

@[simp] theorem standing_repath (old s : State) : (State.repath old s).standing = s.standing := 
  standing_forList _ _ (fun x s => by split <;> simp) s

@[simp] theorem standing_linksChanged (old s : State) : (State.linksChanged old s).standing = s.standing := by
  unfold State.linksChanged
  dsimp only
  rw [standing_woken, standing_issueWaiting, standing_payOwed, standing_repath, standing_forList _ _ (fun q s => by split <;> simp),
    standing_forList _ _ (fun x s => by split <;> simp)]

@[simp] theorem standing_dropTransit (s : State) (f : FlueId) : (State.dropTransit s f).standing = s.standing := by
  simp [State.dropTransit]

@[simp] theorem standing_forward (s : State) (q : Fin 4) (b : FlueBlk) : (State.forward s q b).standing = s.standing := by
  unfold State.forward; split <;> simp

@[simp] theorem standing_takeReceipt (s : State) (r : Receipt) : (s.takeReceipt r).standing = s.standing := by
  unfold State.takeReceipt
  simp only [standing_issueWaiting]
  exact (standing_forList _ _ (fun u s => standing_endPosted s _ _) _).trans (standing_setChim s _)

@[simp] theorem standing_takeBackoff (s : State) (n : HearthId) (tag : Nat) : (State.takeBackoff s n tag).standing = s.standing := by
  unfold State.takeBackoff
  split
  · rfl
  · dsimp only; (repeat' split) <;> first
      | exact (standing_damp _ _).trans (standing_dropTag s _ _ _)
      | exact (standing_push _ _).trans (standing_dropTag s _ _ _)
      | exact standing_dropTag s _ _ _

@[simp] theorem standing_takeLevels (s : State) (pos : Fin 4) (levels : List LevelEntry) : (State.takeLevels s pos levels).standing = s.standing := by
  unfold State.takeLevels
  exact standing_forList _ _ (fun _ _ => by (try dsimp only); (repeat' split) <;> first | rfl | (simp; done)) _

@[simp] theorem standing_endPass (s : State) (p : Fin 4) : (s.endPass p).standing = s.standing := by
  unfold State.endPass
  simp only []; split
  · rw [standing_logEvent, standing_setChim]
  · rfl

@[simp] theorem standing_dropHearthTags (s : State) (n : HearthId) : (State.dropHearthTags s n).standing = s.standing := by
  rfl


end Sys2Proof.Machine
end

