-- ==== Sys2Proof/Laws/Stone.lean ====
section
/-! SUPPORT. The bytes of the hearthstone: every operation keeps the canonical form, a byte reads as it was last written, and
every other byte reads as before. -/

namespace Sys2Proof.Machine

open Sys2Proof

/-- What stands behind a cell of a canonical list lies above it. -/
theorem wf_cons {a : Nat} {b : Byte} {m : List Host.Cell} :
    Memory.wf ((a, b) :: m) = true ↔ b ≠ 0 ∧ Memory.wf m = true ∧ ∀ c ∈ m.head?, a < c.1 := by
  cases m with
  | nil => simp [Memory.wf]
  | cons c rest =>
    obtain ⟨c, d⟩ := c
    simp only [Memory.wf, Bool.and_eq_true, decide_eq_true_eq, bne_iff_ne, ne_eq, List.head?_cons, Option.mem_some_iff,
      forall_eq']
    tauto

/-- An address below the first listed one reads 0. -/
theorem stoneRead_below {m : List Host.Cell} (h : Memory.wf m = true) {x : Nat} (hx : ∀ c ∈ m.head?, x < c.1) :
    stoneRead m x = 0 := by
  induction m with
  | nil => rfl
  | cons c rest ih =>
    obtain ⟨a, b⟩ := c
    rw [wf_cons] at h
    have hxa : x < a := hx (a, b) rfl
    have : x ≠ a := by omega
    simp only [stoneRead, this, if_false]
    exact ih h.2.1 (fun c hc => Nat.lt_trans hxa (h.2.2 c hc))

/-- The first address of a list after a write. -/
theorem head_stoneWrite {m : List Host.Cell} {x : Nat} {v : Byte} {a : Nat} (hm : Memory.wf m = true)
    (hx : a < x) (h : ∀ c ∈ m.head?, a < c.1) : ∀ c ∈ (stoneWrite m x v).head?, a < c.1 := by
  cases m with
  | nil =>
    simp only [stoneWrite]; split
    · simp
    · simpa using hx
  | cons c rest =>
    obtain ⟨k, b⟩ := c
    have hk : a < k := h (k, b) rfl
    rw [wf_cons] at hm
    simp only [stoneWrite]
    split
    · split
      · simpa using hk
      · simpa using hx
    · split
      · split
        · intro c hc; exact Nat.lt_trans hk (hm.2.2 c hc)
        · simpa using hk
      · simpa using hk

/-- A write keeps the canonical form. -/
theorem wf_stoneWrite {m : List Host.Cell} (h : Memory.wf m = true) (x : Nat) (v : Byte) :
    Memory.wf (stoneWrite m x v) = true := by
  induction m with
  | nil =>
    simp only [stoneWrite]; split
    · rfl
    · next hv => simpa [Memory.wf] using hv
  | cons c rest ih =>
    obtain ⟨a, b⟩ := c
    have hc := h
    rw [wf_cons] at h
    simp only [stoneWrite]
    split
    · next hlt =>
      split
      · exact hc
      · next hv => rw [wf_cons]; exact ⟨hv, hc, by simpa using hlt⟩
    · split
      · split
        · exact h.2.1
        · next hv => rw [wf_cons]; exact ⟨hv, h.2.1, h.2.2⟩
      · next h1 h2 =>
        rw [wf_cons]
        exact ⟨h.1, ih h.2.1, head_stoneWrite h.2.1 (by omega) h.2.2⟩

/-- A byte reads as it was written, and every other byte as before. -/
theorem stoneRead_stoneWrite {m : List Host.Cell} (h : Memory.wf m = true) (x y : Nat) (v : Byte) :
    stoneRead (stoneWrite m x v) y = if y = x then v else stoneRead m y := by
  induction m with
  | nil =>
    simp only [stoneWrite]
    split
    · next hv => simp [stoneRead, hv]
    · simp [stoneRead]
  | cons c rest ih =>
    obtain ⟨a, b⟩ := c
    have hc := h
    rw [wf_cons] at h
    simp only [stoneWrite]
    split
    · next hlt =>
      split
      · next hv =>
        split
        · next hy => rw [hy, hv]; exact stoneRead_below hc (by simpa using hlt)
        · rfl
      · simp only [stoneRead]
    · split
      · next h1 h2 =>
        subst h2
        split
        · next hv =>
          split
          · next hy => rw [hy, hv]; exact stoneRead_below h.2.1 h.2.2
          · next hy => simp [stoneRead, hy]
        · simp only [stoneRead]; split <;> simp
      · next h1 h2 =>
        simp only [stoneRead]; rw [ih h.2.1]
        split
        · next hy => subst hy; simp [Ne.symm h2]
        · rfl

/-- The bytes of a beat keep the canonical form. -/
theorem wf_stoneWriteAll (l : List (Nat × Byte)) {m : List Host.Cell} (h : Memory.wf m = true) :
    Memory.wf (stoneWriteAll m l) = true := by
  unfold stoneWriteAll
  induction l generalizing m with
  | nil => exact h
  | cons c rest ih => exact ih (wf_stoneWrite h c.1 c.2)

/-- Bytes a beat does not list read as before. -/
theorem stoneRead_stoneWriteAll (l : List (Nat × Byte)) {m : List Host.Cell} (h : Memory.wf m = true) (y : Nat)
    (hy : ∀ c ∈ l, c.1 ≠ y) : stoneRead (stoneWriteAll m l) y = stoneRead m y := by
  unfold stoneWriteAll
  induction l generalizing m with
  | nil => rfl
  | cons c rest ih =>
    rw [List.foldl_cons, ih (wf_stoneWrite h c.1 c.2) (fun d hd => hy d (List.mem_cons_of_mem _ hd)),
      stoneRead_stoneWrite h, if_neg (fun e => hy c List.mem_cons_self e.symm)]

end Sys2Proof.Machine
end

