-- ==== Sys2Proof/Tests/Slice0.lean ====
section
/-! SUPPORT. Tests: an ill-formed command for each check of WellFormed.lean, small steps whose results come from the
spec, and for each statement the states and operands that meet its hypotheses. -/

open Sys2Proof Sys2Proof.Machine

namespace Sys2Proof.Tests

set_option Elab.async false

/-! ### States the tests use -/

def after (c : Instr) (s : State) : State :=
  match exec c s with
  | .next t => t
  | _ => s

def dw3 : DWin := { off := 0, base := 0x4000, size := 4096, nonPosted := false, dataInv := false, errResp := true, ca := true }
def uw3 (base : Nat) (kind : Fin 4) (m : HearthId) : UWin :=
  { base := base, size := 0x10000, kind := kind, nonPosted := false, errResp := true, dataInv := false, toff := 0, m := m, pos := 0 }

def cfg3 : HearthCfg :=
  { HearthCfg.reset with
    ok := true
    lanes := 4
    slotRoute := true
    dw := vset HearthCfg.reset.dw 0 (some dw3)
    uw := vset (vset (vset HearthCfg.reset.uw 0 (some (uw3 0x10000 1 0))) 1 (some (uw3 0x20000 0 0))) 2 (some (uw3 0x30000 2 4))
    irq := vset (vset HearthCfg.reset.irq 0 (.inta 4)) 1 (.irqo 4 1)
    entries := vset (vset HearthCfg.reset.entries 0 0x43) 1 145 }

def hearth3 : Hearth :=
  { Hearth.reset with
    slot := .inService, cfg := cfg3, presBall := true, presLow := true, pgoodBall := true, pgood := true }

def lims : TxLimits :=
  { ph := none, pd := none, nph := none, npd := none, cplh := none, cpld := none,
    phScale := 0, pdScale := 0, nphScale := 0, npdScale := 0, cplhScale := 0, cpldScale := 0 }

/-- The balls of the six supplies, all valid, and the same with VCORE gone. -/
def volts : Volts := { vcore := 750, vphy := 900, vphyh := 1200, vflue := 900, vaux := 3300, vstrap := 1800 }
def dropped : Volts := { volts with vcore := 600 }

/-- A ball at a steady voltage. -/
def steadyAt (uv : Nat) : Reading := { checkUv := 0, convertUv := List.replicate 300 uv }

/-- A bridge in M1 with the gate open, the link in L0 and hearths 3 and 4 in service, every domain ON. -/
def up : State :=
  { State.reset with
    mode := .m1, strapMode := .m1, gate := true, slotPower := true, readyOnce := true
    clk := { State.reset.clk with tally := 300000 }
    straps := { State.reset.straps with seq := none, seqDone := true, lastGroup := 47, checkedOnce := true }
    island := { State.reset.island with clearMark := false, haux := some 15 }
    prot := { State.reset.prot with inService := true }
    cfg := { GlobalCfg.reset with budgetCode := 3 }
    doms := Vector.replicate 162 (.on 299990)
    ledger := { Ledger.reset with st := .opened, budget := 204800, balance := 204800, windows := 300, refills := 300 }
    link := { HostLink.reset with st := .l0, width := 16, rate := .g32 }
    fc := { Fc.reset with limits := lims }
    fns := Vector.replicate 65 { FnCfg.reset with mse := true, bme := true }
    hearths := vset (vset State.reset.hearths 3 hearth3) 4 hearth3 }

def withHearth (f : Hearth → Hearth) (s : State) : State := s.modHearth 3 f

def cycle0 (ph : Phase) : Cycle :=
  { serial := 7, arrival := 299995, read := true, addr := 0x10008, be := 15, lockLow := false, locked := false,
    win := uw3 0x10000 1 0, bytes := [(8, 0), (9, 0), (10, 0), (11, 0)], rdata := 0, fetched := none, phase := ph, captured := false }

def cyc (ph : Phase) : State := withHearth (fun h => { h with cyc := some (cycle0 ph) }) up

def pieceTo (dst : PortId) : Piece :=
  { id := 5, cls := .posted, kind := .postedWrite, src := 16, dst := dst, srcPos := 0, dstPos := 0, key := 15, addr := 0x100,
    bytes := [(0x100, 0xAA), (0x101, 0xBB)], tag := 0x3FF, status := .sc, origin := .none, fn := 4, wfn := 4,
    errResp := true, ca := true, far := dst, reqPort := 16, readyAt := 1, input := 0, code := 0, whole := none }

def tcycle (a : BitVec 32) : TCycle := { addr := a, be := 15, data := 0, lanes := [(0, 0x100), (1, 0x101)] }

def job0 (l : List TCycle) : Job :=
  { piece := pieceTo 3, read := false, cycles := l, got := [], buffered := false, started := true }

def busState (f : Bus → Bus) : State := withHearth (fun h => { h with bus := f h.bus }) up

def reqBus : State := busState fun b => { b with jobs := [job0 [tcycle 0x100]] }
def askBus : State := busState fun b => { b with breqLow := true, breqSince := 299999, jobs := [job0 [tcycle 0x100]] }
def ownBus (l : List TCycle) : State :=
  busState fun b => { b with breqLow := true, granted := true, strobe := some 299999, jobs := [job0 l] }
def backBus : State := busState fun b => { b with breqLow := true, granted := true, waitRelease := true, count := 64 }

def rq (len : Nat) (data : List Byte) : MemReq :=
  { off := 0x10, len := len, be := [], data := data, tag := 7, poisoned := false, hdr := Vector.replicate 4 0 }

def strobe0 (rd wr : Bool) (a : BitVec 32) : Strobe := { rd := rd, wr := wr, addr := a, be := 15, data := 0xDEADBEEF, lock := false }

def hreq (st : ReqSt) : HostReq :=
  { id := 0, fn := 4, stone := false, read := true, off := 16, len := 8, bytes := [], dataLen := 0, tag := 7,
    hdr := Vector.replicate 4 0, receipt := 299900, wdStart := 299900, st := st, nonPosted := false, pooled := false,
    credits := true, left := 1, openPieces := 1, nextOff := 16, got := [],
    parts := [{ off := 16, len := 8, errResp := true, ca := true }] }

def tlp0 (k : TlpKind) (addr : Nat) : Tlp :=
  { kind := k, fn := 0, addr := addr, len := 4, be := [], data := [], tag := 3, status := .sc, bus := 1, poisoned := false,
    digest := false, tlpPrefix := false, malformed := false, hdr := Vector.replicate 4 0 }

def tx0 (k : TxKind) : TxTlp := { bareTlp k 4 with id := 9, len := 4 }

def frame0 : FrameStats :=
  { edges := (List.range 64).map fun i => if i = 40 then 100 else 0, ones := 4096, zeros := 4096, afterOne := 4000,
    onesAfterOne := 2000, afterZero := 4000, onesAfterZero := 2000 }

def lanes0 (st : LaneSt) : State := { up with lanes := vmap (fun _ x => { x with st := st, thrT := some 3 }) up.lanes }

def adv0 (p : Fin 4) : Adv :=
  { pos := p, csize := 3, fwd := false, hold := false, clkHere := false, hop := 2, xoff := 0, know := Vector.replicate 4 1 }

/-- Position 0 of a chimney of three. -/
def chm (m : Mode) (p : Fin 4) : State :=
  { up with
    mode := m
    cfg := { up.cfg with csize := 3, fluesOk := true, cpos := p }
    flueA := { Flue.reset with st := .active, far := some (adv0 (p + 1)), xoff := 1, tags := [(5, .cycle 3 7, 20)] }
    flueB := { Flue.reset with st := .active, far := some (adv0 2) } }

def test0 : TestLane := { TestLane.reset with valid := true, pattern := 2, loop := 1, period := 3, since := some 299000 }
def labs (f : TestLane → TestLane) : State :=
  { up with mode := .m5, strapMode := .m5, tests := vmap (fun i x => if i.val = 0 then f test0 else x) up.tests }

def blk (num : BitVec 16) : PieceBlk :=
  { cls := .posted, srcPos := 2, dstPos := 0, locked := false, srcPort := 3, kind := .postedWrite, dstPort := 19, status := .sc,
    key := 15, tag := 0, addr := 0x40, bytes := [(0x40, 1)], num := num, input := 0, code := 0, whole := none }

/-! ### Well-formedness: one ill-formed command for each check -/

theorem test_wf_strapGroup : Instr.wf (.strapGroupEnd (List.replicate 36 (steadyAt 0))) = false ∧
    Instr.wf (.strapGroupEnd [⟨0, [5]⟩]) = false := by decide +kernel
theorem test_wf_histograms : Instr.wf (.equalizationPhase2 .g16 0 []) = false ∧ Instr.wf (.equalizationPhase2 .g16 0 (List.replicate 176 [1])) = false ∧
    Instr.wf (.equalizationPhase2 .g5 0 (List.replicate 176 (List.replicate 64 1))) = false := by decide +kernel
theorem test_wf_frames : Instr.wf (.bellowsFrameEnd 0 { frame0 with edges := [] }) = false ∧
    Instr.wf (.acquireFrameEnd 0 { frame0 with onesAfterOne := 4001 }) = false := by decide +kernel
theorem test_wf_tlp : Instr.wf (.tlpReceived 0 true { tlp0 .mRd 0 with tag := 1024 }) = false := by decide +kernel
theorem test_wf_config : Instr.wf (.configWrite 0 2 15 0 0 0) = false ∧ Instr.wf (.configWrite 0 4 15 0 0 1024) = false ∧
    Instr.wf (.sootReportRead 0 0 1024) = false := by decide +kernel
theorem test_wf_requests : Instr.wf (.memoryReadBar0 0 (rq 0 [])) = false ∧ Instr.wf (.memoryWriteBar0 0 (rq 4 [])) = false ∧
    Instr.wf (.memoryReadBar2 (rq 4097 [])) = false ∧ Instr.wf (.memoryWriteBar2 (rq 1 [1, 2])) = false := by decide +kernel
theorem test_wf_completion : Instr.wf (.completionReceived 1024 .sc false [] 0 (Vector.replicate 4 0)) = false := by decide +kernel
theorem test_wf_strobe : Instr.wf (.hearthCycleStart 0 (strobe0 false false 0)) = false := by decide +kernel
theorem test_wf_readings : Instr.wf (.reloadApply 0 (List.replicate 35 (steadyAt 0))) = false ∧
    Instr.wf (.resampleEnd (List.replicate 35 (steadyAt 0))) = false := by decide +kernel
theorem test_wf_blocks : Instr.wf (.pieceReceived .a none { blk 0 with bytes := [(2, 0), (1, 0)] }) = false ∧
    Instr.wf (.reportReceived ⟨.a, 0⟩ 0 0 [] true) = false ∧ Instr.wf (.reportReceived ⟨.a, 0⟩ 0 1024 (List.replicate 14 0) true) = false := by decide +kernel
theorem test_wf_checker : ∀ n : Nat, n = 65537 → Instr.wf (.checkerWindowEnd 0 (List.replicate n false)) = false ∧
    Instr.wf (.checkerLock ⟨0, List.replicate n false⟩) = false ∧ Instr.wf (.selfCheckHoldEnd 0 (List.replicate n false) 0) = false := by
  intro n h
  simp only [Instr.wf, bitsWf, List.length_replicate, decide_eq_false_iff_not]
  omega
theorem test_wf_boundary : Instr.wf (.extest [] []) = false ∧ Instr.wf (.samplePreload [] []) = false ∧
    Instr.wf (.extestPulse [] []) = false ∧ Instr.wf (.extestTrain [] []) = false := by decide +kernel
theorem test_wf_bypass : Instr.wf (.bypass 0x01) = false ∧ Instr.wf (.bypass 0xFF) = true := by decide +kernel
theorem test_wf_training : Instr.wf (.linkTrainingComplete 0 .g32 0 ⟨lims, [], false⟩) = false ∧
    Instr.wf (.linkTrainingComplete 1 .g32 0 ⟨lims, List.replicate 17 none, false⟩) = false := by decide +kernel

/-! ### Witnesses: states and operands that meet the hypotheses of the statements, clause by clause -/

theorem witness_EmptyQueueTicks : (up.pending = [] ∧ up.running = true) ∧
    (after .refclkStop up).pending = [] ∧ (after .refclkStop up).running = false := by decide +kernel

theorem witness_ModeChangesOnlyThere : ∃ t, exec (.supplyInvalid dropped) up = .next t ∧ t.mode ≠ up.mode :=
  ⟨_, rfl, by decide +kernel⟩

def clearing : State := { up with stone := [⟨5, 9⟩], island := { up.island with clearFrom := some 299000 } }

theorem witness_HearthstoneChangesOnlyThere :
    ∃ t, exec .hearthstoneClearComplete clearing = .next t ∧ stoneRead t.stone 5 ≠ stoneRead clearing.stone 5 :=
  ⟨_, rfl, by decide +kernel⟩

theorem witness_InvariantKept : ∃ t, Memory.wf up.stone = true ∧ up.ledger.balance ≤ up.ledger.budget ∧ up.soot.faults ≤ 0xFFFF ∧
    up.soot.flueEvents ≤ 0xFFFF ∧ up.sampler.queue.length ≤ 16 ∧ (∀ r ∈ up.reqs, r.id < up.nextId) ∧
    step { up with pending := [.refclkStop] } = .next t ∧ t.clk.stopped = true :=
  ⟨_, by decide +kernel, by decide +kernel, by decide +kernel, by decide +kernel, by decide +kernel, by decide +kernel, rfl, rfl⟩

def dark : State := after (.supplyInvalid dropped) up
def clocks : Toggles := { refclk := none, flueA := some 7, flueB := some 7, periods := 1000 }

theorem witness_SupplyEvents : (dark.clk.counting = false ∧ 1000 ≤ clocks.periods ∧ (dark.island.sense volts).supplies = true ∧
      Toggles.first clocks = some .flueA) ∧
    (up.clk.counting = true ∧ up.island.falls (up.island.sense volts) = false ∧ up.island.falls (up.island.sense dropped) = true) ∧
    (up.island.vaux = true ∧ (up.island.sense dropped).vaux = true ∧ (up.island.sense { volts with vaux := 0 }).vaux = false) := by
  decide +kernel

/-- R76 at the thresholds, and R79 with each clock first. -/
theorem witness_SupplyEvents_bounds : (up.island.supplies = true ∧
      up.island.falls (up.island.sense { vcore := 660, vphy := 790, vphyh := 1060, vflue := 790, vaux := 2900, vstrap := 1580 }) = false ∧
      ((Island.sense dark.island { volts with vcore := 690 }).vcore = false ∧ (Island.sense dark.island { volts with vcore := 691 }).vcore = true)) ∧
    Toggles.first { clocks with refclk := some 7 } = some .refclk ∧ Toggles.first { clocks with flueA := some 8 } = some .flueB ∧
    Toggles.first { clocks with refclk := some 8 } = some .flueA ∧ Toggles.first { refclk := none, flueA := none, flueB := none, periods := 0 } = none := by
  decide +kernel

theorem witness_SupplyEvents_aux : dark.island.falls (dark.island.sense dropped) = false ∧ (dark.island.sense dropped).vaux = true ∧
    (dark.island.sense dropped).supplies = false ∧ dark.island.haux = some 15 ∧ (dark.hearth 3).presBall = true := by decide +kernel

theorem witness_VhearthBanks : (vget up.island.banks 2 = true ∧ vget (after (.vhearthBankInvalid ⟨2, 2899⟩) up).island.banks 2 = false ∧
      2900 ≤ 3040) ∧ (3 : HearthId) ∈ bankHearths 2 ∧ (0 : HearthId) ∉ bankHearths 2 ∧
    (up.hearth 3).slot.powered = true ∧ (State.reset.hearth 3).slot.powered = false := by decide +kernel

theorem witness_PerstFilter : (up.running = true ∧ up.island.perstLow = false ∧ 16 ≤ 16 ∧ 15 < 16) ∧
    (after (.perstAssertion 16) up).running = true ∧ (after (.perstAssertion 16) up).island.perstLow = true := by decide +kernel

theorem witness_CodeWindows : ((steadyAt 50000).wf = true ∧ (steadyAt 50000).checkUv ≤ 150000 ∧ (classify (steadyAt 50000)).2 = .gap ∧
      classify (steadyAt 140000) = (1, .valid)) ∧
    (windowCode 39999 = some 0 ∧ windowCode 40000 = none ∧ windowCode 60000 = some 1 ∧ windowCode 140000 = some 1 ∧
      windowCode 140001 = none ∧ windowCode 1440000 = some 14 ∧ windowCode 1539999 = none ∧ windowCode 1540000 = some 15) := by
  decide +kernel

theorem witness_GroupZeroSetsTheMode : State.reset.running = true ∧ State.reset.island.perstLow = false ∧
    State.reset.straps.seq = some 0 ∧ (after (.strapGroupEnd []) State.reset).clk.source = State.reset.clk.source ∧
    (after (.strapGroupEnd []) { State.reset with clk := { State.reset.clk with source := .flueA } }).clk.source = .refclk := by
  decide +kernel

def seqAt (g : Nat) : State := { State.reset with straps := { State.reset.straps with seq := some g } }

theorem witness_LaterGroups : (seqAt 15).running = true ∧ (seqAt 15).island.perstLow = false ∧ (seqAt 15).straps.seq = some 15 ∧
    0 < 15 ∧ 15 < 48 ∧ (seqAt 15).strapMode.tests = false ∧ (seqAt 14).straps.seq = some 14 ∧ (seqAt 47).straps.seq = some 47 ∧
    47 = 17 + 2 * (15 : HearthId).val ∧ ((after (.strapGroupEnd []) (seqAt 23)).hearth 3).slot ≠ .ready := by decide +kernel

/-- Hearth 3 of M1 at the end of its groups, every strap at code 0 and HnPGOOD high. -/
def readyAtEnd : State :=
  withHearth (fun h => { h with slot := .parked, goodAtGroup := true, balls := Vector.replicate 69 { code := 0, own := .valid, shown := .valid } })
    { up with straps := { up.straps with seq := some 23, seqDone := false } }

theorem witness_LaterGroups_ready : readyAtEnd.running = true ∧ readyAtEnd.mode.serves = true ∧ readyAtEnd.straps.seq = some (17 + 2 * 3) ∧
    ((after (.strapGroupEnd (List.replicate 34 (steadyAt 0))) readyAtEnd).hearth 3).slot = .ready := by decide +kernel

def preGate : State := { up with gate := false, hearths := vmod up.hearths 4 fun h => { h with slot := .ready } }

theorem witness_SlotPowerAndGate :
    ({ up with slotPower := false }.running = true ∧ { up with slotPower := false }.clk.live = true ∧
      { up with slotPower := false }.straps.seqDone = true) ∧ { chm .m2 0 with slotPower := false }.chimney = true ∧
    (preGate.running = true ∧ preGate.slotPower = true ∧ preGate.gate = false ∧ (preGate.hearth 4).slot = .ready ∧
      preGate.mode.exposes = true ∧ { preGate with mode := .m3 }.mode.exposes = false) := by decide +kernel

def closed : State := { State.reset with straps := { State.reset.straps with seq := some 1 } }

theorem witness_FirstWindow : closed.ledger.st = .closed ∧ closed.running = true ∧ closed.pastGroup0 = true ∧
    State.reset.ledger.st = .closed ∧ State.reset.pastGroup0 = false := by decide +kernel

def wakeItem : Item := { id := 1, port := 16, tick := 299999, path := [0], cost := 0, work := .laneWake, heldAt := none, heldTick := 0 }
theorem witness_EmbersConserved : up.running = true ∧ up.ledger.st = .opened ∧ up.pastGroup0 = true ∧
    { up with items := { up.items with service := [wakeItem] } }.coreRuns = true ∧
    (up.advanceTS (2500 + 1024 * up.ledger.windows)).coreRuns = false ∧
    ({ up with items := { up.items with service := [wakeItem] } }.advanceTS (2500 + 1024 * 300)).coreRuns = true := by decide +kernel

def poor : State :=
  { up with doms := vset up.doms 0 .off, ledger := { up.ledger with balance := 0 }, items := { up.items with service := [wakeItem] } }

theorem witness_Admission : (poor.running = true ∧ poor.coreRuns = true ∧ poor.ledger.st = .opened) ∧
    ((after .ledgerAdmission poor).items.service.head?.bind fun it => (after .ledgerAdmission poor).barred it) = some .short ∧
    ({ up with ledger := { up.ledger with st := .off } }.ledger.st = .off ∧ ∀ d, (up.dom d).falling = false) := by decide +kernel

theorem witness_DomainsWakeAndSleep : ({ up with doms := vset up.doms 69 (.waking 300009) }.dom 69 = .waking 300009 ∧
      rxLane 69 = none ∧ { up with doms := vset up.doms 69 (.goingDown 300009) }.dom 69 = .goingDown 300009) ∧
    (up.dom 69 = .on 299990 ∧ (Config.idlePeriod 69).isSome = true ∧ up.domBusy 69 = false ∧ Config.idlePeriod 159 = none) := by
  decide +kernel

theorem witness_LinkTrainsAndEqualizes : (up.running = true ∧ up.mode.exposes = true ∧ up.gate = true ∧ up.link.st = .l0) ∧
    (16 ∈ ([16, 8, 4, 2, 1] : List Nat) ∧ 16 ≤ up.maxWidth ∧ up.widthTrains 0xFFFF 16 false = true) ∧ up.bestWidth 0 = none ∧
    ({ up with link := { up.link with st := .detect } }.link.st = .detect ∧
      { up with link := { up.link with st := .detect } }.detectQuietDone = true) := by decide +kernel

theorem witness_Equalization : fastRate .g16 = true ∧ rateIdx .g16 ≤ rateIdx up.cfg.hrate ∧ (0 : Fin 16) ∈ up.linkLanes ∧
    (up.dom (rxDom 0)).isOn = true ∧ histogramsWf (List.replicate 176 (List.replicate 64 1)) = true ∧
    (List.replicate 64 1).length = 64 := by decide +kernel

def asleep : State := { up with link := { up.link with st := .l1 .l10 }, doms := vmap (fun i d => if i.val < 32 then .off else d) up.doms }

theorem witness_LinkLowPower : up.l0sSupported = true ∧ up.txq = [] ∧ up.dll.resend = [] ∧ up.dll.ackDue = false ∧ up.fc.alloc = up.fc.sent ∧
    { up with cfg := { up.cfg with haspm := 0 } }.l0sSupported = false ∧ up.l1Supported = true ∧ up.nothingForHost = true ∧
    { up with link := { up.link with l1Asked := true } }.l1Wanted = true ∧
    (asleep.link.st = .l1 .l10 ∧ asleep.substates = true ∧ asleep.ledger.ltrPending = false ∧ asleep.dom (txDom 0) = .off) ∧
    (0 : Fin 16) ∈ (lanes0 .tracking).trainedLanes ∧ ((lanes0 .tracking).lane (hostLane 0)).st = .tracking := by decide +kernel

theorem witness_Clkreq : asleep.running = true ∧ asleep.mode = .m1 ∧ asleep.link.st.isL1 = true ∧ asleep.substates = true ∧
    asleep.quiet = true ∧ 100000 < 100001 ∧ asleep.link.clkreqReleased = false ∧
    (after (.clkreqRelease 100001) asleep).link.clkreqReleased = true ∧ (after (.clkreqRelease 100001) asleep).padsActive 3 = true := by
  decide +kernel

theorem witness_StoppedClockPauses : ∃ t, up.clk.source = .refclk ∧ up.clk.stopped = false ∧
    exec .refclkStop up = .next t ∧ t.pending = [] :=
  ⟨_, by decide +kernel, by decide +kernel, rfl, by decide +kernel⟩

theorem witness_LinkErrorsRecorded : up.hostLinkUp = true ∧ up.link.st = .l0 ∧ up.linkActive = true := by decide +kernel

theorem witness_MarginChangesNoTap : up.hostLinkUp = true ∧ up.link.st = .l0 ∧ up.link.rate = .g32 ∧ (0 : Fin 16) ∈ up.trainedLanes ∧
    { up with link := { up.link with rate := .g8 } }.link.rate ≠ .g16 := by decide +kernel

theorem witness_BellowsFramesAndGaps : frame0.wf = true ∧ ((lanes0 .tracking).lane 0).calibrates = true ∧
    (lanes0 .tracking).receives 0 = true ∧ (lanes0 .tracking).isTest 0 = false ∧ ((lanes0 .acquiring).lane 0).st = .acquiring ∧
    ((lanes0 .acquiring).dom (laneDom 0)).isOn = true ∧
    ((lanes0 .tracking).ledger.st = .opened ∧ (lanes0 .tracking).anyHeld = false ∧ 6 ≤ (lanes0 .tracking).ledger.balance) ∧
    ((lanes0 .tracking).lane 0).due ≠ 0 ∧ { lanes0 .tracking with ledger := Ledger.reset }.ledger.st = .closed := by decide +kernel

theorem witness_LaneStarved :
    ({ up with lanes := vmod up.lanes 0 fun x => { x with pendingFrom := some 290000 } }.lane 0).pendingFrom = some 290000 := by
  decide +kernel

theorem witness_TlpLeaves : ({ up with dll := { up.dll with resend := [(0, tx0 .cpl)] } }.linkActive = true ∧
      { up with dll := { up.dll with resend := [(0, tx0 .cpl)] } }.dll.resend = [(0, tx0 .cpl)]) ∧
    ({ up with txq := [tx0 .mrd] }.pickTlp [] [tx0 .mrd] = some (tx0 .mrd) ∧ { up with txq := [tx0 .mrd] }.replayRoom (tx0 .mrd) = true ∧
      TxKind.needsTag (tx0 .mrd).kind = true ∧ TxKind.needsTag (tx0 .cpl).kind = false) ∧ up.pickTlp [] up.txq = none := by
  decide +kernel

def replaying : State := { up with dll := { up.dll with txSeq := 1, replay := [(0, tx0 .cpl)] } }

theorem witness_AckNakReplay : up.linkActive = true ∧ up.badAck 5 = true ∧ replaying.badAck 0 = false ∧ replaying.badAck 0xFFF = false ∧
    replaying.dll.replay ≠ [] ∧ (after (.nakReceived 0xFFF) replaying).dll.replay ≠ [] ∧
    (after (.nakReceived 0) replaying).dll.replay = [] := by decide +kernel

theorem witness_TlpArrives : up.linkActive = true ∧ 2048 < (up.dll.rxSeq - (1 : BitVec 12)).toNat ∧
    ((0xFFF : BitVec 12) ≠ up.dll.rxSeq ∧ (up.dll.rxSeq - (0xFFF : BitVec 12)).toNat ≤ 2048) ∧
    (up.overflows (tlp0 .vendor1 0) = false ∧ (tlp0 .vendor1 0).malformed = false ∧ (tlp0 .vendor1 0).tlpPrefix = false ∧
      (tlp0 .vendor1 0).data.length ≤ (up.fn (up.addressed (tlp0 .vendor1 0))).mps) ∧ (tlp0 .ioRd 0).kind = .ioRd := by decide +kernel

def bar3 : State := { up with fns := vmod up.fns 4 fun c => { c with bar := 0x1000000 } }

theorem witness_TlpArrives_read : bar3.memTarget 0x1000010 = some 4 ∧ hearthOfFn 4 = some 3 ∧
    bar3.overflows (tlp0 .mRd 0x1000010) = false := by decide +kernel

theorem witness_UpdateFc : up.linkActive = true ∧ fcViolates up.fc.limits .posted 0 0 = false ∧
    fcViolates up.fc.limits .posted 5 5 = true ∧ up.exposed 4 = true := by decide +kernel

theorem witness_ConfigurationWrites : up.cfgReaches 4 = true ∧ (0x104 : Fin 4096).val % 4 = 0 ∧
    (0x104 : Fin 4096).val ∉ [0x04, 0x10, 0x14, 0x18, 0x1C, 0x44, 0x58, 0x78, 0x160] ∧
    ((0x18 : Fin 4096).val % 8 = 0 ∧ (0x1C : Fin 4096).val % 8 = 4 ∧ up.cfgReaches 0 = true) := by decide +kernel

theorem witness_FieldWrites : (up.fn 4).bme = true ∧ hearthOfFn 4 = some 3 ∧ up.cfgReaches 4 = true := by decide +kernel

def inFlr : State := after (.initiateFlr 3) up

theorem witness_FunctionResets : up.cfgReaches (fnOfChimney 3) = true ∧ posOf 3 = up.pos ∧ (up.hearth (hearthOf 3)).slot.pads = true ∧
    (inFlr.fn (fnOfChimney 3)).flr = some 300000 ∧ (inFlr.hearth 3).resetFrom = some 300000 ∧ inFlr.running = true ∧
    { inFlr with irq := { inFlr.irq with asserted := [⟨0, 3, 0, 0x43, .inta 4⟩] } }.intaCount 4 = true ∧
    (0 : HearthId) ≠ hearthOf 3 := by decide +kernel

theorem witness_FunctionResets_zero : up.cfgReaches 0 = true ∧ ((after .flrFunction0 up).fn 0).flr = some 300000 := by decide +kernel

theorem witness_LinkFalls : up.hostLinkUp = true ∧ up.gate = true ∧ preGate.gate = false ∧ up.mode.tests = false ∧
    up.exposed 4 = true ∧ (labs id).mode.tests = true := by decide +kernel

theorem witness_RequestsTurnedAway : inFlr.hostLinkUp = true ∧ (∀ r ∈ inFlr.reqs, r.id < inFlr.nextId) ∧ (rq 8 []).wf true = true ∧
    (rq 1 [1]).wf false = true ∧ inFlr.exposed (fnOfChimney 3).val = true ∧ (inFlr.fn 4).flr.isSome = true ∧ (inFlr.fn 0).flr = none ∧
    { up with fns := vmod up.fns 4 fun c => { c with power := .d3hot } }.fn 4 ≠ up.fn 4 := by decide +kernel

theorem witness_StoneRequests : up.hostLinkUp = true ∧ (∀ r ∈ up.reqs, r.id < up.nextId) ∧ (rq 8 []).wf true = true ∧
    (up.fn 0).flr = none ∧ up.mode.tests = false ∧ up.mode ≠ .m7 ∧ (up.fn 0).mse = true ∧ (up.fn 0).power = .d0 ∧
    up.stoneFault 15 ((List.range 8).map (16 + ·)) = none ∧
    { up with prot := { up.prot with inService := false } }.stoneFault 15 ((List.range 8).map (16 + ·)) = some 16 ∧
    16 + 8 ≤ 1048576 ∧ 1048576 < 1048575 + 8 := by decide +kernel

def sampling3 : State := withHearth (fun h => { h with slot := .sampling }) up
def keyed : State := withHearth (fun h => { h with cfg := { h.cfg with hkey := 3, ktag := 9 } }) up

theorem witness_HearthRequests : up.hostLinkUp = true ∧ (3 : Fin 64) = chimneyOf up.pos 3 ∧ up.exposed (fnOfChimney 3).val = true ∧
    (up.fn (fnOfChimney 3)).flr = none ∧ (up.fn (fnOfChimney 3)).mse = true ∧ (sampling3.hearth 3).slot = .sampling ∧
    up.holdoff 3 = false ∧ (up.hearth 3).slot = .inService ∧ (up.hearth 3).reload = none ∧
    (up.hearth 3).cfg.parts 8 0x9000 4 = none ∧ ((up.hearth 3).cfg.parts 8 0x10 8).isSome = true ∧
    keyMatches (up.hearth 3).cfg.hkey (up.hearth 3).cfg.ktag = true ∧
    keyMatches (keyed.hearth 3).cfg.hkey (keyed.hearth 3).cfg.ktag = false ∧ up.reqs = [] := by decide +kernel

def tag0 : HostTag :=
  { tag := 2, fn := 4, hearth := some 3, origin := .cycle 3 7, flush := false, addr := 0, len := 4, sent := 299000 }
def reading : State := { cyc .inFlight with tags := [tag0] }

theorem witness_CompletionsForReads : reading.hostLinkUp = true ∧ (reading.tags.find? fun y => y.tag = 2) = some tag0 ∧
    reading.exposed tag0.fn.val = true ∧ (reading.hearth 3).cyc = some (cycle0 .inFlight) ∧ (cycle0 .inFlight).serial = 7 ∧
    (cycle0 .inFlight).read = true ∧ (∀ x ∈ reading.tags, x.tag ≠ 9) ∧ reading.running = true := by decide +kernel

def heldReq : State := { up with reqs := [hreq .held], nextId := 1 }
def openReq : State := { up with reqs := [hreq .issued], nextId := 1 }
def farReq : State := { chm .m2 0 with reqs := [{ hreq .issued with fn := 17 }], nextId := 1 }

theorem witness_RequestDeadlines : heldReq.req 0 = some (hreq .held) ∧ (hreq .held).stone = false ∧ heldReq.running = true ∧
    heldReq.exposed (hreq .held).fn.val = true ∧ openReq.req 0 = some (hreq .issued) ∧ farReq.req 0 = some { hreq .issued with fn := 17 } ∧
    farReq.isLocal { hreq .issued with fn := 17 } = false := by decide +kernel

theorem witness_CycleStarts : up.running = true ∧ up.hears 3 = true ∧ (strobe0 true false 0x10008).wf = true ∧
    (strobe0 true true 0x10008).wf = true ∧ (up.hearth 3).cfg.combined = false ∧ (up.hearth 3).cfg.up 0x50000 = none ∧
    (up.hearth 3).cfg.up 0x10008 = some (uw3 0x10000 1 0) ∧ (∀ m, (up.hearth m).lock = none) ∧
    up.stoneFault 0 ((up.newCycle 3 (strobe0 true false 0x10008) (uw3 0x10000 1 0)).bytes.map Prod.fst) = none ∧
    (up.newCycle 3 (strobe0 true false 0x10008) (uw3 0x10000 1 0)).bytes ≠ [] ∧ (up.hearth 3).bus.breqLow = false := by decide +kernel

theorem witness_CycleStarts_fault : { up with prot := { up.prot with inService := false } }.stoneFault 0
    ((up.newCycle 3 (strobe0 true false 0x10008) (uw3 0x10000 1 0)).bytes.map Prod.fst) = some 8 := by decide +kernel

theorem witness_CycleEnds : ((cyc .paying).hearth 3).cyc = some (cycle0 .paying) ∧ (cycle0 .paying).phase.isOpen = true ∧
    (cyc .paying).exposed (fnOf 3).val = true ∧ (cycle0 .paying).win.errResp = true ∧ (cycle0 (.answered .ack 299999)).phase = .answered .ack 299999 ∧
    (after .refclkStop (cyc .paying)).running = false := by decide +kernel

theorem witness_BusArbitration : (reqBus.running = true ∧ (reqBus.hearth 3).slot = .inService ∧ (reqBus.hearth 3).resetFrom = none ∧
      (reqBus.hearth 3).bus.breqLow = false ∧ (reqBus.hearth 3).bus.breqFrom = none ∧ reqBus.reqs = [] ∧ reqBus.chim.held = [] ∧
      reqBus.anyPiece (Piece.forBus 3) = true ∧ (reqBus.hearth 3).cyc = none) ∧
    ((askBus.hearth 3).bus.breqLow = true ∧ (askBus.hearth 3).bus.granted = false ∧ (askBus.hearth 3).lock = none ∧
      askBus.scanHides 3 1 = false ∧ askBus.scanHides 3 2 = false ∧ (askBus.hearth 3).bus.strobe = none ∧ askBus.lockEnds = [] ∧ ∀ m, (askBus.hearth m).lock = none) := by
  decide +kernel

def blocked : State := { askBus with hearths := vmod askBus.hearths 4 fun h =>
  { h with cyc := some { cycle0 .blocked with win := uw3 0x30000 2 3 } } }

theorem witness_BusArbitration_blocked : (blocked.hearth 4).cyc = some { cycle0 .blocked with win := uw3 0x30000 2 3 } ∧
    (uw3 0x30000 2 3).kind = 2 ∧ (uw3 0x30000 2 3).m = 3 := by decide +kernel

theorem witness_BridgeAsMaster : ((ownBus [tcycle 0x100, tcycle 0x104]).running = true ∧
      ((ownBus [tcycle 0x100, tcycle 0x104]).hearth 3).bus.granted = true ∧
      ((ownBus [tcycle 0x100, tcycle 0x104]).hearth 3).bus.strobe = some 299999 ∧
      ((ownBus [tcycle 0x100, tcycle 0x104]).hearth 3).bus.jobs = [job0 [tcycle 0x100, tcycle 0x104]]) ∧
    ((backBus.hearth 3).bus.waitRelease = true ∧ 64 ≤ (backBus.hearth 3).bus.count ∧ (backBus.hearth 3).bus.granted = true) ∧
    ((askBus.hearth 3).bus.breqLow = true ∧ (askBus.hearth 3).bus.granted = false) := by decide +kernel

def lock0 : Lock := { scope := .word 1, last := some 299000, contested := false }
def locked : State := withHearth (fun h => { h with lock := some lock0, lockLow := true }) up

theorem witness_LocksEnd : (locked.hearth 3).lock = some lock0 ∧ locked.running = true ∧ locked.padsActive 3 = true ∧
    locked.scanDrives = false ∧ locked.exposed (fnOf 3).val = true := by decide +kernel

theorem witness_InterruptInputs : up.running = true ∧ (up.hearth 3).slot.pads = true ∧ (up.dom (padDom 3)).isOn = true ∧
    up.scanDrives = false ∧ (up.hearth 3).irqLow.getLsbD 1 ≠ true ∧ (up.hearth 3).slot.sources = true ∧
    vget (up.hearth 3).cfg.irq 1 = .irqo 4 1 ∧ vget (up.hearth 3).cfg.irq 7 = .unused := by decide +kernel

theorem witness_SlotInputs : (up.hearth 3).slot.powered = true ∧ vget up.island.banks (hearthBank 3) = true ∧
    ((withHearth (fun h => { h with pgood := false, slot := .powering }) up).hearth 3).pgood = false ∧
    ((withHearth (fun h => { h with presLow := false, slot := .empty }) up).hearth 3).presLow = false ∧ (up.hearth 3).presLow = true := by
  decide +kernel

def drain0 (r : Option Tally) : Drain := { press := 299000, rsto := r }
def draining (r : Option Tally) : State := withHearth (fun h => { h with slot := .draining, drain := some (drain0 r) }) up

theorem witness_Drains : (up.running = true ∧ (up.hearth 3).slot = .inService ∧ (up.hearth 3).cfg.slotRoute = true) ∧
    (((draining none).hearth 3).drain = some (drain0 none) ∧ (draining none).hearthBusy 3 = false ∧ ((draining none).hearth 3).lock = none ∧
      ((draining none).hearth 3).reload = none) ∧ ((draining (some 299500)).hearth 3).drain = some (drain0 (some 299500)) ∧
    ((withHearth (fun h => { h with slot := .removable }) up).hearth 3).slot = .removable := by decide +kernel

def rjob (b half : Bool) : ReadJob := { hearth := 3, isReload := b, start := 295001, half := half }
def asked (b : Bool) : State :=
  { withHearth (fun h => { h with reload := if b then some { start := 299000, sampling := false } else none }) up with
    straps := { up.straps with asked := some (rjob b false), paid := some 300000, resampleQ := [3] } }

def reading3 (half : Bool) : State := { asked true with straps := { up.straps with job := some (rjob true half) } }

theorem witness_ReloadsAndResamples : (up.readyHigh = true ∧ (up.hearth 3).slot = .inService ∧ (up.hearth 3).reload = none ∧ (up.hearth 3).sloadLast = none) ∧
    ((asked true).straps.asked = some (rjob true false) ∧ (asked true).straps.paid = some 300000 ∧ ((asked true).dom (domOf 161)).isOn = true ∧
      (asked true).straps.job = none ∧ (asked true).hearthBusy 3 = false ∧
      ((asked true).hearth 3).reload = some { start := 299000, sampling := false }) ∧
    ((asked false).straps.asked = some (rjob false false) ∧ (rjob false false).isReload = false) ∧
    ((reading3 false).straps.seq = none ∧ (reading3 false).straps.job = some (rjob true false)) ∧
    (reading3 true).straps.job = some (rjob true true) := by decide +kernel

def change0 : Change := { hearth := 3, pos := 0, input := 1, entry := 145, slotCode := none, level := true, via := 3, key := 15, waitFor := [] }
def waiting : State := { up with irq := { up.irq with granted := [change0] } }

theorem witness_SinksFollowSources : waiting.irq.granted = [change0] ∧ change0.slotCode = none ∧ change0.input.val ≠ 8 ∧ up.irq.granted = [] ∧
    waiting.sinkOf change0 = some (.irqo 4 1) ∧ (waiting.hearth 4).slot = .inService := by
  decide +kernel

def toHostPiece : Piece := { pieceTo 16 with src := 3, origin := .posted 3 9 }
def queued : State := { up with sw := { up.sw with q := vset up.sw.q 3 [toHostPiece] } }

theorem witness_SwitchGrants : (∀ i, vget queued.sw.q i = if i = toHostPiece.src then [toHostPiece] else []) ∧
    toHostPiece.src = hearthPort 3 ∧ toHostPiece.cls = .posted ∧ toHostPiece.kind = .postedWrite ∧
    queued.reached toHostPiece.readyAt = true := by decide +kernel

def beat0 : SlotPiece := { piece := pieceTo 19, beats := [32], got := [], begun := false }
def beating : State := { up with banks := vmod up.banks 0 fun b => { b with slots := vset b.slots 16 (some beat0) } }

theorem witness_HearthstoneBytes : (beating.running = true ∧ Memory.wf beating.stone = true ∧
      (∀ b' k', vget (vget beating.banks b').slots k' = if b' = 0 ∧ k' = 16 then some beat0 else none) ∧ beat0.beats = [32] ∧
      risingBytes beat0.piece.bytes = true ∧ beating.bankOn 0 = true ∧ beating.island.clearMark = false ∧
      (∀ n, (beating.hearth n).lock = none)) ∧
    { up with island := { up.island with clearFrom := some 299000 } }.island.clearFrom = some 299000 ∧
    State.reset.island.clearMark = true := by decide +kernel

def record0 : Record := up.recordOf (pieceTo 16) 16
def samplePc : Piece := { pieceTo 16 with origin := .sample }
def sampled : State :=
  { up with
    cfg := { up.cfg with ring := some (0, 4096) }
    sampler := { up.sampler with queue := [record0] }
    txq := [{ bareTlp .mwr 0 with origin := .sample, id := 4 }]
    sw := { up.sw with q := vset up.sw.q 16 [samplePc] } }

theorem witness_RecordsLeave : sampled.sampler.queue = [record0] ∧ sampled.txq = [] ++ { bareTlp .mwr 0 with origin := .sample, id := 4 } :: [] ∧
    ({ bareTlp .mwr 0 with origin := .sample, id := 4 } : TxTlp).awaitsRecord = true ∧ sampled.running = true ∧
    (sampled.fn 0).bme = true ∧ sampled.creditOk (sampled.recordTlp record0) = true ∧
    ({ sampled with fns := State.reset.fns }.fn 0).bme = false ∧ up.txq = [] := by decide +kernel

theorem witness_SwitchGrants_sample : (∀ i, vget sampled.sw.q i = if i = 16 then [samplePc] else []) ∧ samplePc.src = 16 ∧
    samplePc.dst = 16 ∧ samplePc.cls = .posted ∧ samplePc.origin = .sample ∧ sampled.reached samplePc.readyAt = true := by decide +kernel

theorem witness_FlueBlocks : ((chm .m2 0).flueActive .a = true ∧ (blk 0).dstPos = (chm .m2 0).pos ∧
      (blk 0).num = vget (chm .m2 0).chim.expect (e2e 2 .posted) ∧ (blk 0xFFFF).num ≠ vget (chm .m2 0).chim.expect (e2e 2 .posted) ∧
      (vget (chm .m2 0).chim.expect (e2e 2 .posted) - (blk 0xFFFF).num).toNat ≤ 32768) ∧
    (((chm .m2 0).flue .a).xoff.getLsbD (Cls.code .posted) = true ∧ (chm .m2 0).bufferHeld .a .posted ≤ 16384) ∧
    (chm .m2 0).chimney = true := by decide +kernel

def farCycle : State := { chm .m3 1 with hearths := (cyc .inFlight).hearths }
def stored0 : Stored := { dst := 1, num := 3, via := .a, piece := pieceTo 17, due := true, sent := false }
def storing : State := { chm .m2 0 with chim := { (chm .m2 0).chim with store := [stored0, { stored0 with dst := 2 }], unperformed := [(1, 3, 3, 5)] } }

theorem witness_FlueBlocks_replies : farCycle.findTag .a (hearthPort 3) 5 = some (.a, .cycle 3 7) ∧
    (farCycle.hearth 3).cyc = some (cycle0 .inFlight) ∧ (cycle0 .inFlight).phase.isOpen = true ∧
    stored0 ∈ storing.chim.store ∧ (1, (3 : BitVec 16), (3 : HearthId), 5) ∈ storing.chim.unperformed ∧
    covered (4 : BitVec 16) 3 = true := by decide +kernel

def flueIn (st : FlueSt) : State := { chm .m3 0 with flueA := { (chm .m3 0).flueA with st := st, dropTick := 299000 } }

theorem witness_FlueLinkStates : (flueIn .active).flueUp .a = true ∧ ((flueIn .detect).flue .a).st = .detect ∧
    (flueIn .detect).slotPower = true ∧ (flueIn .training).pathOn (flueDoms .a) = true ∧
    (flueIn .training).advMatches .a (adv0 1) = true ∧ (flueIn .training).advMatches .a (adv0 2) = false ∧
    ((flueIn .down).flue .a).st = .down ∧ ((flueIn .detect).flue .a).everActive = false := by decide +kernel

def member : State := { chm .m3 1 with clk := { up.clk with source := .flueA } }

theorem witness_MemberClocks : member.running = true ∧ member.clk.source = FlueId.clock .a ∧ member.clockOffered (FlueId.other .a) = true ∧
    (member.flue .a).st = .active ∧ member.clk.source ≠ FlueId.clock .b ∧
    ({ member with clk := { member.clk with memberLost := true } }.clk.memberLost = true ∧ member.clk.counting = true ∧
      member.clockOffered .b = true) ∧ { member with flueB := Flue.reset }.clockOffered .b = false := by decide +kernel

theorem witness_PositionsTell : (chm .m2 0).running = true ∧ (chm .m2 0).chimney = true ∧ (1 : Fin 4) ≠ (chm .m2 0).pos ∧
    (chm .m2 0).mode = .m2 ∧ (chm .m3 1).mode = .m3 ∧ (chm .m3 1).gate = true ∧ ((chm .m3 1).freshPath 0).isSome = true ∧
    vget (chm .m3 1).chim.memberFlrs 3 ≠ 1 ∧ ((chm .m3 1).hearth 3).slot.pads = true ∧
    (posOf 17 ≠ (chm .m2 0).pos ∧ (chm .m2 0).exposed (fnOfChimney 17).val = true) := by decide +kernel

def testLocked : State := labs fun x => { x with checker := .locked, reg := List.replicate 15 true, inWindow := 1023 }
def testHeld : State := labs fun x => { x with checker := .locked, holds := [{ state := [], after := some 1024 }] }
def seekingAt (k : Nat) : State := labs fun x => { x with checker := .seeking, reg := List.replicate 15 true, matched := k }

theorem witness_TestLanes : ((labs id).test 0).since = some 299000 ∧
    (injectionAt ((labs id).test 0).period (((labs id).test 0).injected + 1)).isSome = true ∧
    ((labs id).test 0).underTest (labs id).mode = true ∧ ((labs id).test 0).transmits (labs id).mode = true ∧
    ((labs id).test 0).selfChecks (labs id).mode = true ∧ prbsTaps ((labs id).test 0).pattern = some (15, 14) ∧
    ((labs fun x => { x with checker := .seeking }).test 0).checker = .seeking ∧ ((labs id).test 0).holds = [] ∧ ((labs id).test 0).loop ≠ 2 ∧
    ((labs id).test 0).reg.length < 15 ∧ (testLocked.test 0).checker = .locked ∧ (testLocked.test 0).skip = 0 ∧
    (testLocked.test 0).inWindow + 1 = 1024 ∧ (testLocked.test 0).reg.length = 15 ∧ prbsNext 15 14 (testLocked.test 0).reg = false ∧
    (testHeld.test 0).holds = [{ state := [], after := some 1024 }] := by decide +kernel

/-- R332: the 256th match locks, a mismatch seeds again, a bit of seeding loads. -/
theorem test_checker : ((after (.checkerLock ⟨0, [false]⟩) (seekingAt 255)).test 0).checker = .locked ∧
    ((after (.checkerLock ⟨0, [true]⟩) (seekingAt 255)).test 0).reg = [] ∧
    ((after (.checkerLock ⟨0, [true]⟩) (labs fun x => { x with checker := .seeking })).test 0).reg = [true] ∧
    ((after (.checkerWindowEnd 0 [true]) testLocked).test 0).errors = 1 := by decide +kernel

theorem witness_BoundaryScan : cellKind 40 = .control 0 0 ∧ cellKind 0 = .status 0 ∧ State.reset.mode.tests = false := by decide +kernel

theorem witness_SootReportRead : up.cfgReaches 0 = true := by decide +kernel
theorem witness_HostMessages : up.hostLinkUp = true := by decide +kernel

/-! ### Witnesses of the further clauses -/

/-- A link in Recovery whose last domain wakes, and one on a retraining. -/
def recovering : State :=
  { up with link := { up.link with st := .recovery }, doms := vset up.doms (txDom 0) (.waking 300005) }

theorem witness_LinkTrainsAndEqualizes_asked : ([some (TxEq.preset 7)] : List (Option TxEq)).getD (0 : Fin 16) none = some (.preset 7) ∧
    TxEq.accepted (.preset 7) = true ∧ TxEq.accepted (.coefficients 8 40 0) = true ∧ TxEq.accepted (.coefficients 13 35 0) = false ∧
    fastRate .g8 = true ∧ recovering.link.st = .recovery ∧ (up.test 16).underTest up.mode = false ∧
    ({ up with link := { up.link with st := .detect } }.keptAt (hostLane 0) .g32) = none := by decide +kernel

theorem witness_LinkLowPower_exit : asleep.link.st = .l1 .l10 ∧ asleep.running = true ∧ (recovering.dom (txDom 0) = .waking 300005 ∧
      recovering.link.st = .recovery ∧ recovering.dll.retrain = false ∧
      ∀ i ∈ recovering.trainedLanes, (txDom i = txDom 0 ∨ (recovering.dom (txDom i)).isOn = true) ∧ (recovering.dom (rxDom i)).isOn = true) ∧
    ((after (.receiveL0sChange true) up).link.rxL0s = true ∧ up.link.rxL0s = false) := by decide +kernel

theorem witness_Clkreq_wakes : asleep.wakes (.strobe 3) = true ∧ asleep.wakes (.strobe 5) = false ∧ asleep.wakes (.slot 3) = true ∧
    asleep.wakes (.edge 3) = true ∧ (after (.extest [] (List.replicate 1740 true)) asleep).wakes (.strobe 3) = false ∧
    (after (.clkreqRelease 100001) asleep).link.clkreqReleased = true ∧ ∀ n, (asleep.hearth n).waitNoClock = false := by decide +kernel

theorem witness_MarginChangesNoTap_steps : (-16 ≤ (16 : Int) ∧ (-30 : Int) ≤ -30 ∧ (-17 : Int) < -16 ∧ (30 : Int) < 31) := by decide

theorem witness_BellowsGap : (lanes0 .tracking).running = true ∧ (lanes0 .tracking).ledger.st = .opened ∧ (lanes0 .tracking).admitTick.2 = false ∧
    (lanes0 .tracking).admitTick.1.anyHeld = false ∧ 6 ≤ (lanes0 .tracking).admitTick.1.ledger.balance ∧
    { poor with lanes := (lanes0 .tracking).lanes }.admitTick.2 = true ∧ (({ poor with lanes := (lanes0 .tracking).lanes }).lane 0).due ≠ 0 := by
  decide +kernel

theorem witness_Unexposed : up.hostLinkUp = true ∧ up.exposed (fnOfChimney 20).val = false ∧ (rq 8 []).wf true = true ∧
    (rq 256 (List.replicate 256 1)).wf false = true ∧ (up.fn 4).mps < (rq 256 (List.replicate 256 1)).len ∧
    up.exposed (fnOfChimney 3).val = true := by decide +kernel

def heldOff : State := busState fun b => { b with breqFrom := some 300500, breqHold := true }
def rereading : State := withHearth (fun h => { h with reload := some { start := 299000, sampling := false } }) up

theorem witness_HearthRequests_clauses : (rereading.hearth 3).slot = .inService ∧ (rereading.hearth 3).reload.isSome = true ∧
    heldOff.holdoff 3 = true ∧ (heldOff.hearth 3).slot = .inService ∧ (heldOff.hearth 3).reload = none ∧
    (keyed.hearth 3).cfg.parts 8 0x10 8 = some [(dw3, 0x10, 8)] ∧
    checkedByte (keyed.hearth 3).cfg (keyed.newReq 4 false true (rq 8 [])) [(dw3, 0x10, 8)] = some 0x4010 ∧
    checkedByte (keyed.hearth 3).cfg (keyed.newReq 4 false false { rq 1 [7] with be := [false] }) [(dw3, 0x10, 1)] = none := by
  decide +kernel

theorem witness_CompletionsForReads_awaited : reading.awaited tag0.origin = true ∧ { up with tags := [tag0] }.awaited tag0.origin = false ∧
    reading.chim.held = [] := by decide +kernel

theorem witness_RequestDeadlines_failing : (hreq .issued).failing = some { off := 16, len := 8, errResp := true, ca := true } ∨
    ({ hreq .issued with bytes := [(16, 0)] }).failing = some { off := 16, len := 8, errResp := true, ca := true } := by decide +kernel

def askAgain : State := busState fun b => { b with breqFrom := some 299000, jobs := [job0 [tcycle 0x100]] }

theorem witness_BusArbitration_again : (askAgain.hearth 3).bus.breqFrom = some 299000 ∧ askAgain.reached 299000 = true ∧
    askAgain.anyPiece (Piece.forBus 3) = true ∧ (askBus.hearth 3).bus.breqFrom = none ∧ (askBus.hearth 3).farLock = none := by
  decide +kernel

def farLock0 : FarLock := { pos := 1, hearth := 2, last := 299000, contested := false }
def farLocked : State := withHearth (fun h => { h with farLock := some farLock0 }) up
def newLock : State := withHearth (fun h => { h with lock := some { lock0 with last := none } }) up

theorem witness_LocksEnd_clauses : lock0.last = some 299000 ∧ (newLock.hearth 3).lock = some { lock0 with last := none } ∧
    (farLocked.hearth 3).lock = none ∧ (farLocked.hearth 3).farLock = some farLock0 ∧ farLocked.running = true ∧
    farLocked.busLocked 3 = true ∧ backBus.busLocked 3 = false ∧ (backBus.hearth 3).bus.grantGone = false := by decide +kernel

def faulted (fell : Bool) : State := withHearth (fun h => { h with slot := .strapFault, pgood := false, fell := fell }) up

theorem witness_SlotInputs_fault : ((faulted true).hearth 3).slot = .strapFault ∧ ((faulted true).hearth 3).fell = true ∧
    ((faulted false).hearth 3).fell = false ∧ vget up.island.banks (hearthBank 3) = true ∧ 1000 ≤ 1000 := by decide +kernel

def pressed : State := withHearth (fun h => { h with attnLast := some 100000 }) up

theorem witness_Drains_counted : (pressed.hearth 3).attnLast = some 100000 ∧ 65536 ≤ 65536 ∧
    65536 + 65536 ≤ ticksSince pressed.now 100000 ∧ ¬(65536 + 200000 ≤ ticksSince pressed.now 100000) ∧
    (pressed.hearth 3).cfg.slotRoute = true ∧ vget pressed.irq.slotEvents (chimneyOf pressed.pos 3) = none ∧ (chm .m3 1).mode = .m3 ∧
    ((draining none).hearth 3).lockSeen = false := by decide +kernel

theorem witness_Reloads_again : (withHearth (fun h => { h with sloadLast := some 299000 }) up).running = true ∧
    100 + 100 ≤ ticksSince up.now 299000 ∧ (blocked.hearth 4).cyc = some { cycle0 .blocked with win := uw3 0x30000 2 3 } ∧
    (uw3 0x30000 2 3).m = 3 ∧ ((asked true).hearth 3).lockSeen = false := by decide +kernel

theorem witness_FlueLinkStates_clock : ({ chm .m3 1 with clk := { up.clk with source := .flueA, toggleB := true } }).toggles .b = true ∧
    ({ chm .m3 1 with clk := { up.clk with source := .flueA, toggleB := true } }).clockOffered .b = true := by decide +kernel

theorem witness_PositionsTell_forward : ((chm .m3 1).freshPath 0).isSome = true ∧ (0 : Fin 4) ≠ (chm .m3 1).pos ∧ (2 : Fin 4) ≠ 1 ∧
    (chm .m2 0).reaches 1 = true ∧ blockPlace 3 70 = 49 := by decide +kernel

theorem witness_CommandsAct : up.cfgReaches 4 = true ∧ up.clk.source = .refclk ∧ clearing.running = true ∧ clearing.island.clearFrom ≠ none ∧
    (beating.running = true ∧ beat0.piece.kind = .postedWrite ∧ beat0.piece.origin = .none ∧ beating.lockEnds = [] ∧
      ∀ k, vget (vget beating.banks 0).slots k = if k = 16 then some beat0 else none) := by decide +kernel

/-! ### Witnesses of the clauses of cycles, reads, flues and tests -/

def readBack : State := withHearth (fun h => { h with cyc := some { cycle0 .inFlight with fetched := some 5 } }) up
def powering : State := withHearth (fun h => { h with slot := .powering }) up

theorem witness_EmptyQueueTicks_hearths : ((cyc .driving).pending = [] ∧ (cyc .driving).running = true ∧
      ((cyc .driving).hearth 3).cyc = some (cycle0 .driving) ∧ (cyc .driving).scanDrives = false) ∧
    ((readBack.hearth 3).cyc = some { cycle0 .inFlight with fetched := some 5 } ∧ ({ cycle0 .inFlight with fetched := some 5 }).phase ≠ .driving) ∧
    (((powering.hearth 3).slot = .powering && (powering.hearth 3).pgood) = true ∧ ((up.hearth 3).slot = .powering && (up.hearth 3).pgood) = false) := by
  decide +kernel

theorem witness_InvariantKept_requests : (up.reqs.map (·.id)).Nodup ∧ (([hreq .issued, { hreq .held with id := 1 }] : List HostReq).map (·.id)).Nodup := by
  decide +kernel

/-- Hearth 3 with a window of every kind, kind 3 toward hearth 4 of position 1. -/
def fourKinds (s : State) : State :=
  { s with
    cfg := { s.cfg with aperture := some (0, 0x8000) }
    hearths := vmod s.hearths 3 fun h =>
      { h with cfg := { h.cfg with uw := vset h.cfg.uw 3 (some { uw3 0x40000 3 4 with pos := 1 }) } } }
def ring4 : State := fourKinds (chm .m2 0)
def lockedBy5 (sc : LockScope) : State :=
  { ring4 with hearths := vmod ring4.hearths 5 fun h => { h with lock := some { lock0 with scope := sc } } }
def at4 (f : Hearth → Hearth) : State := { ring4 with hearths := vmod ring4.hearths 4 f }
def byteRead (a : BitVec 32) : Cycle := ring4.newCycle 3 (strobe0 true false a) (uw3 0x20000 0 0)

theorem witness_CycleStarts_kinds : ring4.running = true ∧ ring4.hears 3 = true ∧
    (ring4.hearth 3).cfg.up 0x20000 = some (uw3 0x20000 0 0) ∧ (ring4.hearth 3).cfg.up 0x30000 = some (uw3 0x30000 2 4) ∧
    (ring4.hearth 3).cfg.up 0x40000 = some { uw3 0x40000 3 4 with pos := 1 } ∧ (byteRead 0x20000).bytes.length = 4 ∧
    ring4.cycleFault 3 (byteRead 0x20000) = none ∧ (ring4.hearth 3).slot = .inService ∧ (ring4.hearth 3).reload = none ∧
    (ring4.hearth 3).bus.breqLow = false := by decide +kernel

theorem witness_CycleStarts_kind0 : ring4.mode ≠ .m0 ∧ ring4.inAperture ((byteRead 0x20000).bytes.map (·.1)) = true ∧
    State.inAperture { ring4 with cfg := { ring4.cfg with aperture := none } } ((byteRead 0x20000).bytes.map (·.1)) = false ∧
    ({ ring4 with fns := vmod ring4.fns 4 fun x => { x with bme := false } }.fn (fnOf 3)).bme = false ∧
    ({ ring4 with fns := vmod ring4.fns 4 fun x => { x with power := .d3hot } }.fn (fnOf 3)).power ≠ .d0 ∧
    (fourKinds (chm .m3 1)).chim.memberBme.getLsbD 3 = false ∧
    ({ ring4 with tags := (List.range 16).map fun i => { tag0 with tag := i } }).hostBound 3 = true ∧
    ring4.busMaster 3 = true ∧ ring4.hostBound 3 = false := by decide +kernel

theorem witness_CycleStarts_member : { (fourKinds (chm .m3 1)) with chim := { (chm .m3 1).chim with memberBme := 0xFFFF } }.busMaster 3 = true ∧
    (fourKinds (chm .m3 1)).flueBound 0 .nonPosted = false ∧ (fourKinds (chm .m3 1)).mode = .m3 := by decide +kernel

theorem witness_CycleStarts_locked : (lockedBy5 (.word 0)).lockedBy (.word 0) = some 5 ∧ ring4.lockedBy (.word 0) = none ∧
    (lockedBy5 (.bus 0 4)).lockedBy (.bus 0 4) = some 5 ∧ (lockedBy5 (.bus 1 4)).lockedBy (.bus 1 4) = some 5 ∧
    ({ strobe0 true false 0x10000 with lock := true } : Strobe).wf = true ∧ ((ring4.lockLevel 3 true).hearth 3).lockLow = true := by
  decide +kernel

theorem witness_CycleStarts_kind2 : (at4 fun h => { h with slot := .sampling }).rereading 4 = true ∧ ring4.rereading 4 = false ∧
    (ring4.hearth 4).slot = .inService ∧ ((ring4.hearth 4).cfg.down 0).isSome = true ∧ ((ring4.hearth 4).cfg.down 0x8000).isNone = true ∧
    ((at4 fun h => { h with slot := .draining }).hearth 4).slot ≠ .ready ∧
    (([(0, 3), (1, 3), (2, 3), (3, 3)] : List (Nat × HearthId)).filter fun z => z.2 = 3).length = 4 ∧
    ((at4 fun h => { h with farLock := some { pos := 1, hearth := 2, last := 299000, contested := false } }).hearth 4).farLock.isSome = true ∧
    ((at4 fun h => { h with bus := { h.bus with granted := true } }).hearth 4).bus.granted = true ∧ (ring4.hearth 4).bus.granted = false ∧
    (ring4.hearth 4).cyc = none ∧ ring4.xtags.length < 64 := by decide +kernel

theorem witness_CycleStarts_kind3 : ring4.flueBound 1 .nonPosted = false ∧
    ({ ring4 with flueA := { ring4.flueA with tags := List.replicate 128 (5, .cycle 3 7, 20) }
                  flueB := { ring4.flueB with tags := List.replicate 128 (5, .cycle 3 7, 20) } }).flueBound 1 .nonPosted = true := by
  decide +kernel

theorem witness_CycleStarts_turned : ((at4 fun h => { h with slot := .ready }).hearth 4).slot = .ready ∧
    ((draining none).hearth 3).slot = .draining ∧ (rereading.hearth 3).reload.isSome = true ∧ (askBus.hearth 3).bus.breqLow = true ∧
    (askBus.hearth 3).lock = none ∧ ring4.hearthCause 3 = false ∧ ring4.scanDrives = false ∧
    (ring4.newCycle 3 { strobe0 true false 0x20000 with be := 0 } (uw3 0x20000 0 0)).bytes = [] ∧
    (({ up with prot := { up.prot with inService := false } }.lockLevel 3 false).cycleFault 3
      (({ up with prot := { up.prot with inService := false } }.lockLevel 3 false).newCycle 3 (strobe0 true false 0x10008) (uw3 0x10000 1 0))).isSome = true := by
  decide +kernel

def scanned (s : State) : State := after (.extest [] (List.replicate 1740 true)) s
def forgiving (rd : Bool) : Cycle := { cycle0 .paying with read := rd, win := { uw3 0x10000 1 0 with errResp := false } }

theorem witness_CycleEnds_scan : (scanned up).scanDrives = true ∧ up.scanDrives = false ∧ (forgiving true).win.errResp = false ∧
    (forgiving true).phase.isOpen = true ∧ (forgiving false).fetched = none ∧ (scanned up).running = true ∧
    (cyc .paying).scanHides 3 1 = false ∧ (scanned up).scanHides 3 1 = true := by decide +kernel

theorem witness_RequestDeadlines_held : farReq.isLocal { hreq .issued with fn := 17 } = false ∧ farReq.running = true ∧
    (farReq.pathFor (posOf 13) .nonPosted).isSome = true ∧
    ({ farReq with flueA := Flue.reset, flueB := Flue.reset }.pathFor (posOf 16) .nonPosted) = none ∧
    ({ hreq .issued with fn := 17 } : HostReq).chimneyHearth = 16 := by decide +kernel

theorem witness_CompletionsForReads_size : (reading.fn 4).mps < (List.replicate 129 (1 : Byte)).length ∧
    ([1, 2, 3, 4] : List Byte).length ≤ (reading.fn 4).mps := by decide +kernel

def replyTo (n : HearthId) : Piece :=
  { pieceTo 3 with cls := .completion, kind := .completion, dst := hearthPort n, origin := .cycle n 7, bytes := [(8, 1), (9, 2), (10, 3), (11, 4)] }
def changePc : Piece := { pieceTo 16 with src := 3, cls := .interrupt, kind := .irqChange, origin := .change change0 }
def replying : State := { cyc .inFlight with sw := { up.sw with q := vset up.sw.q 16 [replyTo 3] } }
def changing : State := { up with sw := { up.sw with q := vset up.sw.q 3 [changePc] } }

theorem witness_SwitchGrants_reply : (∀ i, vget replying.sw.q i = if i = 16 then [replyTo 3] else []) ∧ (replyTo 3).srcPos = replying.pos ∧
    (replyTo 3).status = .sc ∧ replying.reached (replyTo 3).readyAt = true ∧ (replying.hearth 3).cyc = some (cycle0 .inFlight) ∧
    (cycle0 .inFlight).read = true ∧ replying.hostWriteBefore 3 (replyTo 3) = false ∧ replying.reqs = [] := by decide +kernel

theorem witness_SwitchGrants_change : (∀ k, vget changing.sw.q k = if k = changePc.src then [changePc] else []) ∧ changePc.dst.val ≤ 16 ∧
    changePc.cls = .interrupt ∧ changing.reached changePc.readyAt = true ∧ change0.waitFor = [] ∧ changing.reqs = [] := by decide +kernel

theorem witness_RecordsLeave_none : up.running = true ∧ (∀ u ∈ up.txq, u.awaitsRecord = false) ∧ up.sampler.queue = [] := by decide +kernel

theorem witness_FlueBlocks_idle : (chm .m2 0).flueActive .a = true ∧ (flueIn .down).flueActive .a = false ∧
    (chm .m2 0).running = true := by decide +kernel

/-- A flue whose receive lanes all track. -/
def tracking (st : FlueSt) : State := { flueIn st with lanes := vmap (fun _ x => { x with st := .tracking }) (flueIn st).lanes }

theorem witness_FlueLinkStates_tracking : (tracking .training).slotPower = true ∧ (tracking .training).pathOn (flueDoms .a) = true ∧
    (∀ l ∈ flueLanes .a, ((tracking .training).lane l).st = .tracking) ∧ ((tracking .training).flue .a).st = .training ∧
    ((tracking .down).flue .a).st = .down ∧ ((tracking .dead).flue .a).st = .dead ∧
    ((16 : LaneId) ∈ flueLanes .a ∧ ((flueIn .training).lane 16).st ≠ .tracking ∧ ((flueIn .training).lane 16).st ≠ .pinned) := by decide +kernel

/-- The pads of every hearth ON for long. -/
def padsLong : State := { up with doms := Vector.replicate 162 (.on 290000) }

theorem witness_Reloads_seen : 100 ≤ padsLong.sloadSeen 3 ∧ up.sloadSeen 3 < 100 ∧ padsLong.readyHigh = true ∧
    (padsLong.hearth 3).slot = .inService ∧ (padsLong.hearth 3).reload = none ∧ (padsLong.hearth 3).sloadLast = none ∧
    ((after (.reloadRequest 3 ⟨100, 0⟩) padsLong).hearth 3).reload.isSome = true := by decide +kernel

theorem witness_SupplyEvents_perst : perstAtZero (List.replicate 1000 true) = true ∧ perstAtZero (List.replicate 1000 false) = false := by decide +kernel

theorem witness_DomainsWakeAndSleep_idle : Config.idlePeriod 69 = some 1024 ∧
    (up.advanceTo (tickPlus 299990 (1024 + 1))).dom 69 = .on 299990 ∧ (up.advanceTo (tickPlus 299990 (1024 + 1))).domBusy 69 = false := by
  decide +kernel

theorem witness_DomainsWakeAndSleep_lanes : (asleep.laneNeeded (txDom 0) = false ∧ up.laneNeeded 69 = true) ∧
    recovering.link.st = .recovery ∧ recovering.ledger.ltrPending = false ∧
    ({ recovering with ledger := { recovering.ledger with ltrPending := true } }.dom (txDom 0)) = .waking 300005 ∧
    ({ up with doms := vset up.doms 160 (.goingDown 300009) }.dom 160) = .goingDown 300009 := by decide +kernel

def full : State := { bar3 with fc := { bar3.fc with taken := { bar3.fc.taken with ph := 64, nph := 64 } } }

theorem witness_TlpArrives_errors : full.overflows (tlp0 .mWr 0x1000010) = true ∧ full.overflows (tlp0 .mRd 0x1000010) = true ∧
    ({ tlp0 .mRd 0 with malformed := true } : Tlp).malformed = true ∧
    (bar3.fn (bar3.addressed (tlp0 .mWr 0x1000010))).mps < ({ tlp0 .mWr 0x1000010 with data := List.replicate 129 0 } : Tlp).data.length ∧
    bar3.memTarget 0x40000000 = none ∧ bar3.exposed 64 = false ∧ ({ tlp0 .mRd 0 with tlpPrefix := true } : Tlp).tlpPrefix = true := by
  decide +kernel

theorem witness_TlpArrives_commands : bar3.memTarget 0x1000010 = some 4 ∧ hearthOfFn 4 = some 3 ∧
    { bar3 with fns := vmod bar3.fns 0 fun c => { c with bar := 0x2000000 } }.memTarget 0x2000004 = some 0 ∧ hearthOfFn 0 = none ∧
    bar3.exposed (tlp0 .cfgWr0 0x104).fn = true ∧ bar3.overflows (tlp0 .cfgRd0 0x04) = false ∧ (tlp0 .cplD 0).tlpPrefix = false := by
  decide +kernel

def sameTick (r : HostReq) : State := { up with reqs := [{ r with receipt := 300000 }], nextId := 1 }

theorem witness_FunctionResets_same : (sameTick (hreq .issued)).cfgReaches (fnOfChimney 3) = true ∧ (sameTick (hreq .issued)).now = 300000 ∧
    (hreq .issued).fn = fnOfChimney 3 ∧ (hreq .issued).read = true ∧ (hreq .issued).stone = false ∧
    (∀ r ∈ (sameTick (hreq .issued)).reqs, r.id < (sameTick (hreq .issued)).nextId) ∧
    ({ hreq .issued with stone := true, fn := 0 } : HostReq).stone = true := by decide +kernel

theorem witness_LocksEnd_far : locked.receiversOn 3 = true ∧ (withHearth (fun h => { h with slot := .collapsed }) locked).receiversOn 3 = false ∧
    { chm .m2 0 with hearths := farLocked.hearths }.exposed (fnOfChimney (chimneyOf 1 2)).val = true := by decide +kernel

theorem witness_MemberClocks_further : up.mode ≠ .m3 ∧ (chm .m3 1).clk.source = .refclk ∧
    { member with clk := { member.clk with stopped := true } }.clk.stopped = true := by decide +kernel

theorem witness_BridgeAsMaster_error : (ownBus [tcycle 0x100]).running = true ∧ ((ownBus [tcycle 0x100]).hearth 3).bus.jobs = [job0 [tcycle 0x100]] ∧
    (ownBus [tcycle 0x100]).scanHides 3 0 = false := by decide +kernel

/-! ### Results that the spec gives -/

/-- Chapter 06, worked example: phase target from a fullest window at bin 52, one phase step, threshold and DFE steps. -/
theorem test_bellows_example : phaseTarget ((List.range 64).map fun i => if 52 ≤ i ∨ i < 4 then 10 else 1) = 28 ∧
    phaseStep 23 28 = 24 ∧ thrStep { frame0 with ones := 65700, zeros := 65372 } = 0 ∧
    dfeStep { frame0 with afterOne := 10000, onesAfterOne := 5174, afterZero := 10000, onesAfterZero := 4824 } = 2 := by decide +kernel

/-- Chapter 06, worked example: the report entry. -/
theorem test_bellows_entry :
    Lane.dword { Lane.reset with phase := 28, phaseT := 28, ctle := 9, dfe := 13, st := .tracking } 0 = 0x4D00971C := by decide +kernel

/-- Chapter 08, worked example: a 1 MiB BAR-0 reads back 0xFFF00004 after a write of ones. -/
theorem test_bar0_sizing : (after (.configWrite 4 0x10 15 0xFFFFFFFF 1 0)
    (withHearth (fun h => { h with barCode := 2, barFallback := false }) up)).cfgRead 4 0x10 = 0xFFF00004 := by decide +kernel

/-- R180: BAR-2 of function 0 is 1 MiB and prefetchable. -/
theorem test_bar2_sizing : (after (.configWrite 0 0x18 15 0xFFFFFFFF 1 0) up).cfgRead 0 0x18 = 0xFFF0000C := by decide +kernel

/-- R342: idle power by mode. -/
theorem test_mode_power : [Mode.m0, .m1, .m2, .m3, .m4, .m5, .m6, .m7].map modeIdleMilliwatts =
    [3118, 3358, 4258, 3118, 2638, 2290, 2290, 1390] := by decide +kernel

/-- R31, R33: 4,000 balls, 600 of them GND and 280 VCORE. -/
theorem test_package : ((List.range 65).map fun r => ((List.range 65).filter fun c => populated r c).length).sum = 4000 ∧
    ((List.range 65).map fun r => ((List.range 65).filter fun c => ballUse r c = some .gnd).length).sum = 600 ∧
    ((List.range 65).map fun r => ((List.range 65).filter fun c => ballUse r c = some .vcore).length).sum = 280 := by decide +kernel

/-- R8, R10: a tick. -/
theorem test_tick : (State.reset.tick).clk.tally = 1 := by decide +kernel

/-- R336, R339: IDCODE, bit 0 first. -/
theorem test_idcode : (after .idcode up).tap.dr.take 8 = [true, true, true, true, false, false, false, true] := by decide +kernel

/-- R106, R231: a kind-1 cycle pays 12 + 4 + 2. -/
theorem test_cycle_cost : (vget (after (.hearthCycleStart 3 (strobe0 true false 0x10008)) up).items.slots (hearthSlot 3)).map (·.cost) =
    [18] := by decide +kernel

/-- R263: a beat writes its bytes and no other. -/
theorem test_beat : stoneRead (after .bankBeat beating).stone 0x101 = 0xBB ∧ stoneRead (after .bankBeat beating).stone 0x102 = 0 := by
  decide +kernel

/-- R215: a press starts a drain. -/
theorem test_press : ((after (.attnPress 3 ⟨65536, 0⟩) up).hearth 3).slot = .draining ∧
    ((after (.attnPress 3 ⟨65535, 0⟩) up).hearth 3).slot = .inService := by decide +kernel

/-- R310: a completion of no tag, with Advisory Non-Fatal masked as at reset and with it unmasked. -/
theorem test_unexpected : ((after (.completionReceived 9 .sc false [] 4 (Vector.replicate 4 0)) up).fn 4).uncSta = 0 ∧
    ((after (.completionReceived 9 .sc false [] 4 (Vector.replicate 4 0))
      { up with fns := vmap (fun _ c => { c with corMask := 0 }) up.fns }).fn 4).uncSta = 0x10000 := by decide +kernel

/-- R218: a bank that goes collapses its hearths. -/
theorem test_collapse : ((after (.vhearthBankInvalid ⟨2, 2899⟩) up).hearth 3).slot = .collapsed ∧
    ((after (.vhearthBankInvalid ⟨2, 2900⟩) up).hearth 4).slot = .inService := by decide +kernel

/-- R17, R79: all group-0 balls at code 1 select M1. -/
theorem test_mode : (after (.strapGroupEnd (List.replicate 12 (steadyAt 100000))) State.reset).mode = .m1 := by decide +kernel

/-- R259: of one tick's events the host link's comes first, then a hearth's, then an alarm of a domain. -/
theorem test_event_order : (up.occur [.domainIdleExpiry 69, .hearthStrobeRelease 3, .ackReceived 0, .hearthStrobeRelease 1]).pending =
    [.ackReceived 0, .hearthStrobeRelease 1, .hearthStrobeRelease 3, .domainIdleExpiry 69] := by decide +kernel

/-- The table gives no row bits, so no word spells a command. -/
theorem test_no_words : decodeTableWord 32 0 = none ∧ (State.reset.withFetchWord 32 5).pending = [] := by decide +kernel

end Sys2Proof.Tests
end

-- ==== Proofs of 00_scope: one tick ====
section
/-! One tick (R8, R214): what `State.powerOn` does to all hearths at once, one equation for `State.tick`, and what ticks
leave alone. -/

namespace Sys2Proof.Machine

open Sys2Proof

/-! ### Tables -/

/-- Two tables with the same entries are equal. -/
theorem vget_ext {α : Type} {k : Nat} {v w : Vector α k} (h : ∀ i, vget v i = vget w i) : v = w :=
  Vector.ext fun i hi => h ⟨i, hi⟩

@[simp] theorem vset_vset {α : Type} {k : Nat} (v : Vector α k) (i : Fin k) (x y : α) : vset (vset v i x) i y = vset v i y :=
  vget_ext fun j => by by_cases e : j = i <;> simp [vget_vset, e]

@[simp] theorem vset_vget {α : Type} {k : Nat} (v : Vector α k) (i : Fin k) : vset v i (vget v i) = v :=
  vget_ext fun j => by by_cases e : j = i <;> simp [vget_vset, e]

/-! ### Entry to SAMPLING -/

/-- R214: hearth `n` is POWERING and its HnPGOOD is counted high. -/
def State.powersOn (s : State) (n : HearthId) : Bool := (s.hearth n).slot = .powering && (s.hearth n).pgood

/-- Hearth `n` once those of `l` that power on are in SAMPLING. -/
def State.poweredHearth (s : State) (l : List HearthId) (n : HearthId) : Hearth :=
  { s.hearth n with slot := if n ∈ l ∧ s.powersOn n = true then .sampling else (s.hearth n).slot }

/-- The queue of resamples once those of `l` that power on have joined it. -/
def State.poweredQueue (s : State) (l : List HearthId) : List HearthId :=
  s.straps.resampleQ ++ l.filter fun n => s.powersOn n && !s.straps.resampleQ.contains n

/-- R214: the hearths of `l` that power on enter SAMPLING together. -/
def State.poweredOn (s : State) (l : List HearthId) : State :=
  { s with
    wake := s.wake || l.any s.powersOn
    hearths := vmap (fun n _ => s.poweredHearth l n) s.hearths
    straps := { s.straps with resampleQ := s.poweredQueue l } }

theorem hearth_enterSampling (s : State) (a n : HearthId) :
    (s.enterSampling a).hearth n = if n = a then { s.hearth a with slot := .sampling } else s.hearth n :=
  hearth_modHearth s a n fun h => { h with slot := .sampling }

theorem powersOn_enterSampling_ne (s : State) {a n : HearthId} (h : n ≠ a) : (s.enterSampling a).powersOn n = s.powersOn n := by
  simp only [State.powersOn, hearth_enterSampling, if_neg h]

theorem poweredOn_nil (s : State) : s.poweredOn [] = s := by
  have e : vmap (fun n _ => s.poweredHearth [] n) s.hearths = s.hearths := vget_ext fun i => by
    rw [vget_vmap]
    simp [State.poweredHearth, State.hearth]
  simp only [State.poweredOn, e, State.poweredQueue, List.filter_nil, List.append_nil, List.any_nil, Bool.or_false]

/-- A hearth that does not power on adds nothing. -/
theorem poweredOn_cons_not (s : State) {a : HearthId} {l : List HearthId} (ha : s.powersOn a = false) :
    s.poweredOn (a :: l) = s.poweredOn l := by
  have hh : ∀ n, s.poweredHearth (a :: l) n = s.poweredHearth l n := by
    intro n
    by_cases hn : n = a
    · simp [State.poweredHearth, hn, ha]
    · simp [State.poweredHearth, hn]
  have hq : s.poweredQueue (a :: l) = s.poweredQueue l := by simp [State.poweredQueue, ha]
  simp only [State.poweredOn, hh, hq, List.any_cons, ha, Bool.false_or]

theorem poweredHearth_cons (s : State) {a : HearthId} {l : List HearthId} (ha : s.powersOn a = true) (hl : a ∉ l) (n : HearthId) :
    s.poweredHearth (a :: l) n = (s.enterSampling a).poweredHearth l n := by
  by_cases hn : n = a
  · simp [State.poweredHearth, hearth_enterSampling, hn, ha, hl]
  · simp [State.poweredHearth, hearth_enterSampling, hn, powersOn_enterSampling_ne s hn]

theorem poweredQueue_cons (s : State) {a : HearthId} {l : List HearthId} (ha : s.powersOn a = true) (hl : a ∉ l) :
    s.poweredQueue (a :: l) = (s.enterSampling a).poweredQueue l := by
  have hne : ∀ n ∈ l, n ≠ a := fun n hn e => hl (e ▸ hn)
  by_cases hc : s.straps.resampleQ.contains a = true
  · have e : (s.enterSampling a).straps.resampleQ = s.straps.resampleQ := if_pos hc
    have hf : (l.filter fun n => (s.enterSampling a).powersOn n && !s.straps.resampleQ.contains n) =
        l.filter fun n => s.powersOn n && !s.straps.resampleQ.contains n :=
      List.filter_congr fun n hn => by rw [powersOn_enterSampling_ne s (hne n hn)]
    simp only [State.poweredQueue, e, hf, List.filter_cons, ha, hc, Bool.not_true, Bool.and_false, Bool.false_eq_true, if_false]
  · have e : (s.enterSampling a).straps.resampleQ = s.straps.resampleQ ++ [a] := if_neg hc
    have hf : (l.filter fun n => (s.enterSampling a).powersOn n && !(s.straps.resampleQ ++ [a]).contains n) =
        l.filter fun n => s.powersOn n && !s.straps.resampleQ.contains n :=
      List.filter_congr fun n hn => by simp [powersOn_enterSampling_ne s (hne n hn), hne n hn]
    simp only [State.poweredQueue, e, hf, List.filter_cons, ha, Bool.eq_false_iff.mpr hc, Bool.not_false, Bool.and_self, if_true,
      List.append_assoc, List.singleton_append]

/-- The first hearth may enter SAMPLING before the others. -/
theorem poweredOn_cons (s : State) {a : HearthId} {l : List HearthId} (ha : s.powersOn a = true) (hl : a ∉ l) :
    s.poweredOn (a :: l) = (s.enterSampling a).poweredOn l := by
  have hh : vmap (fun n _ => (s.enterSampling a).poweredHearth l n) s.hearths =
      vmap (fun n _ => (s.enterSampling a).poweredHearth l n) (s.enterSampling a).hearths := vget_ext fun n => by simp
  have hw : (s.wake || (a :: l).any s.powersOn) = ((s.enterSampling a).wake || l.any (s.enterSampling a).powersOn) := by
    rw [show (s.enterSampling a).wake = true from rfl, List.any_cons, ha, Bool.true_or, Bool.true_or, Bool.or_true]
  simp only [State.poweredOn, poweredHearth_cons s ha hl, poweredQueue_cons s ha hl, hh, hw]
  rfl

/-- One by one or together: the hearths of a list enter SAMPLING. -/
theorem forList_enterSampling (l : List HearthId) (hl : l.Nodup) (s : State) :
    forList l (fun n s => if (s.hearth n).slot = .powering ∧ (s.hearth n).pgood then s.enterSampling n else s) s = s.poweredOn l := by
  induction l generalizing s with
  | nil => exact (poweredOn_nil s).symm
  | cons a l ih =>
    obtain ⟨ha, hl⟩ := List.nodup_cons.mp hl
    rw [forList, List.foldl_cons]
    have hp : ((s.hearth a).slot = .powering ∧ (s.hearth a).pgood = true) ↔ s.powersOn a = true := by simp [State.powersOn]
    by_cases h : s.powersOn a = true
    · rw [if_pos (hp.mpr h), poweredOn_cons s h ha]
      exact ih hl _
    · rw [if_neg (hp.not.mpr h), poweredOn_cons_not s (Bool.eq_false_iff.mpr h)]
      exact ih hl _

theorem powerOn_eq (s : State) : s.powerOn = s.poweredOn allHearths := forList_enterSampling allHearths (by decide) s

theorem mem_allHearths (n : HearthId) : n ∈ allHearths := by
  revert n; decide

/-! ### What a tick does to one hearth -/

section HearthTick

variable (quiet : Bool) (now : Tally) (h : Hearth)

@[simp] theorem hearthTick_slot : (h.tick quiet now).slot = h.slot := by
  unfold Hearth.tick; dsimp only; (repeat' split) <;> rfl

@[simp] theorem hearthTick_pgood : (h.tick quiet now).pgood = h.pgood := by
  unfold Hearth.tick; dsimp only; (repeat' split) <;> rfl

@[simp] theorem hearthTick_balls : (h.tick quiet now).balls = h.balls := by
  unfold Hearth.tick; dsimp only; (repeat' split) <;> rfl

@[simp] theorem hearthTick_cfg : (h.tick quiet now).cfg = h.cfg := by
  unfold Hearth.tick; dsimp only; (repeat' split) <;> rfl

@[simp] theorem hearthTick_rising : (h.tick quiet now).rising = none := by
  unfold Hearth.tick; dsimp only; (repeat' split) <;> rfl

/-- R208: of the bus only HnBREQ_N and the wait before it may fall again change. -/
theorem hearthTick_bus : (h.tick quiet now).bus =
    { h.bus with breqLow := h.bus.breqLow && h.bus.breqFrom.isNone, breqFrom := (h.tick quiet now).bus.breqFrom } := by
  unfold Hearth.tick; dsimp only; (repeat' split) <;> rfl

theorem hearthTick_noCycle (hc : h.cyc = none) : (h.tick quiet now).cyc = none ∧ (h.tick quiet now).hd = h.hd := by
  simp [Hearth.tick, hc]

/-- R201: HnACK_N falls in the tick after the read data are driven. -/
theorem hearthTick_driving {c : Cycle} (hc : h.cyc = some c) (hp : c.phase = .driving) (hq : quiet = false) :
    (h.tick quiet now).cyc = some { c with phase := .answered .ack now } ∧ (h.tick quiet now).ackLow = true ∧
      (h.tick quiet now).waitLow = false ∧ (h.tick quiet now).hd = h.hd := by
  simp [Hearth.tick, hc, hp, hq]

/-- R262: the data of a beat are driven in the tick after it. -/
theorem hearthTick_fetched {c : Cycle} {d : BitVec 32} (hc : h.cyc = some c) (hp : c.phase ≠ .driving ∨ quiet = true)
    (hf : c.fetched = some d) : (h.tick quiet now).hd = some d ∧
      (h.tick quiet now).cyc = some { c with phase := .driving, rdata := d, fetched := none } := by
  have hn : ¬(c.phase = .driving ∧ quiet = false) := by rintro ⟨h1, h2⟩; simp [h1, h2] at hp
  simp [Hearth.tick, hc, hf, hn]

/-- A cycle with no data to drive stands. -/
theorem hearthTick_waiting {c : Cycle} (hc : h.cyc = some c) (hp : c.phase ≠ .driving ∨ quiet = true) (hf : c.fetched = none) :
    (h.tick quiet now).cyc = some c ∧ (h.tick quiet now).hd = h.hd ∧ (h.tick quiet now).ackLow = h.ackLow := by
  have hn : ¬(c.phase = .driving ∧ quiet = false) := by rintro ⟨h1, h2⟩; simp [h1, h2] at hp
  simp [Hearth.tick, hc, hf, hn]

end HearthTick

/-! ### What a tick does to the bridge -/

/-- R8: the tick that follows the present one. -/
def State.nextTally (s : State) : Tally := tickPlus s.clk.tally 1

/-- One tick but for the hearths that power on (R214). -/
def State.passed (s : State) : State :=
  { s with
    clk := { s.clk with tally := s.nextTally }
    faultPrev := s.faultCond
    wake := false
    upNow := []
    doms := vmap (s.useDom s.nextTally) s.doms
    link := { s.link with clkreqReleased := s.link.clkreqReleased && s.quiet && !s.wake }
    lockEnds := []
    dll := { s.dll with ackDue := false }
    sampler := { s.sampler with taken := false }
    ledger := { s.ledger with low := s.anyHeld, lowSeen := s.ledger.lowSeen || s.anyHeld }
    flueA := s.flueA.sent s.fillerBound
    flueB := s.flueB.sent s.fillerBound
    straps := { s.straps with free := followTick s.nextTally s.straps.free }
    chim := { s.chim with
      reportTick := followTick s.nextTally s.chim.reportTick, funcTick := followTick s.nextTally s.chim.funcTick }
    hearths := vmap (fun _ h => h.tick s.scanDrives s.nextTally) s.hearths }

theorem tick_of_running {s : State} (h : s.running = true) : s.tick = s.passed.poweredOn allHearths := by
  unfold State.tick
  rw [if_pos h]
  exact powerOn_eq s.passed

theorem tick_of_not_running {s : State} (h : s.running = false) : s.tick = s := by
  unfold State.tick
  rw [if_neg (by simp [h])]

theorem hearth_passed (s : State) (n : HearthId) : s.passed.hearth n = (s.hearth n).tick s.scanDrives s.nextTally :=
  vget_vmap _ _ _

theorem powersOn_passed (s : State) (n : HearthId) : s.passed.powersOn n = s.powersOn n := by
  simp only [State.powersOn, hearth_passed, hearthTick_slot, hearthTick_pgood]

theorem hearth_poweredOn (s : State) (l : List HearthId) (n : HearthId) : (s.poweredOn l).hearth n = s.poweredHearth l n :=
  vget_vmap (fun n _ => s.poweredHearth l n) s.hearths n

@[simp] theorem poweredOn_dom (s : State) (l : List HearthId) (d : DomainId) : (s.poweredOn l).dom d = s.dom d := rfl
@[simp] theorem poweredOn_flue (s : State) (l : List HearthId) (f : FlueId) : (s.poweredOn l).flue f = s.flue f := by cases f <;> rfl
@[simp] theorem poweredOn_fns (s : State) (l : List HearthId) : (s.poweredOn l).fns = s.fns := rfl
@[simp] theorem poweredOn_reqs (s : State) (l : List HearthId) : (s.poweredOn l).reqs = s.reqs := rfl
@[simp] theorem poweredOn_txq (s : State) (l : List HearthId) : (s.poweredOn l).txq = s.txq := rfl
@[simp] theorem poweredOn_irq (s : State) (l : List HearthId) : (s.poweredOn l).irq = s.irq := rfl

/-- Of a hearth, a tick changes what `Hearth.tick` says, and the slot state of one that powers on. -/
theorem hearth_tick {s : State} (h : s.running = true) (n : HearthId) :
    s.tick.hearth n = { (s.hearth n).tick s.scanDrives s.nextTally with
      slot := if s.powersOn n then .sampling else (s.hearth n).slot } := by
  simp only [tick_of_running h, hearth_poweredOn, State.poweredHearth, mem_allHearths, true_and, powersOn_passed, hearth_passed,
    hearthTick_slot]

/-- R98: a domain that has work is in use, and the last use of another is followed. -/
theorem dom_tick {s : State} (h : s.running = true) (d : DomainId) : s.tick.dom d = s.useDom s.nextTally d (s.dom d) := by
  rw [tick_of_running h, poweredOn_dom]
  exact vget_vmap _ _ _

/-- R292: the blocks of a flue leave. -/
theorem flue_tick {s : State} (h : s.running = true) (f : FlueId) : s.tick.flue f = (s.flue f).sent s.fillerBound := by
  rw [tick_of_running h, poweredOn_flue]
  cases f <;> rfl

/-- The hearths that power on change the queue of resamples, and nothing else but themselves. -/
theorem poweredOn_passed (s : State) (l : List HearthId) :
    s.passed.poweredOn l = { s.passed with
      wake := l.any s.powersOn
      hearths := (s.passed.poweredOn l).hearths
      straps := { s.passed.straps with
        resampleQ := s.straps.resampleQ ++ l.filter fun n => s.powersOn n && !s.straps.resampleQ.contains n } } := by
  have hq : s.passed.poweredQueue l =
      s.straps.resampleQ ++ l.filter fun n => s.powersOn n && !s.straps.resampleQ.contains n := by
    simp only [State.poweredQueue, powersOn_passed]
    rfl
  have hw : (s.passed.wake || l.any s.passed.powersOn) = l.any s.powersOn := by
    rw [funext (powersOn_passed s)]
    rfl
  rw [← hq, ← hw]
  rfl

theorem tick_doms {s : State} (h : s.running = true) : s.tick.doms = s.passed.doms := by
  rw [tick_of_running h]
  rfl

theorem tick_flueA {s : State} (h : s.running = true) : s.tick.flueA = s.flueA.sent s.fillerBound := flue_tick h .a
theorem tick_flueB {s : State} (h : s.running = true) : s.tick.flueB = s.flueB.sent s.fillerBound := flue_tick h .b

/-- One tick: every part of the state it changes. -/
theorem tick_eq {s : State} (h : s.running = true) :
    s.tick = { s.passed with
      wake := allHearths.any s.powersOn
      hearths := s.tick.hearths
      straps := { s.passed.straps with
        resampleQ := s.straps.resampleQ ++ allHearths.filter fun n => s.powersOn n && !s.straps.resampleQ.contains n } } := by
  rw [tick_of_running h]
  exact poweredOn_passed s allHearths

/-! ### What ticks leave alone -/

section Untouched

variable (s : State) (t : Tally)

theorem tick_untouched : s.tick.fns = s.fns ∧ s.tick.reqs = s.reqs ∧ s.tick.txq = s.txq ∧ s.tick.irq = s.irq := by
  cases h : s.running
  · simp [tick_of_not_running h]
  · rw [tick_of_running h, poweredOn_fns, poweredOn_reqs, poweredOn_txq, poweredOn_irq]
    exact ⟨rfl, rfl, rfl, rfl⟩

theorem advanceTo_untouched : (s.advanceTo t).fns = s.fns ∧ (s.advanceTo t).reqs = s.reqs ∧ (s.advanceTo t).txq = s.txq ∧
    (s.advanceTo t).irq = s.irq := by
  unfold State.advanceTo
  dsimp only
  (repeat' split)
  · exact ⟨rfl, rfl, rfl, rfl⟩
  · exact tick_untouched s
  · obtain ⟨hf, hr, hx, hi⟩ := tick_untouched { s.tick with clk := { s.tick.clk with tally := tickPlus t (2 ^ 48 - 1) } }
    obtain ⟨hf', hr', hx', hi'⟩ := tick_untouched s
    exact ⟨hf.trans hf', hr.trans hr', hx.trans hx', hi.trans hi'⟩

@[simp] theorem advanceTo_fns : (s.advanceTo t).fns = s.fns := (advanceTo_untouched s t).1
@[simp] theorem advanceTo_reqs : (s.advanceTo t).reqs = s.reqs := (advanceTo_untouched s t).2.1
@[simp] theorem advanceTo_txq : (s.advanceTo t).txq = s.txq := (advanceTo_untouched s t).2.2.1
@[simp] theorem advanceTo_irq : (s.advanceTo t).irq = s.irq := (advanceTo_untouched s t).2.2.2

end Untouched

/-! ### The statement -/

/-- Settles O2: one tick is `State.passed` with the hearths that power on in SAMPLING, and each clause reads one part of it. -/
theorem emptyQueueTicks : Obligations.EmptyQueueTicks := by
  unfold Obligations.EmptyQueueTicks
  intro s t enters now hq ht he hn
  have henters : enters = s.powersOn := funext he
  have hnow : now = s.nextTally := hn
  subst ht henters hnow
  refine ⟨by simp only [step, hq], tick_of_not_running, fun hrun => ⟨fun d => ?_, hearth_tick hrun, fun n => ?_, ?_, fun f => ?_⟩⟩
  · rw [dom_tick hrun]; rfl
  · simp only [hearth_tick hrun n]
    exact ⟨hearthTick_rising .., hearthTick_balls .., hearthTick_cfg .., hearthTick_bus .., hearthTick_noCycle _ _ _,
      fun c hc => ⟨hearthTick_driving _ _ _ hc, fun d => hearthTick_fetched _ _ _ hc, hearthTick_waiting _ _ _ hc⟩⟩
  · rw [tick_doms hrun, tick_flueA hrun, tick_flueB hrun]
    exact tick_eq hrun
  · rw [flue_tick hrun]; rfl

end Sys2Proof.Machine
end

-- ==== Proofs of 00_scope: configuration writes ====
section
/-! Configuration writes (R12, R13, R156, R159, R180, R185): the register written, the credits of the request, and its
completion. -/

namespace Sys2Proof.Machine

open Sys2Proof

/-! ### The register written -/

theorem modFn_modFn (s : State) (f : FnId) (g k : FnCfg → FnCfg) : (s.modFn f g).modFn f k = s.modFn f fun c => k (g c) := by
  have e : (s.modFn f g).modFn f k = { s with fns := vset (vset s.fns f (g (s.fn f))) f (k ((s.modFn f g).fn f)) } := rfl
  rw [e, vset_vset, fn_modFn_self]
  rfl

/-- The offsets whose registers have a field of their own command, or a BAR, or the lane errors of function 0. -/
def ownOffsets : List Nat := [0x04, 0x10, 0x14, 0x18, 0x1C, 0x44, 0x58, 0x78, 0x160]

/-- R12, R13, R185: what a write at another offset makes of a function: the bus number is kept, status bits clear, masks and the
severity take the enabled bytes. -/
def FnCfg.aerWritten (c : FnCfg) (off : Nat) (be : BitVec 4) (data : Dword) (bus : Byte) : FnCfg :=
  { c with
    bus := bus
    uncSta := if off = 0x104 then c.uncSta &&& ~~~(data &&& beMask be) else c.uncSta
    corSta := if off = 0x110 then c.corSta &&& ~~~(data &&& beMask be) else c.corSta
    uncMask := if off = 0x108 then merge c.uncMask data be &&& uncWritable else c.uncMask
    uncSev := if off = 0x10C then merge c.uncSev data be &&& uncWritable else c.uncSev
    corMask := if off = 0x114 then merge c.corMask data be &&& corWritable else c.corMask }

theorem cfgWrite_aer (s : State) (f : FnId) {off : Nat} (hoff : off ∉ ownOffsets) (be : BitVec 4) (data : Dword) (bus : Byte) :
    s.cfgWrite f off be data bus = s.modFn f fun c => c.aerWritten off be data bus := by
  have hother : off ∉ [0x104, 0x108, 0x10C, 0x110, 0x114] →
      s.cfgWrite f off be data bus = s.modFn f fun c => { c with bus := bus } := by
    intro h
    unfold State.cfgWrite
    split <;> simp [ownOffsets] at hoff h ⊢
  by_cases h : off ∈ [0x104, 0x108, 0x10C, 0x110, 0x114]
  · simp only [List.mem_cons, List.not_mem_nil, or_false] at h
    rcases h with rfl | rfl | rfl | rfl | rfl <;> simp [State.cfgWrite, modFn_modFn, FnCfg.aerWritten]
  · rw [hother h]
    simp only [List.mem_cons, List.not_mem_nil, or_false, not_or] at h
    obtain ⟨h1, h2, h3, h4, h5⟩ := h
    simp only [FnCfg.aerWritten, if_neg h1, if_neg h2, if_neg h3, if_neg h4, if_neg h5]

/-- R180: a BAR of which one half, the upper one with `high`, takes the enabled bytes. -/
def barWritten (bar : BitVec 64) (high : Bool) (data : Dword) (be : BitVec 4) : BitVec 64 :=
  if high then merge (bar.extractLsb' 32 32) data be ++ bar.extractLsb' 0 32
  else bar.extractLsb' 32 32 ++ merge (bar.extractLsb' 0 32) data be

/-- R13: where a half of a function's BAR stands. -/
def barOffset (f : FnId) (high : Bool) : Nat :=
  if high then (if f.val = 0 then 0x1C else 0x14) else (if f.val = 0 then 0x18 else 0x10)

theorem barOffset_mod (f : FnId) (high : Bool) : barOffset f high % 4 = 0 ∧ barOffset f high % 8 = if high then 4 else 0 := by
  cases high <;> by_cases hf : f.val = 0 <;> simp [barOffset, hf]

theorem cfgWrite_bar (s : State) (f : FnId) (high : Bool) (be : BitVec 4) (data : Dword) (bus : Byte) :
    s.cfgWrite f (barOffset f high) be data bus = s.modFn f fun c => { c with bus := bus, bar := barWritten c.bar high data be } := by
  have hbar : (s.modFn f fun c => { c with bus := bus }).writeBar f high data be =
      s.modFn f fun c => { c with bus := bus, bar := barWritten c.bar high data be } := modFn_modFn s f _ _
  rw [← hbar]
  cases high <;> by_cases hf : f.val = 0 <;> simp [State.cfgWrite, barOffset, hf]

/-! ### Taking and completing the request -/

theorem exec_configWrite {s : State} {f : FnId} (h : s.cfgReaches f = true) (off : Fin 4096) (be : BitVec 4) (data : Dword)
    (bus : Byte) (tag : Nat) : exec (.configWrite f off be data bus tag) s = .next (s.takeCfgWrite f off.val be data bus tag) :=
  if_pos h

/-- R153: the credits of a configuration request are taken and returned at once. -/
theorem passNp_fc (s : State) (bytes : Nat) : (s.passNp bytes).fc =
    { s.fc with alloc := { s.fc.alloc with nph := s.fc.alloc.nph + 1, npd := s.fc.alloc.npd + dataUnits bytes } } := by
  simp [State.passNp, Fc.take, Fc.giveBack]

/-- R159: a configuration write is completed by one Cpl behind the TLPs that its effect has left. -/
theorem takeCfgWrite_eq (s : State) (f : FnId) {off : Nat} (h4 : off % 4 = 0) (be : BitVec 4) (data : Dword) (bus : Byte) (tag : Nat) :
    s.takeCfgWrite f off be data bus tag =
      (((s.passNp 4).cfgWrite f off be data bus).sendTlp { bareTlp .cpl f with tag := tag }).woken := by
  have e : off / 4 * 4 = off := by omega
  rw [State.takeCfgWrite, e]
  rfl

/-- A write that changes one function and has no other effect, taken and completed. -/
def State.fnWritten (s : State) (f : FnId) (g : FnCfg → FnCfg) (tag : Nat) : State :=
  (((s.passNp 4).modFn f g).sendTlp { bareTlp .cpl f with tag := tag }).woken

section FnWritten

variable (s : State) (f : FnId) (g : FnCfg → FnCfg) (tag : Nat)

@[simp] theorem fnWritten_fns : (s.fnWritten f g tag).fns = vset s.fns f (g (s.fn f)) := rfl
@[simp] theorem fnWritten_fn : (s.fnWritten f g tag).fn f = g (s.fn f) := vget_vset_self _ _ _
theorem fnWritten_fc : (s.fnWritten f g tag).fc = (s.passNp 4).fc := rfl
theorem fnWritten_txq : (s.fnWritten f g tag).txq =
    s.txq ++ [{ bareTlp .cpl f with tag := tag, id := s.nextId, readyAt := s.now }] := rfl

theorem fnWritten_standing : (s.fnWritten f g tag).standing = { s.standing with fns := steadyFns (s.fnWritten f g tag).fns } := rfl

end FnWritten

/-- R180: a BAR reads as a multiple of its size. -/
theorem barValue_aligned (s : State) (f : FnId) : s.barValue f % 2 ^ s.barBits f = 0 := Nat.mul_mod_left _ _

/-! ### A request to a function that is not exposed -/

/-- R175: a host link that is up has a mode that exposes function 0. -/
theorem exposed_zero_of_hostLinkUp {s : State} (h : s.hostLinkUp = true) : s.exposed 0 = true := by
  simp only [State.hostLinkUp, Bool.and_eq_true] at h
  obtain ⟨⟨⟨-, hm⟩, -⟩, -⟩ := h
  cases hmode : s.mode <;> simp [hmode, Mode.exposes, State.exposed, State.lastFn] at hm ⊢

/-- An error message is an item of the ledger: the queue of TLPs, the requests and the credits stand. -/
@[simp] theorem errMessage_txq (s : State) (f : FnId) (k : Option TxKind) : (s.errMessage f k).txq = s.txq := by
  unfold State.errMessage; dsimp only; (repeat' split) <;> rfl

@[simp] theorem errMessage_reqs (s : State) (f : FnId) (k : Option TxKind) : (s.errMessage f k).reqs = s.reqs := by
  unfold State.errMessage; dsimp only; (repeat' split) <;> rfl

@[simp] theorem errMessage_fc (s : State) (f : FnId) (k : Option TxKind) : (s.errMessage f k).fc = s.fc := by
  unfold State.errMessage; dsimp only; (repeat' split) <;> rfl

/-- R310: the error fields of an Unsupported Request stand as recorded, whatever the message sets of the Status register. -/
theorem errMessage_fn (s : State) (f k : FnId) (m : Option TxKind) :
    ((s.errMessage f m).fn k).uncSta = (s.fn k).uncSta ∧ ((s.errMessage f m).fn k).corSta = (s.fn k).corSta ∧
      (k ≠ f → (s.errMessage f m).fn k = s.fn k) := by
  have hmod : ∀ g : FnCfg → FnCfg, k ≠ f → (s.modFn f g).fn k = s.fn k := fun g h => by rw [fn_modFn, if_neg h]
  have hfn : ∀ (x : State) (kd : TxKind), (x.presentMessage kd f [] Config.costHeader).fn k = x.fn k := fun _ _ => rfl
  unfold State.errMessage
  split
  · exact ⟨rfl, rfl, fun _ => rfl⟩
  split
  · exact ⟨rfl, rfl, fun _ => rfl⟩
  dsimp only
  split
  · rw [hfn]
    refine ⟨?_, ?_, hmod _⟩ <;> by_cases e : k = f <;> simp [fn_modFn, e]
  · exact ⟨rfl, rfl, fun _ => rfl⟩

/-- R310: an Unsupported Request that is a case of Advisory Non-Fatal, as `setUnc` records it. -/
theorem uncRecorded_setUnc (c : FnCfg) (hdr : Vector Dword 4) : uncRecorded c (c.setUnc .ur true hdr) 20 true := by
  refine ⟨fun h => ?_, fun _ h => ?_⟩
  · have hf : c.uncSev.getLsbD 20 = true := h.resolve_left (by simp)
    simp [FnCfg.setUnc, FnCfg.fatal, UncErr.bit, hf]
  · constructor
    · simp only [FnCfg.setUnc, FnCfg.fatal, UncErr.bit, CorErr.bit, h, Bool.true_and, Bool.not_false, if_true]
      rfl
    · simp only [FnCfg.setUnc, FnCfg.fatal, UncErr.bit, CorErr.bit, h, Bool.true_and, Bool.not_false]

theorem uncRecorded_congr {c d e : FnCfg} {bit : Nat} {advisory : Bool} (hu : e.uncSta = d.uncSta) (hc : e.corSta = d.corSta)
    (h : uncRecorded c d bit advisory) : uncRecorded c e bit advisory := by
  unfold uncRecorded
  rw [hu, hc]
  exact h

/-- R156, R175: the Unsupported Request is recorded in function 0 and completed by it. -/
theorem cfgMiss_eq {s : State} (h : s.exposed 0 = true) (bytes tag : Nat) :
    s.cfgMiss bytes tag = ((((s.passNp bytes).modFn 0 fun c => c.setUnc .ur true noHeader).errMessage 0
      ((s.fn 0).uncMessage .ur true)).sendTlp { bareTlp .cpl 0 with tag := tag, status := .ur }).woken := by
  have e : (s.passNp bytes).exposed (0 : FnId).val = true := h
  rw [State.cfgMiss, State.recordUnc, if_pos e]
  rfl

/-- Nothing else of the functions changes. -/
theorem cfgMiss_fns {s : State} (h : s.exposed 0 = true) (bytes tag : Nat) :
    uncRecorded (s.fn 0) ((s.cfgMiss bytes tag).fn 0) 20 true ∧ ∀ g, g ≠ 0 → (s.cfgMiss bytes tag).fn g = s.fn g := by
  rw [cfgMiss_eq h]
  have he := errMessage_fn ((s.passNp bytes).modFn 0 fun c => c.setUnc .ur true noHeader) 0
  refine ⟨?_, fun g hg => ?_⟩
  · obtain ⟨hu, hc, -⟩ := he 0 ((s.fn 0).uncMessage .ur true)
    rw [fn_modFn_self] at hu hc
    exact uncRecorded_congr hu hc (uncRecorded_setUnc (s.fn 0) noHeader)
  · obtain ⟨-, -, hn⟩ := he g ((s.fn 0).uncMessage .ur true)
    refine (hn hg).trans ?_
    rw [fn_modFn, if_neg hg]
    rfl

theorem cfgMiss_txq {s : State} (h : s.exposed 0 = true) (bytes tag : Nat) : ∃ u, (s.cfgMiss bytes tag).txq = s.txq ++ [u] ∧
    u.kind = .cpl ∧ u.fn = 0 ∧ u.tag = tag ∧ u.status = .ur := by
  rw [cfgMiss_eq h]
  exact ⟨_, by rw [woken_txq, sendTlp_txq, errMessage_txq]; rfl, rfl, rfl, rfl, rfl⟩

theorem cfgMiss_reqs_fc {s : State} (h : s.exposed 0 = true) (bytes tag : Nat) :
    (s.cfgMiss bytes tag).reqs = s.reqs ∧ (s.cfgMiss bytes tag).fc = (s.passNp bytes).fc := by
  rw [cfgMiss_eq h, woken_reqs, sendTlp_reqs, errMessage_reqs, woken_fc, sendTlp_fc, errMessage_fc]
  exact ⟨rfl, rfl⟩

/-! ### The statement -/

/-- Settles O31: each kind of register write is one change of the function (`cfgWrite_aer`, `cfgWrite_bar`), taken and completed as
`State.fnWritten` says; a miss is `cfgMiss_eq`. -/
theorem configurationWrites : Obligations.ConfigurationWrites := by
  unfold Obligations.ConfigurationWrites
  refine ⟨fun f off be data bus tag s hr h4 => ?_, fun f off be data bus tag s hr hoff => ?_, fun f off be data bus tag s hl hx => ?_⟩
  · refine ⟨_, exec_configWrite hr off be data bus tag, ?_, fun hoff => ?_⟩
    · rw [takeCfgWrite_eq s f h4]
      exact ⟨_, _, rfl, rfl, rfl, rfl, rfl⟩
    · have e : s.takeCfgWrite f off be data bus tag = s.fnWritten f (fun c => c.aerWritten off be data bus) tag := by
        rw [takeCfgWrite_eq s f h4, cfgWrite_aer _ f hoff]
        rfl
      rw [e]
      refine ⟨fnWritten_fns .., by rw [fnWritten_txq, List.length_append]; rfl, rfl, rfl, ?_, ?_, fnWritten_standing ..⟩ <;> rw [fnWritten_fc, passNp_fc]
  · obtain ⟨high, hoff⟩ : ∃ high, off.val = barOffset f high := hoff.elim (fun h => ⟨false, h⟩) fun h => ⟨true, h⟩
    obtain ⟨h4, h8⟩ := barOffset_mod f high
    have e : s.takeCfgWrite f off be data bus tag =
        s.fnWritten f (fun c => { c with bus := bus, bar := barWritten c.bar high data be }) tag := by
      rw [hoff, takeCfgWrite_eq s f h4, cfgWrite_bar]
      rfl
    refine ⟨_, exec_configWrite hr off be data bus tag, ?_⟩
    rw [e, hoff, h8, fnWritten_fn, fnWritten_fns]
    refine ⟨rfl, fun h => ?_, fun h => ?_, barValue_aligned _ f, rfl, ⟨_, rfl, rfl, rfl, rfl⟩, rfl, fnWritten_standing ..⟩
    · have : high = false := by cases high <;> simp at h ⊢
      rw [this]; rfl
    · have : high = true := by cases high <;> simp at h ⊢
      rw [this]; rfl
  · have h0 := exposed_zero_of_hostLinkUp hl
    have hr : ¬s.cfgReaches f = true := by simp [State.cfgReaches, hx]
    have he : exec (.configWrite f off be data bus tag) s = .next (s.cfgMiss 4 tag) := by
      rw [← if_pos (t := Host.Outcome.next (s.cfgMiss 4 tag)) (e := Host.Outcome.next s) hl]
      exact if_neg hr
    obtain ⟨hu, hg⟩ := cfgMiss_fns h0 4 tag
    obtain ⟨u, hq, hkind, hfn, htag, hstatus⟩ := cfgMiss_txq h0 4 tag
    obtain ⟨hreqs, hfc⟩ := cfgMiss_reqs_fc h0 4 tag
    refine ⟨_, u, he, hq, hkind, hfn, htag, hstatus, hu, hg, hreqs, ?_, standing_cfgMiss ..⟩
    rw [hfc, passNp_fc]

end Sys2Proof.Machine
end

-- ==== Proofs of 00_scope: work that ends ====
section
/-! What the end of work leaves of the host requests, the queue of TLPs, the interrupts, the sampler and the open cycles and
locks of the hearths: `Untouched` where an operation changes none of them, `WorkEnds` where it can only take away and
complete. One lemma for each operation of a function level reset. -/

namespace Sys2Proof.Machine

open Sys2Proof

/-! ### Two relations -/

/-- The host requests, the queue of TLPs, the interrupts, the sampler and the hearths are the same. -/
structure Untouched (s t : State) : Prop where
  reqs : t.reqs = s.reqs
  txq : t.txq = s.txq
  irq : t.irq = s.irq
  sampler : t.sampler = s.sampler
  hearths : t.hearths = s.hearths

/-- A TLP but for the tick from which it may leave (R226). -/
def TxTlp.timeless (u : TxTlp) : TxTlp := { u with readyAt := 0 }

/-- A completion the bridge makes of a host request. -/
def TxTlp.completes (u : TxTlp) : Prop := (u.kind = .cpl ∨ u.kind = .cplD) ∧ u.origin = .none

/-- From `s` to `t` work has ended: no request is new, the queue of TLPs has gained completions only and has lost none that stands
for no open work, interrupts and sampler stand, and no hearth has begun a cycle or a lock. -/
structure WorkEnds (s t : State) : Prop where
  reqs : ∀ r ∈ t.reqs, ∃ q ∈ s.reqs, q.id = r.id ∧ q.fn = r.fn ∧ q.stone = r.stone
  old : ∀ u ∈ t.txq, u.completes ∨ u.timeless ∈ s.txq.map TxTlp.timeless
  kept : ∀ u ∈ s.txq, u.origin = .none → u.timeless ∈ t.txq.map TxTlp.timeless
  irq : t.irq = s.irq
  sampler : t.sampler = s.sampler
  cyc : ∀ n, (s.hearth n).cyc = none → (t.hearth n).cyc = none
  lock : ∀ n, (s.hearth n).lock = none → (t.hearth n).lock = none

theorem Untouched.refl (s : State) : Untouched s s := ⟨rfl, rfl, rfl, rfl, rfl⟩

theorem Untouched.trans {s t u : State} (h : Untouched s t) (k : Untouched t u) : Untouched s u :=
  ⟨k.reqs.trans h.reqs, k.txq.trans h.txq, k.irq.trans h.irq, k.sampler.trans h.sampler, k.hearths.trans h.hearths⟩

theorem Untouched.forList {α : Type} (l : List α) (f : α → State → State) (h : ∀ x s, Untouched s (f x s)) (s : State) :
    Untouched s (forList l f s) := by
  induction l generalizing s with
  | nil => exact .refl s
  | cons x l ih => exact (h x s).trans (ih (f x s))

theorem TxTlp.origin_eq_of_timeless {u v : TxTlp} (h : u.timeless = v.timeless) : u.origin = v.origin := congrArg (·.origin) h
theorem TxTlp.kind_eq_of_timeless {u v : TxTlp} (h : u.timeless = v.timeless) : u.kind = v.kind := congrArg (·.kind) h

theorem TxTlp.completes_congr {u v : TxTlp} (h : u.timeless = v.timeless) (hv : v.completes) : u.completes := by
  rwa [TxTlp.completes, TxTlp.kind_eq_of_timeless h, TxTlp.origin_eq_of_timeless h]

theorem Untouched.workEnds {s t : State} (h : Untouched s t) : WorkEnds s t := by
  have hh : ∀ n, t.hearth n = s.hearth n := fun n => congrArg (vget · n) h.hearths
  refine ⟨fun r hr => ⟨r, h.reqs ▸ hr, rfl, rfl, rfl⟩, fun u hu => .inr ?_, fun u hu _ => ?_, h.irq, h.sampler,
    fun n hn => ?_, fun n hn => ?_⟩
  · rw [h.txq] at hu; exact List.mem_map_of_mem hu
  · rw [h.txq]; exact List.mem_map_of_mem hu
  · rw [hh, hn]
  · rw [hh, hn]

theorem WorkEnds.refl (s : State) : WorkEnds s s := (Untouched.refl s).workEnds

theorem WorkEnds.trans {s t u : State} (h : WorkEnds s t) (k : WorkEnds t u) : WorkEnds s u := by
  refine ⟨fun r hr => ?_, fun x hx => ?_, fun x hx ho => ?_, k.irq.trans h.irq, k.sampler.trans h.sampler,
    fun n hn => k.cyc n (h.cyc n hn), fun n hn => k.lock n (h.lock n hn)⟩
  · obtain ⟨q, hq, hid, hfn, hst⟩ := k.reqs r hr
    obtain ⟨p, hp, hid', hfn', hst'⟩ := h.reqs q hq
    exact ⟨p, hp, hid'.trans hid, hfn'.trans hfn, hst'.trans hst⟩
  · refine (k.old x hx).elim .inl fun hy => ?_
    obtain ⟨y, hy, hyx⟩ := List.mem_map.mp hy
    exact (h.old y hy).imp (TxTlp.completes_congr hyx.symm) fun hm => hyx ▸ hm
  · obtain ⟨y, hy, hyx⟩ := List.mem_map.mp (h.kept x hx ho)
    exact hyx ▸ k.kept y hy ((TxTlp.origin_eq_of_timeless hyx).trans ho)

theorem WorkEnds.forList {α : Type} (l : List α) (f : α → State → State) (h : ∀ x s, WorkEnds s (f x s)) (s : State) :
    WorkEnds s (forList l f s) := by
  induction l generalizing s with
  | nil => exact .refl s
  | cons x l ih => exact (h x s).trans (ih (f x s))

theorem WorkEnds.forHearths (f : HearthId → State → State) (h : ∀ n s, WorkEnds s (f n s)) (s : State) :
    WorkEnds s (forHearths f s) := WorkEnds.forList allHearths f h s

/-! ### Operations that touch none of these parts -/

theorem untouched_modFn (s : State) (f : FnId) (g : FnCfg → FnCfg) : Untouched s (s.modFn f g) := ⟨rfl, rfl, rfl, rfl, rfl⟩

theorem untouched_push (s : State) (p : Piece) : Untouched s (s.push p) := ⟨rfl, rfl, rfl, rfl, rfl⟩

theorem untouched_woken (s : State) : Untouched s s.woken := ⟨rfl, rfl, rfl, rfl, rfl⟩

theorem untouched_presentHost (s : State) (port : PortId) (path : List DomainId) (cost : Nat) (w : Work) :
    Untouched s (s.presentHost port path cost w) := ⟨rfl, rfl, rfl, rfl, rfl⟩

theorem untouched_presentSlot (s : State) (k : Fin 19) (port : PortId) (path : List DomainId) (cost : Nat) (w : Work) :
    Untouched s (s.presentSlot k port path cost w) := ⟨rfl, rfl, rfl, rfl, rfl⟩

theorem untouched_dropStored (s : State) (q : Origin → Bool) : Untouched s (s.dropStored q) := ⟨rfl, rfl, rfl, rfl, rfl⟩

theorem untouched_freeTags (s : State) : Untouched s s.freeTags := ⟨rfl, rfl, rfl, rfl, rfl⟩

theorem untouched_dropBeats (s : State) (id : Nat) : Untouched s (s.dropBeats id) := by
  unfold State.dropBeats
  exact ⟨rfl, rfl, rfl, rfl, rfl⟩

theorem untouched_emit (s : State) (f : FlueId) (b : FlueBlk) : Untouched s (s.emit f b) := by
  cases f <;> exact ⟨rfl, rfl, rfl, rfl, rfl⟩

theorem untouched_errMessage (s : State) (f : FnId) (k : Option TxKind) : Untouched s (s.errMessage f k) := by
  unfold State.errMessage
  split
  · exact .refl s
  split
  · exact .refl s
  dsimp only
  split <;> exact ⟨rfl, rfl, rfl, rfl, rfl⟩

theorem untouched_recordCor (s : State) (f : FnId) (e : CorErr) : Untouched s (s.recordCor f e) := by
  unfold State.recordCor
  split
  · exact (untouched_modFn s f _).trans (untouched_errMessage _ f _)
  · exact .refl s

theorem untouched_recordUnc (s : State) (f : FnId) (e : UncErr) (advisory : Bool) (hdr : Vector Dword 4) :
    Untouched s (s.recordUnc f e advisory hdr) := by
  unfold State.recordUnc
  split
  · exact (untouched_modFn s f _).trans (untouched_errMessage _ f _)
  · exact .refl s

theorem untouched_logEvent (s : State) (f : FnId) : Untouched s (s.logEvent f) := untouched_recordCor s f .internal

theorem untouched_setStatus (s : State) (f : FnId) (bit : Nat) : Untouched s (s.setStatus f bit) := by
  unfold State.setStatus
  split
  · exact untouched_modFn s f _
  · exact .refl s

theorem untouched_control (s : State) (q : Fin 4) (b : FlueBlk) : Untouched s (s.control q b) := by
  unfold State.control
  split
  · exact untouched_emit s _ b
  · exact ⟨rfl, rfl, rfl, rfl, rfl⟩

theorem untouched_setChim (s : State) (c : Chimney) : Untouched s { s with chim := c } := ⟨rfl, rfl, rfl, rfl, rfl⟩

theorem untouched_performedFrom (s : State) (p : Fin 4) (num : BitVec 16) : Untouched s (s.performedFrom p num) :=
  (untouched_setChim s _).trans (untouched_control _ _ _)

theorem untouched_sendFunc (s : State) (h : Fin 64) (reset : Bool) : Untouched s (s.sendFunc h reset) := by
  unfold State.sendFunc
  split
  · exact (untouched_setChim s _).trans (untouched_control _ _ _)
  · exact .refl s

theorem untouched_presentIntx (s : State) (f : FnId) (up : Bool) : Untouched s (s.presentIntx f up) := by
  unfold State.presentIntx
  split
  · exact .refl s
  · exact untouched_presentHost s _ _ _ _

theorem untouched_presentArrival (s : State) (f : FlueId) (b : PieceBlk) (path : List DomainId) (cost : Nat) (w : Work) :
    Untouched s (s.presentArrival f b path cost w) := by
  unfold State.presentArrival
  split
  · exact untouched_presentHost s _ _ _ _
  · exact untouched_presentSlot s _ _ _ _ _

theorem untouched_refuseArrival (s : State) (b : PieceBlk) (st : CplStatus) : Untouched s (s.refuseArrival b st) := by
  unfold State.refuseArrival
  split
  · exact untouched_push s _
  · exact untouched_performedFrom s _ _

theorem untouched_farArrival (s : State) (f : FlueId) (b : PieceBlk) : Untouched s (s.farArrival f b) := by
  unfold State.farArrival
  split
  · exact untouched_presentArrival s _ _ _ _ _
  split
  · exact (untouched_logEvent s _).trans (untouched_refuseArrival _ b _)
  · exact untouched_refuseArrival s b _

theorem untouched_landHost (s : State) (f : FlueId) (b : PieceBlk) : Untouched s (s.landHost f b) := by
  unfold State.landHost
  dsimp only
  (repeat' split)
  · exact untouched_farArrival s f b
  · exact .refl s
  · exact untouched_performedFrom s _ _
  · exact untouched_farArrival s f b
  · exact untouched_control s _ _
  · exact untouched_farArrival s f b
  · exact untouched_setChim s _
  · exact untouched_presentArrival s _ _ _ _ _

theorem untouched_landWaiting (s : State) : Untouched s s.landWaiting := by
  unfold State.landWaiting
  dsimp only
  split
  · exact .refl s
  · exact (untouched_setChim s _).trans (Untouched.forList _ _ (fun (x : FlueId × PieceBlk) s => untouched_landHost s x.1 x.2) _)

theorem untouched_presentPieces (s : State) (l : List (Piece × Nat)) : Untouched s (s.presentPieces l) :=
  Untouched.forList _ _ (fun _ s => untouched_presentHost s _ _ _ _) s

/-! ### Hearths -/

theorem workEnds_modHearth (s : State) (n : HearthId) (f : Hearth → Hearth)
    (hc : (s.hearth n).cyc = none → (f (s.hearth n)).cyc = none)
    (hl : (s.hearth n).lock = none → (f (s.hearth n)).lock = none) : WorkEnds s (s.modHearth n f) := by
  have u : Untouched s { s with wake := s.wake } := .refl s
  refine ⟨u.workEnds.reqs, u.workEnds.old, u.workEnds.kept, rfl, rfl, fun m hm => ?_, fun m hm => ?_⟩
  · by_cases e : m = n
    · subst e; rw [hearth_modHearth_self]; exact hc hm
    · rw [hearth_modHearth_ne s n m f e, hm]
  · by_cases e : m = n
    · subst e; rw [hearth_modHearth_self]; exact hl hm
    · rw [hearth_modHearth_ne s n m f e, hm]

/-- One hearth changed, but not its cycle or its lock. -/
theorem workEnds_modHearth_keeps (s : State) (n : HearthId) (f : Hearth → Hearth) (h : ∀ x, (f x).cyc = x.cyc ∧ (f x).lock = x.lock) :
    WorkEnds s (s.modHearth n f) :=
  workEnds_modHearth s n f (fun e => (h _).1.trans e) fun e => (h _).2.trans e

/-- Every hearth changed, but no cycle and no lock. -/
theorem workEnds_mapHearths (s : State) (f : HearthId → Hearth → Hearth)
    (h : ∀ n x, (f n x).cyc = x.cyc ∧ (f n x).lock = x.lock) : WorkEnds s { s with hearths := vmap f s.hearths } := by
  have u := WorkEnds.refl s
  have hv : ∀ n, ({ s with hearths := vmap f s.hearths } : State).hearth n = f n (s.hearth n) := fun n => vget_vmap f s.hearths n
  refine ⟨u.reqs, u.old, u.kept, rfl, rfl, fun n hn => ?_, fun n hn => ?_⟩
  · rw [hv, (h n _).1, hn]
  · rw [hv, (h n _).2, hn]

theorem workEnds_removePieces (s : State) (q : Piece → Bool) : WorkEnds s (s.removePieces q) := by
  have u := workEnds_mapHearths s (fun _ h => { h with bus := { h.bus with jobs := h.bus.jobs.filter fun j => !(q j.piece && !j.started) } })
    fun _ _ => ⟨rfl, rfl⟩
  exact ⟨u.reqs, u.old, u.kept, rfl, rfl, u.cyc, u.lock⟩

theorem workEnds_endPosted (s : State) (n : HearthId) (serial : Nat) : WorkEnds s (s.endPosted n serial) :=
  workEnds_modHearth_keeps s n _ fun _ => ⟨rfl, rfl⟩

theorem workEnds_answer (s : State) (n : HearthId) (r : Resp) : WorkEnds s (s.answer n r) := by
  unfold State.answer
  split
  · exact (workEnds_modHearth s n _ (fun h => by simp [h]) id).trans (untouched_woken _).workEnds
  · exact (workEnds_modHearth s n _ (fun h => by simp [Hearth.respond, h]) fun h => by simp [Hearth.respond, h]).trans
      (untouched_woken _).workEnds

theorem workEnds_driveRead (s : State) (n : HearthId) (got : List (Nat × Byte)) : WorkEnds s (s.driveRead n got) := by
  unfold State.driveRead
  split
  · exact .refl s
  · next c hc => exact (workEnds_modHearth s n _ (fun h => by simp [h] at hc) id).trans (untouched_woken _).workEnds

theorem workEnds_endLock (s : State) (n : HearthId) (rose : Bool) : WorkEnds s (s.endLock n rose) := by
  unfold State.endLock
  split
  · exact .refl s
  · have u := workEnds_modHearth s n (fun h => { h with lock := none, lockMasked := !rose }) id fun _ => rfl
    exact ⟨u.reqs, u.old, u.kept, rfl, rfl, u.cyc, u.lock⟩

/-- R266: a lock that ends is gone. -/
theorem endLock_lock (s : State) (n : HearthId) (rose : Bool) : ((s.endLock n rose).hearth n).lock = none := by
  unfold State.endLock
  split
  · assumption
  · have e := hearth_modHearth_self s n fun h => { h with lock := none, lockMasked := !rose }
    exact congrArg Hearth.lock e

theorem workEnds_endFarLock (s : State) (n : HearthId) (mask : Bool) : WorkEnds s (s.endFarLock n mask) := by
  unfold State.endFarLock
  split
  · exact .refl s
  · next l _ =>
    have u := workEnds_modHearth s n (fun h => { h with
      farLock := none, farMasked := if mask then (l.pos, l.hearth) :: h.farMasked else h.farMasked }) id id
    exact ⟨u.reqs, u.old, u.kept, rfl, rfl, u.cyc, u.lock⟩

theorem workEnds_endFarLocks (s : State) (h : Fin 64) : WorkEnds s (s.endFarLocks h) := by
  refine WorkEnds.forHearths _ (fun m s => ?_) s
  split
  · split
    · exact workEnds_endFarLock s m false
    · exact .refl s
  · exact .refl s

theorem workEnds_farSide (s : State) (n : HearthId) (ev : Bool) : WorkEnds s (s.farSide n ev) := by
  unfold State.farSide
  split
  · exact .refl s
  next c _ =>
    split
    · have hlog : WorkEnds s (if ev || !c.read then s.logEvent (fnOf n) else s) := by
        split
        · exact (untouched_logEvent s _).workEnds
        · exact .refl s
      refine hlog.trans (WorkEnds.trans ?_ (workEnds_endPosted _ n _))
      generalize (if ev || !c.read then s.logEvent (fnOf n) else s) = s1
      split
      · exact workEnds_answer _ n _
      split
      · exact workEnds_driveRead _ n _
      · exact workEnds_answer _ n _
    · exact .refl s

theorem workEnds_failBlocked (s : State) (n : HearthId) : WorkEnds s (s.failBlocked n) := by
  refine WorkEnds.forHearths _ (fun k s => ?_) s
  split
  · split
    · exact workEnds_farSide s k false
    · exact .refl s
  · exact .refl s

/-! ### Host requests -/

theorem workEnds_modReq (s : State) (id : Nat) (f : HostReq → HostReq)
    (hf : ∀ r, (f r).id = r.id ∧ (f r).fn = r.fn ∧ (f r).stone = r.stone) : WorkEnds s (s.modReq id f) := by
  have u := WorkEnds.refl s
  refine ⟨fun r hr => ?_, u.old, u.kept, rfl, rfl, u.cyc, u.lock⟩
  obtain ⟨q, hq, rfl⟩ := List.mem_map.mp hr
  obtain ⟨hid, hfn, hst⟩ := hf q
  by_cases h : q.id = id
  · exact ⟨q, hq, by rw [if_pos h, hid], by rw [if_pos h, hfn], by rw [if_pos h, hst]⟩
  · exact ⟨q, hq, by rw [if_neg h], by rw [if_neg h], by rw [if_neg h]⟩

theorem workEnds_dropReqWork (s : State) (id : Nat) : WorkEnds s (s.dropReqWork id) :=
  (workEnds_mapHearths s (fun _ h => { h with bus := h.bus.dropRest fun p => p.origin = .host id }) fun _ _ => ⟨rfl, rfl⟩).trans
    (workEnds_removePieces _ _)

/-- R153: credits that return change no request but its mark. -/
theorem releaseCredits_cases (s : State) (id : Nat) : s.releaseCredits id = s ∨
    ∃ fc, s.releaseCredits id = { s.modReq id fun r => { r with credits := false } with fc := fc } := by
  unfold State.releaseCredits
  split
  · exact .inl rfl
  split
  · exact .inr ⟨_, rfl⟩
  · exact .inl rfl

/-- A closed request is gone, and the others stand. -/
@[simp] theorem closeReq_reqs (s : State) (id : Nat) : (s.closeReq id).reqs = s.reqs.filter fun r => r.id ≠ id := by
  have e : (s.closeReq id).reqs = (s.releaseCredits id).reqs.filter fun r => r.id ≠ id := rfl
  rw [e]
  obtain h | ⟨fc, h⟩ := releaseCredits_cases s id
  · rw [h]
  · rw [h]
    show (s.reqs.map fun r => if r.id = id then { r with credits := false } else r).filter _ = _
    induction s.reqs with
    | nil => rfl
    | cons r l ih => by_cases hr : r.id = id <;> simp [hr] at ih ⊢ <;> exact ih

@[simp] theorem closeReq_txq (s : State) (id : Nat) : (s.closeReq id).txq = s.txq := by
  obtain h | ⟨fc, h⟩ := releaseCredits_cases s id <;> simp [State.closeReq, h]

@[simp] theorem closeReq_irq (s : State) (id : Nat) : (s.closeReq id).irq = s.irq := by
  obtain h | ⟨fc, h⟩ := releaseCredits_cases s id <;> simp [State.closeReq, h]

@[simp] theorem closeReq_sampler (s : State) (id : Nat) : (s.closeReq id).sampler = s.sampler := by
  obtain h | ⟨fc, h⟩ := releaseCredits_cases s id <;> simp [State.closeReq, h]

@[simp] theorem closeReq_fns (s : State) (id : Nat) : (s.closeReq id).fns = s.fns := by
  obtain h | ⟨fc, h⟩ := releaseCredits_cases s id <;> simp [State.closeReq, h]

@[simp] theorem closeReq_hearths (s : State) (id : Nat) : (s.closeReq id).hearths = s.hearths := by
  obtain h | ⟨fc, h⟩ := releaseCredits_cases s id <;> simp [State.closeReq, h]

theorem workEnds_closeReq (s : State) (id : Nat) : WorkEnds s (s.closeReq id) := by
  have u := WorkEnds.refl s
  have hh : ∀ n, (s.closeReq id).hearth n = s.hearth n := fun n => congrArg (vget · n) (closeReq_hearths s id)
  refine ⟨fun r hr => ?_, ?_, ?_, closeReq_irq s id, closeReq_sampler s id,
    fun n hn => (hh n).symm ▸ hn, fun n hn => (hh n).symm ▸ hn⟩
  · rw [closeReq_reqs] at hr
    exact u.reqs r (List.mem_of_mem_filter hr)
  · rw [closeReq_txq]; exact u.old
  · rw [closeReq_txq]; exact u.kept

/-- A completion goes behind the TLPs already there. -/
theorem sendCpl_txq (s : State) (r : HostReq) (status : CplStatus) (bytes : List (Nat × Byte)) (off len : Nat) :
    ∃ u, (s.sendCpl r status bytes off len).txq = s.txq ++ [u] ∧ u.kind = (if status = .sc then .cplD else .cpl) ∧
      u.origin = .none ∧ u.status = status ∧ u.tag = r.tag ∧ u.fn = r.fn := by
  unfold State.sendCpl
  dsimp only
  split
  · exact ⟨_, (untouched_setStatus _ _ _).txq, rfl, rfl, rfl, rfl, rfl⟩
  · exact ⟨_, rfl, rfl, rfl, rfl, rfl, rfl⟩

theorem workEnds_sendCpl (s : State) (r : HostReq) (status : CplStatus) (bytes : List (Nat × Byte)) (off len : Nat) :
    WorkEnds s (s.sendCpl r status bytes off len) := by
  have hsend : ∀ t : TxTlp, t.completes → WorkEnds s (s.sendTlp t) := by
    intro t ht
    have u := WorkEnds.refl s
    refine ⟨u.reqs, fun x hx => ?_, fun x hx ho => ?_, rfl, rfl, u.cyc, u.lock⟩
    · rcases List.mem_append.mp hx with hx | hx
      · exact u.old x hx
      · exact .inl (TxTlp.completes_congr (v := { t with id := s.nextId }) (by rw [List.mem_singleton.mp hx]; rfl) ht)
    · rw [sendTlp_txq, List.map_append]
      exact List.mem_append_left _ (u.kept x hx ho)
  have hcpl : WorkEnds s (s.sendTlp { bareTlp (if status = .sc then .cplD else .cpl) r.fn with
      addr := off, bytes := bytes, len := len, tag := r.tag, status := status }) :=
    hsend _ ⟨by by_cases h : status = .sc <;> simp [h, bareTlp], rfl⟩
  unfold State.sendCpl
  dsimp only
  split
  · exact hcpl.trans (untouched_setStatus _ _ _).workEnds
  · exact hcpl

theorem workEnds_sendBlocks (k : Nat) (s : State) (id : Nat) : WorkEnds s (State.sendBlocks k s id) := by
  induction k generalizing s with
  | zero => exact .refl s
  | succ k ih =>
    unfold State.sendBlocks
    split
    · exact .refl s
    split
    · dsimp only
      split
      · refine WorkEnds.trans ?_ (ih _)
        refine WorkEnds.trans ?_ (workEnds_modReq _ id _ fun _ => ⟨rfl, rfl, rfl⟩)
        exact workEnds_sendCpl s _ _ _ _ _
      · exact .refl s
    · exact .refl s

theorem workEnds_refuseReq (s : State) (r : HostReq) (status : CplStatus) (e : Option UncErr) : WorkEnds s (s.refuseReq r status e) := by
  have hrec : ∀ s1 : State, WorkEnds s s1 → WorkEnds s (if r.read then s1.sendCpl r status [] r.nextOff 0 else s1) := by
    intro s1 h
    split
    · exact h.trans (workEnds_sendCpl s1 _ _ _ _ _)
    · exact h
  cases e with
  | none => exact hrec s (.refl s)
  | some e => exact hrec _ (untouched_recordUnc s _ _ _ _).workEnds

theorem workEnds_missReq (s : State) (id : Nat) : WorkEnds s (s.missReq id) := by
  unfold State.missReq
  split
  · exact .refl s
  · exact (workEnds_refuseReq s _ _ _).trans (workEnds_closeReq _ id)

theorem workEnds_endRead (k : Nat) (s : State) (r : HostReq) : WorkEnds s (State.endRead k s r) := by
  have hgot : ∀ (id : Nat) (f : HostReq → HostReq), (∀ x, (f x).id = x.id ∧ (f x).fn = x.fn ∧ (f x).stone = x.stone) →
      WorkEnds s (State.sendBlocks 66 (s.modReq id f) id) := fun id f hf =>
    (workEnds_modReq s id f hf).trans (workEnds_sendBlocks 66 _ id)
  induction k generalizing r with
  | zero => exact .refl s
  | succ k ih =>
    unfold State.endRead
    split
    · exact hgot _ _ fun _ => ⟨rfl, rfl, rfl⟩
    split
    · dsimp only
      split
      · refine WorkEnds.trans ?_ (workEnds_refuseReq _ _ _ _)
        exact hgot _ _ fun _ => ⟨rfl, rfl, rfl⟩
      · exact hgot _ _ fun _ => ⟨rfl, rfl, rfl⟩
    · exact ih _

theorem workEnds_endWrite (s : State) (r : HostReq) (modes : List (Bool × Bool)) (ev : Bool) : WorkEnds s (s.endWrite r modes ev) := by
  refine WorkEnds.forList _ _ (fun m s => ?_) s
  (repeat' split)
  · exact (untouched_recordUnc s _ _ _ _).workEnds
  · exact (untouched_recordUnc s _ _ _ _).workEnds
  · exact .refl s
  · exact (untouched_logEvent s _).workEnds

/-- R226: completions that leave later are the same TLPs. -/
theorem workEnds_nextTick (s : State) (id : Nat) : WorkEnds s (s.nextTick id) := by
  have u := WorkEnds.refl s
  have hmap : (s.nextTick id).txq.map TxTlp.timeless = s.txq.map TxTlp.timeless := by
    simp only [State.nextTick, List.map_map]
    refine List.map_congr_left fun x _ => ?_
    simp only [Function.comp]
    split <;> rfl
  refine ⟨u.reqs, fun x hx => .inr ?_, fun x hx _ => ?_, rfl, rfl, u.cyc, u.lock⟩
  · rw [← hmap]; exact List.mem_map_of_mem hx
  · rw [hmap]; exact List.mem_map_of_mem hx

theorem workEnds_endReq (s : State) (id : Nat) (ev : Bool) (struck : Option (Bool × Bool)) : WorkEnds s (s.endReq id ev struck) := by
  unfold State.endReq
  split
  · exact .refl s
  next r _ =>
    dsimp only
    refine WorkEnds.trans ?_ ((workEnds_closeReq _ id).trans (workEnds_nextTick _ s.nextId))
    have hdrop : WorkEnds s ((s.dropReqWork id).dropStored (· = .host id)) :=
      (workEnds_dropReqWork s id).trans (untouched_dropStored _ _).workEnds
    have hlog : WorkEnds s (if ev then ((s.dropReqWork id).dropStored (· = .host id)).logEvent r.fn
        else (s.dropReqWork id).dropStored (· = .host id)) := by
      split
      · exact hdrop.trans (untouched_logEvent _ _).workEnds
      · exact hdrop
    refine hlog.trans ?_
    generalize (if ev then ((s.dropReqWork id).dropStored (· = .host id)).logEvent r.fn
      else (s.dropReqWork id).dropStored (· = .host id)) = s1
    split
    · exact workEnds_endRead 9 s1 _
    · exact workEnds_endWrite s1 r _ ev

/-! ### The work of a hearth -/

theorem workEnds_failPiece (s : State) (p : Piece) (ev : Bool) (got : List (Nat × Byte)) : WorkEnds s (s.failPiece p ev got) := by
  have hlog : ∀ n k, WorkEnds s ((s.logEvent p.wfn).endPosted n k) := fun n k =>
    (untouched_logEvent s _).workEnds.trans (workEnds_endPosted _ n k)
  have hev : WorkEnds s (if ev then s.logEvent p.wfn else s) := by
    split
    · exact (untouched_logEvent s _).workEnds
    · exact .refl s
  unfold State.failPiece
  split
  next n serial _ =>
    split
    · split
      · exact workEnds_farSide s n ev
      · exact .refl s
    · exact .refl s
  next n serial _ =>
    have hwaits : ∀ waits : Bool, WorkEnds s (if waits then s.farSide n ev else (s.logEvent p.wfn).endPosted n serial) := by
      intro waits
      cases waits
      · exact hlog n serial
      · exact workEnds_farSide s n ev
    exact hwaits _
  next id _ =>
    refine WorkEnds.trans ?_ (workEnds_endReq _ id ev _)
    exact workEnds_modReq s id _ fun _ => ⟨rfl, rfl, rfl⟩
  next => exact hev.trans (untouched_push _ _).workEnds
  next => exact (untouched_logEvent s _).workEnds.trans (untouched_performedFrom _ _ _).workEnds
  next => exact .refl s
  next => exact .refl s
  next => exact .refl s

theorem workEnds_failBus (s : State) (n : HearthId) (ev : Bool) : WorkEnds s (s.failBus n ev) := by
  unfold State.failBus
  dsimp only
  refine WorkEnds.trans ?_ (untouched_freeTags _).workEnds
  refine WorkEnds.trans ?_ (WorkEnds.forList _ _ (fun (p : Piece × List (Nat × Byte)) s => workEnds_failPiece s p.1 ev p.2) _)
  refine WorkEnds.trans ?_ (workEnds_modHearth_keeps _ n _ fun _ => ⟨rfl, rfl⟩)
  refine WorkEnds.trans ?_ (workEnds_removePieces _ _)
  exact WorkEnds.forList _ _ (fun (r : HostReq) s => workEnds_endReq s r.id ev none) s

/-- R199, R219: a cycle that ends is gone; TLPs that work for it are withdrawn. -/
theorem workEnds_dropUnsent (s : State) (n : HearthId) (serial : Nat) : WorkEnds s (s.dropUnsent n serial) := by
  have u := WorkEnds.refl s
  refine ⟨u.reqs, fun x hx => u.old x (List.mem_of_mem_filter hx), fun x hx ho => ?_, rfl, rfl, u.cyc, u.lock⟩
  refine List.mem_map_of_mem (List.mem_filter.mpr ⟨hx, ?_⟩)
  simp [ho]

theorem workEnds_endCycle (s : State) (n : HearthId) : WorkEnds s (s.endCycle n) := by
  unfold State.endCycle
  split
  · exact .refl s
  next c _ =>
    refine WorkEnds.trans ?_ (workEnds_modHearth _ n _ (fun _ => rfl) id)
    split
    · refine WorkEnds.trans ?_ (workEnds_endPosted _ n c.serial)
      refine WorkEnds.trans ?_ (untouched_freeTags _).workEnds
      refine WorkEnds.trans ?_ (untouched_dropStored _ _).workEnds
      exact (workEnds_removePieces s _).trans (workEnds_dropUnsent _ n c.serial)
    · exact .refl s

theorem endCycle_cyc (s : State) (n : HearthId) : ((s.endCycle n).hearth n).cyc = none := by
  unfold State.endCycle
  split
  · assumption
  · rw [hearth_modHearth_self]

theorem workEnds_endHearthWork (s : State) (n : HearthId) : WorkEnds s (s.endHearthWork n) :=
  ((workEnds_endCycle s n).trans (workEnds_failBus _ n false)).trans (workEnds_endLock _ n false)

/-- R318: a hearth whose work has ended has no open cycle and holds no lock. -/
theorem endHearthWork_idle (s : State) (n : HearthId) :
    ((s.endHearthWork n).hearth n).cyc = none ∧ ((s.endHearthWork n).hearth n).lock = none :=
  ⟨((workEnds_failBus _ n false).trans (workEnds_endLock _ n false)).cyc n (endCycle_cyc s n), endLock_lock _ n false⟩

theorem workEnds_hearthReset (s : State) (n : HearthId) : WorkEnds s (s.hearthReset n) := by
  unfold State.hearthReset
  refine WorkEnds.trans ?_ (workEnds_modHearth_keeps _ n _ fun _ => ⟨rfl, rfl⟩)
  exact (workEnds_endHearthWork s n).trans (workEnds_failBlocked _ n)

/-! ### Kind-0 work, and waiting requests -/

theorem workEnds_discardPosted (os : List Origin) (s : State) :
    WorkEnds s (forList os (fun o s => match o with
      | .posted n serial => s.endPosted n serial
      | .remotePosted q num => s.performedFrom q num
      | _ => s) s) := by
  refine WorkEnds.forList os _ (fun o s => ?_) s
  split
  · exact workEnds_endPosted s _ _
  · exact (untouched_performedFrom s _ _).workEnds
  · exact .refl s

theorem workEnds_tryIssue (s : State) (id : Nat) : WorkEnds s (s.tryIssue id) := by
  have hissue : ∀ l, WorkEnds s (s.issueWith id l) := fun l => by
    refine WorkEnds.trans ?_ (untouched_presentPieces _ l).workEnds
    exact workEnds_modReq s id _ fun _ => ⟨rfl, rfl, rfl⟩
  unfold State.tryIssue
  split
  · exact .refl s
  dsimp only
  (repeat' split)
  · exact hissue _
  · exact workEnds_missReq s id
  · exact .refl s
  · exact hissue _
  · exact .refl s
  · exact .refl s

theorem workEnds_issueWaiting (s : State) : WorkEnds s s.issueWaiting :=
  WorkEnds.forList _ _ (fun id s => workEnds_tryIssue s id) s

end Sys2Proof.Machine
end

-- ==== Proofs of 00_scope: requests discarded and refused ====
section
/-! Host requests that a reset discards, and those of its very tick that it refuses (R317, R319): which are left, and what answers
the refused ones. -/

namespace Sys2Proof.Machine

open Sys2Proof

/-- What no step of a list changes, the list does not change. -/
theorem forList_eq {α β : Type} (π : State → β) (l : List α) (f : α → State → State) (h : ∀ x s, π (f x s) = π s)
    (s : State) : π (forList l f s) = π s := by
  induction l generalizing s with
  | nil => rfl
  | cons x l ih => exact (ih (f x s)).trans (h x s)

theorem now_of_standing {s t : State} (h : t.standing = s.standing) : t.now = s.now := congrArg (fun x : Standing => x.clk.tally) h

/-! ### Discarded requests -/

section RemovePieces

variable (s : State) (q : Piece → Bool)

theorem removePieces_reqs : (s.removePieces q).reqs = s.reqs := by
  unfold State.removePieces
  rfl

theorem removePieces_txq : (s.removePieces q).txq = s.txq := by
  unfold State.removePieces
  rfl

theorem removePieces_irq : (s.removePieces q).irq = s.irq := by
  unfold State.removePieces
  rfl

theorem removePieces_fns : (s.removePieces q).fns = s.fns := by
  unfold State.removePieces
  rfl

end RemovePieces

/-- What is left of the work of request `id` is dropped, its beats not yet granted with it. -/
def State.dropAllOf (s : State) (id : Nat) : State := (s.dropReqWork id).dropBeats id

section DropAllOf

variable (s : State) (id : Nat)

@[simp] theorem dropAllOf_reqs : (s.dropAllOf id).reqs = s.reqs := removePieces_reqs _ (·.origin = .host id)
@[simp] theorem dropAllOf_txq : (s.dropAllOf id).txq = s.txq := removePieces_txq _ (·.origin = .host id)
@[simp] theorem dropAllOf_fns : (s.dropAllOf id).fns = s.fns := removePieces_fns _ (·.origin = .host id)
@[simp] theorem dropAllOf_req (k : Nat) : (s.dropAllOf id).req k = s.req k := by
  rw [State.req, dropAllOf_reqs, State.req]

@[simp] theorem standing_dropAllOf : (s.dropAllOf id).standing = s.standing :=
  (standing_dropBeats _ id).trans (standing_dropReqWork s id)

theorem workEnds_dropAllOf : WorkEnds s (s.dropAllOf id) := (workEnds_dropReqWork s id).trans (untouched_dropBeats _ id).workEnds

end DropAllOf

theorem discardReqs_eq (s : State) (pick : HostReq → Bool) :
    s.discardReqs pick = forList ((s.reqs.filter pick).map (·.id)) (fun id s => (s.dropAllOf id).closeReq id) s := rfl

theorem workEnds_discardReqs (s : State) (pick : HostReq → Bool) : WorkEnds s (s.discardReqs pick) :=
  WorkEnds.forList _ _ (fun id s => (workEnds_dropAllOf s id).trans (workEnds_closeReq _ id)) s

@[simp] theorem discardReqs_txq (s : State) (pick : HostReq → Bool) : (s.discardReqs pick).txq = s.txq :=
  forList_eq State.txq _ _ (fun id s => (closeReq_txq _ id).trans (dropAllOf_txq s id)) s

@[simp] theorem discardReqs_fns (s : State) (pick : HostReq → Bool) : (s.discardReqs pick).fns = s.fns :=
  forList_eq State.fns _ _ (fun id s => (closeReq_fns _ id).trans (dropAllOf_fns s id)) s

/-- Requests whose numbers are listed are gone, and the others stand. -/
theorem mem_closeAll (ids : List Nat) (s : State) (r : HostReq) :
    r ∈ (forList ids (fun id s => (s.dropAllOf id).closeReq id) s).reqs ↔ r ∈ s.reqs ∧ r.id ∉ ids := by
  induction ids generalizing s with
  | nil => simp [forList]
  | cons id ids ih =>
    refine (ih ((s.dropAllOf id).closeReq id)).trans ?_
    rw [closeReq_reqs, dropAllOf_reqs, List.mem_filter, List.mem_cons, not_or, decide_eq_true_eq, and_assoc]

theorem mem_discardReqs (s : State) (pick : HostReq → Bool) (r : HostReq) :
    r ∈ (s.discardReqs pick).reqs ↔ r ∈ s.reqs ∧ ∀ q ∈ s.reqs, pick q = true → q.id ≠ r.id := by
  rw [discardReqs_eq, mem_closeAll]
  simp [List.mem_filter]

/-! ### Refused requests -/

@[simp] theorem sendCpl_reqs (s : State) (r : HostReq) (status : CplStatus) (bytes : List (Nat × Byte)) (off len : Nat) :
    (s.sendCpl r status bytes off len).reqs = s.reqs := by
  unfold State.sendCpl
  dsimp only
  split
  · exact (untouched_setStatus _ _ _).reqs
  · rfl

@[simp] theorem refuseReq_reqs (s : State) (r : HostReq) (status : CplStatus) (e : Option UncErr) :
    (s.refuseReq r status e).reqs = s.reqs := by
  have he : ∀ s1 : State, (if r.read then s1.sendCpl r status [] r.nextOff 0 else s1).reqs = s1.reqs := fun s1 => by
    split
    · exact sendCpl_reqs ..
    · rfl
  cases e with
  | none => exact he s
  | some e => exact (he _).trans (untouched_recordUnc s _ _ _ _).reqs

/-- R222: a refused request adds at most its completion to the queue of TLPs. -/
theorem refuseReq_txq (s : State) (r : HostReq) (status : CplStatus) (e : Option UncErr) :
    ∃ l, (s.refuseReq r status e).txq = s.txq ++ l ∧ (r.read = true → ∃ u ∈ l, u.kind = (if status = .sc then .cplD else .cpl) ∧
      u.origin = .none ∧ u.status = status ∧ u.tag = r.tag ∧ u.fn = r.fn) := by
  have he : ∀ s1 : State, s1.txq = s.txq → ∃ l, (if r.read then s1.sendCpl r status [] r.nextOff 0 else s1).txq = s.txq ++ l ∧
      (r.read = true → ∃ u ∈ l, u.kind = (if status = .sc then .cplD else .cpl) ∧ u.origin = .none ∧ u.status = status ∧
        u.tag = r.tag ∧ u.fn = r.fn) := fun s1 h1 => by
    split
    · obtain ⟨u, hu, hspec⟩ := sendCpl_txq s1 r status [] r.nextOff 0
      exact ⟨[u], by rw [hu, h1], fun _ => ⟨u, List.mem_singleton.mpr rfl, hspec⟩⟩
    · next hr => exact ⟨[], by rw [h1, List.append_nil], fun h => absurd h hr⟩
  cases e with
  | none => exact he s rfl
  | some e => exact he _ (untouched_recordUnc s _ _ _ _).txq

/-- One step of `State.refuseReqs`: a request numbered `x.1`, received in tick `x.2`, is refused if that is the present tick. -/
def State.refuseOne (logged : Bool) (x : Nat × Tally) (s : State) : State :=
  if x.2 = s.now then
    match (s.dropAllOf x.1).req x.1 with
    | some r => ((s.dropAllOf x.1).refuseReq r .ur (if logged then some .ur else none)).closeReq x.1
    | none => s.dropAllOf x.1
  else s

theorem refuseReqs_eq (s : State) (pick : HostReq → Bool) (logged : Bool) :
    s.refuseReqs pick logged = forList ((s.reqs.filter pick).map fun r => (r.id, r.receipt)) (State.refuseOne logged) s := rfl

section RefuseOne

variable (logged : Bool) (x : Nat × Tally) (s : State)

theorem workEnds_refuseOne : WorkEnds s (s.refuseOne logged x) := by
  unfold State.refuseOne
  split
  · split
    · exact ((workEnds_dropAllOf s _).trans (workEnds_refuseReq _ _ _ _)).trans (workEnds_closeReq _ _)
    · exact workEnds_dropAllOf s _
  · exact .refl s

theorem standing_refuseOne : (s.refuseOne logged x).standing = s.standing := by
  unfold State.refuseOne
  (repeat' split) <;> simp

/-- A request refused is gone, and the others stand. -/
theorem mem_refuseOne (r : HostReq) :
    r ∈ (s.refuseOne logged x).reqs ↔ r ∈ s.reqs ∧ (x.2 = s.now → r.id ≠ x.1) := by
  unfold State.refuseOne
  split
  next hx =>
    split
    · simp [hx, List.mem_filter]
    next hnone =>
      rw [dropAllOf_req] at hnone
      rw [dropAllOf_reqs]
      have : ∀ q ∈ s.reqs, q.id ≠ x.1 := by simpa [State.req] using hnone
      exact ⟨fun h => ⟨h, fun _ => this r h⟩, fun h => h.1⟩
  next hx => simp [hx]

/-- TLPs are added behind those already there. -/
theorem refuseOne_txq : s.txq <+: (s.refuseOne logged x).txq := by
  unfold State.refuseOne
  split
  · split
    next r _ =>
      obtain ⟨l, hl, -⟩ := refuseReq_txq (s.dropAllOf x.1) r .ur (if logged then some .ur else none)
      exact ⟨l, by rw [closeReq_txq, hl, dropAllOf_txq]⟩
    · rw [dropAllOf_txq]
  · exact List.prefix_rfl

/-- R317, R319: a read of this very tick is answered with UR. -/
theorem refuseOne_answers {r : HostReq} (hx : x = (r.id, s.now)) (hr : s.req r.id = some r) (hread : r.read = true) :
    ∃ u ∈ (s.refuseOne logged x).txq, u.kind = .cpl ∧ u.origin = .none ∧ u.status = .ur ∧ u.tag = r.tag ∧ u.fn = r.fn := by
  subst hx
  obtain ⟨l, hl, hu⟩ := refuseReq_txq (s.dropAllOf r.id) r .ur (if logged then some .ur else none)
  obtain ⟨u, hmem, hspec⟩ := hu hread
  have hr' : (s.dropAllOf r.id).req r.id = some r := (dropAllOf_req s r.id r.id).trans hr
  refine ⟨u, ?_, hspec⟩
  simp only [State.refuseOne, if_true, hr', closeReq_txq, hl]
  exact List.mem_append_right _ hmem

/-- Refused without a record, a request changes no function. -/
theorem refuseOne_fns : (s.refuseOne false x).fns = s.fns := by
  unfold State.refuseOne
  split
  · split
    next r _ =>
      rw [closeReq_fns]
      show (if r.read then (s.dropAllOf x.1).sendCpl r .ur [] r.nextOff 0 else s.dropAllOf x.1).fns = s.fns
      split
      · exact dropAllOf_fns s x.1
      · exact dropAllOf_fns s x.1
    · exact dropAllOf_fns s x.1
  · rfl

end RefuseOne

theorem workEnds_refuseReqs (s : State) (pick : HostReq → Bool) (logged : Bool) : WorkEnds s (s.refuseReqs pick logged) :=
  WorkEnds.forList _ _ (workEnds_refuseOne logged) s

theorem refuseReqs_fns (s : State) (pick : HostReq → Bool) : (s.refuseReqs pick false).fns = s.fns :=
  forList_eq State.fns _ _ refuseOne_fns s

theorem refuseAll_txq (logged : Bool) (l : List (Nat × Tally)) (s : State) : s.txq <+: (forList l (State.refuseOne logged) s).txq := by
  induction l generalizing s with
  | nil => exact List.prefix_rfl
  | cons x l ih => exact (refuseOne_txq logged x s).trans (ih _)

/-- A request that `refuseReqs` leaves is not one of this tick that it picks. -/
theorem mem_refuseAll (logged : Bool) (l : List (Nat × Tally)) (s : State) (r : HostReq) :
    r ∈ (forList l (State.refuseOne logged) s).reqs ↔ r ∈ s.reqs ∧ (r.id, s.now) ∉ l := by
  induction l generalizing s with
  | nil => simp [forList]
  | cons x l ih =>
    refine (ih (s.refuseOne logged x)).trans ?_
    rw [mem_refuseOne, now_of_standing (standing_refuseOne logged x s), List.mem_cons, not_or, and_assoc]
    have : (x.2 = s.now → r.id ≠ x.1) ↔ (r.id, s.now) ≠ x := by
      rw [Ne, Ne, Prod.ext_iff, not_and]
      exact ⟨fun h hid hnow => h hnow.symm hid, fun h hnow hid => h hid hnow.symm⟩
    rw [this]

/-- A read of this very tick among those picked is answered, the numbers of the requests being told apart. -/
theorem refuseAll_answers (logged : Bool) (l : List (Nat × Tally)) (s : State) {r : HostReq} (hr : r ∈ s.reqs)
    (huniq : ∀ q ∈ s.reqs, q.id = r.id → q = r) (hl : (r.id, s.now) ∈ l) (hread : r.read = true) :
    ∃ u ∈ (forList l (State.refuseOne logged) s).txq,
      u.kind = .cpl ∧ u.origin = .none ∧ u.status = .ur ∧ u.tag = r.tag ∧ u.fn = r.fn := by
  induction l generalizing s with
  | nil => exact absurd hl List.not_mem_nil
  | cons x l ih =>
    by_cases hx : x = (r.id, s.now)
    · have hreq : s.req r.id = some r := by
        cases h : s.req r.id with
        | none => simpa using List.find?_eq_none.mp h r hr
        | some q => rw [huniq q (List.mem_of_find?_eq_some h) (by simpa using List.find?_some h)]
      obtain ⟨u, hu, hspec⟩ := refuseOne_answers logged x s hx hreq hread
      exact ⟨u, (refuseAll_txq logged l _).subset hu, hspec⟩
    · have hl' : (r.id, s.now) ∈ l := (List.mem_cons.mp hl).resolve_left (Ne.symm hx)
      have hnow := now_of_standing (standing_refuseOne logged x s)
      refine ih (s.refuseOne logged x) ?_ (fun q hq => huniq q ((mem_refuseOne logged x s q).mp hq).1) (hnow ▸ hl')
      exact (mem_refuseOne logged x s r).mpr ⟨hr, fun h2 hid => hx (Prod.ext hid.symm h2)⟩

end Sys2Proof.Machine
end

-- ==== Proofs of 00_scope: function level resets ====
section
/-! The FLR of a hearth function and of function 0 (R315, R317 to R320): one state for each stage of it, and what the stage says
of requests, TLPs, interrupts, functions and hearths. -/

namespace Sys2Proof.Machine

open Sys2Proof

/-! ### Reading the standing part -/

section Standing

variable {s t : State}

theorem fn_steady_eq {v w : Vector FnCfg 65} (h : steadyFns v = steadyFns w) (f : FnId) : (vget v f).steady = (vget w f).steady := by
  unfold steadyFns at h
  simpa using congrArg (vget · f) h

theorem hearth_steady_eq {v w : Vector Hearth 16} (h : steadyHearths v = steadyHearths w) (n : HearthId) :
    (vget v n).steady = (vget w n).steady := by
  unfold steadyHearths at h
  simpa using congrArg (vget · n) h

theorem hearth_steady_of_standing (h : t.standing = s.standing) (n : HearthId) : (t.hearth n).steady = (s.hearth n).steady :=
  hearth_steady_eq (congrArg Standing.hearths h) n

/-- Where a state differs from another in its functions and hearths only, it is itself that names the difference. -/
theorem standing_own {x : Standing} {a : Vector FnCfg 65} {b : Vector Hearth 16} (h : t.standing = { x with fns := a, hearths := b }) :
    t.standing = { x with fns := steadyFns t.fns, hearths := steadyHearths t.hearths } := by
  have hf : steadyFns t.fns = a := congrArg Standing.fns h
  have hh : steadyHearths t.hearths = b := congrArg Standing.hearths h
  rw [hf, hh, h]

theorem standing_own_fns {x : Standing} {a : Vector FnCfg 65} (h : t.standing = { x with fns := a }) :
    t.standing = { x with fns := steadyFns t.fns } := by
  have hf : steadyFns t.fns = a := congrArg Standing.fns h
  rw [hf, h]

end Standing

/-! ### Requests that a reset ends -/

/-- R317, R319: the requests that `pick` picks are gone; those received in this very tick are answered UR. -/
def State.endsReqs (s : State) (pick : HostReq → Bool) (logged : Bool) : State :=
  (s.discardReqs fun r => pick r && r.receipt != s.now).refuseReqs pick logged

section EndsReqs

variable (s : State) (pick : HostReq → Bool) (logged : Bool)

theorem workEnds_endsReqs : WorkEnds s (s.endsReqs pick logged) := (workEnds_discardReqs s _).trans (workEnds_refuseReqs _ pick logged)

@[simp] theorem standing_endsReqs : (s.endsReqs pick logged).standing = s.standing :=
  (standing_refuseReqs _ pick logged).trans (standing_discardReqs s _)

theorem now_discardReqs : (s.discardReqs pick).now = s.now := now_of_standing (standing_discardReqs s pick)

/-- TLPs are added behind those already there. -/
theorem endsReqs_txq : s.txq <+: (s.endsReqs pick logged).txq := by
  rw [← discardReqs_txq s fun r => pick r && r.receipt != s.now]
  exact refuseAll_txq logged _ _

theorem endsReqs_fns : (s.endsReqs pick false).fns = s.fns := (refuseReqs_fns _ pick).trans (discardReqs_fns s _)

/-- No request that `pick` picks is left. -/
theorem endsReqs_reqs {r : HostReq} (hr : r ∈ (s.endsReqs pick logged).reqs) : pick r = false := by
  rw [State.endsReqs, refuseReqs_eq, mem_refuseAll, now_discardReqs] at hr
  obtain ⟨hd, hfresh⟩ := hr
  obtain ⟨hs, hold⟩ := (mem_discardReqs s _ r).mp hd
  by_contra hp
  rw [Bool.not_eq_false] at hp
  by_cases hnow : r.receipt = s.now
  · exact hfresh (List.mem_map.mpr ⟨r, List.mem_filter.mpr ⟨hd, hp⟩, by rw [hnow]⟩)
  · exact hold r hs (by simp [hp, hnow]) rfl

/-- A read of this very tick among those that `pick` picks is answered with UR. -/
theorem endsReqs_answers {r : HostReq} (hids : (s.reqs.map (·.id)).Nodup) (hr : r ∈ s.reqs) (hp : pick r = true)
    (hnow : r.receipt = s.now) (hread : r.read = true) :
    ∃ u ∈ (s.endsReqs pick logged).txq, u.kind = .cpl ∧ u.origin = .none ∧ u.status = .ur ∧ u.tag = r.tag ∧ u.fn = r.fn := by
  have huniq : ∀ q ∈ s.reqs, q.id = r.id → q = r := fun q hq h => List.inj_on_of_nodup_map hids hq hr h
  have hd : r ∈ (s.discardReqs fun r => pick r && r.receipt != s.now).reqs := by
    refine (mem_discardReqs s _ r).mpr ⟨hr, fun q hq hpick hid => ?_⟩
    rw [huniq q hq hid] at hpick
    simp [hnow] at hpick
  refine refuseAll_answers logged _ _ hd (fun q hq => huniq q ((mem_discardReqs s _ q).mp hq).1) ?_ hread
  rw [now_discardReqs]
  exact List.mem_map.mpr ⟨r, List.mem_filter.mpr ⟨hd, hp⟩, by rw [hnow]⟩

end EndsReqs

/-! ### Unsent work that a reset discards -/

section DiscardKind0

variable (s : State) (h : Fin 64)

/-- R317: the kind-0 work of chimney hearth `h` leaves the items, the queues and the TLPs to be sent. -/
def State.cutsKind0 (s : State) (h : Fin 64) : State :=
  { s.removePieces (Piece.kind0Of h) with txq := (s.removePieces (Piece.kind0Of h)).txq.filter fun u => !TxTlp.kind0Of h u }

theorem cutsKind0_txq : (s.cutsKind0 h).txq = s.txq.filter fun u => !TxTlp.kind0Of h u := by
  rw [← removePieces_txq s (Piece.kind0Of h)]
  rfl

theorem workEnds_discardKind0 : WorkEnds (s.cutsKind0 h) (s.discardKind0 h) := workEnds_discardPosted _ _

theorem cutsKind0_reqs : (s.cutsKind0 h).reqs = s.reqs := removePieces_reqs s (Piece.kind0Of h)

theorem discardPosted_reqs (os : List Origin) (s : State) :
    (forList os (fun o s => match o with
      | .posted n serial => s.endPosted n serial
      | .remotePosted q num => s.performedFrom q num
      | _ => s) s).reqs = s.reqs := by
  refine forList_eq State.reqs os _ (fun o s => ?_) s
  split
  · rfl
  · exact (untouched_performedFrom s _ _).reqs
  · rfl

theorem discardKind0_reqs : (s.discardKind0 h).reqs = s.reqs := (discardPosted_reqs _ (s.cutsKind0 h)).trans (cutsKind0_reqs s h)

/-- A completion is no kind-0 work. -/
theorem kind0Of_of_completes {u : TxTlp} (hu : u.completes) : TxTlp.kind0Of h u = false := by
  obtain ⟨hk | hk, -⟩ := hu <;> simp [TxTlp.kind0Of, hk]

theorem kind0Of_congr {u v : TxTlp} (huv : u.timeless = v.timeless) : TxTlp.kind0Of h u = TxTlp.kind0Of h v := by
  have hh : u.hearth = v.hearth := congrArg (·.hearth) huv
  rw [TxTlp.kind0Of, hh, TxTlp.kind_eq_of_timeless huv, TxTlp.kind0Of]

/-- Where work only ends, no unsent kind-0 work comes about. -/
theorem WorkEnds.noKind0 {s t : State} (hw : WorkEnds s t) (hs : ∀ u ∈ s.txq, TxTlp.kind0Of h u = false) :
    ∀ u ∈ t.txq, TxTlp.kind0Of h u = false := fun u hu => by
  obtain hc | hm := hw.old u hu
  · exact kind0Of_of_completes h hc
  · obtain ⟨v, hv, hvu⟩ := List.mem_map.mp hm
    rw [← kind0Of_congr h hvu]
    exact hs v hv

theorem discardKind0_noKind0 : ∀ u ∈ (s.discardKind0 h).txq, TxTlp.kind0Of h u = false := by
  refine (workEnds_discardKind0 s h).noKind0 h fun u hu => ?_
  rw [cutsKind0_txq, List.mem_filter] at hu
  simpa using hu.2

end DiscardKind0

/-! ### Interrupts that a reset clears -/

section Interrupts

variable (s : State) (h : Fin 64) (f : FnId) (intd : Bool) (power : PowerState)

theorem clearSlotEvent_cases : s.clearSlotEvent h = s ∧ vget s.irq.slotEvents h = none ∨
    ((s.clearSlotEvent h).reqs = s.reqs ∧ (s.clearSlotEvent h).txq = s.txq ∧
      (s.clearSlotEvent h).irq.slotEvents = vset s.irq.slotEvents h none) := by
  unfold State.clearSlotEvent
  split
  next hnone => exact .inl ⟨rfl, Option.isNone_iff_eq_none.mp hnone⟩
  next => right; dsimp only; split <;> exact ⟨rfl, rfl, rfl⟩

@[simp] theorem clearSlotEvent_reqs : (s.clearSlotEvent h).reqs = s.reqs := by
  obtain ⟨hs, -⟩ | ⟨hr, -, -⟩ := clearSlotEvent_cases s h
  · rw [hs]
  · exact hr

@[simp] theorem clearSlotEvent_txq : (s.clearSlotEvent h).txq = s.txq := by
  obtain ⟨hs, -⟩ | ⟨-, ht, -⟩ := clearSlotEvent_cases s h
  · rw [hs]
  · exact ht

theorem clearSlotEvent_slotEvents : vget (s.clearSlotEvent h).irq.slotEvents h = none := by
  obtain ⟨hs, hnone⟩ | ⟨-, -, he⟩ := clearSlotEvent_cases s h
  · rw [hs, hnone]
  · rw [he, vget_vset_self]

/-- The INTA wire of `f` counts as deasserted; nobody is told. -/
def State.wireLow (s : State) (f : FnId) : State := { s with irq := { s.irq with wires := vset s.irq.wires f false } }

theorem untouched_dropWire : Untouched (s.wireLow f) (s.dropWire f intd power) := by
  unfold State.dropWire
  dsimp only
  split
  · exact untouched_presentIntx _ f false
  · exact .refl _

@[simp] theorem dropWire_reqs : (s.dropWire f intd power).reqs = s.reqs := (untouched_dropWire s f intd power).reqs
@[simp] theorem dropWire_txq : (s.dropWire f intd power).txq = s.txq := (untouched_dropWire s f intd power).txq
theorem dropWire_wires : (s.dropWire f intd power).irq.wires = vset s.irq.wires f false :=
  congrArg Irq.wires (untouched_dropWire s f intd power).irq

theorem dropWire_slotEvents : (s.dropWire f intd power).irq.slotEvents = s.irq.slotEvents := by
  rw [(untouched_dropWire s f intd power).irq]
  rfl

end Interrupts

end Sys2Proof.Machine
end

-- ==== Proofs of 00_scope: the FLR of a hearth function ====
section
/-! The FLR of a hearth function in its tick (R317, R318, R320), stage by stage: its function is reset, its requests and its
unsent work end, its interrupts are clear, its hearth is reset. -/

namespace Sys2Proof.Machine

open Sys2Proof

/-! ### A function under FLR -/

/-- R315, R317: function `f` takes its reset values, its FLR running from this tick. -/
def State.flrFn (s : State) (f : FnId) : State := s.modFn f fun c => { c.functionReset with flr := some s.now, flrBar := c.bar }

section FlrFn

variable (s : State) (f : FnId)

theorem flrFn_standing : (s.flrFn f).standing = { s.standing with fns := steadyFns (s.flrFn f).fns } := rfl
theorem flrFn_fns : (s.flrFn f).fns = vset s.fns f { (s.fn f).functionReset with flr := some s.now, flrBar := (s.fn f).bar } := rfl

theorem flrFn_fn_self : (s.flrFn f).fn f = { (s.fn f).functionReset with flr := some s.now, flrBar := (s.fn f).bar } :=
  vget_vset_self _ _ _

theorem flrFn_fn_ne {g : FnId} (hg : g ≠ f) : (s.flrFn f).fn g = s.fn g := vget_vset_ne _ _ _ _ hg

end FlrFn

/-! ### A hearth under reset -/

/-- What of a hearth its work leaves alone. -/
theorem Hearth.lasting_of_steady {x y : Hearth} (h : x.steady = y.steady) : x.resetFrom = y.resetFrom ∧
    x.bus.breqFrom = y.bus.breqFrom ∧ x.bus.breqLow = y.bus.breqLow ∧ x.slot = y.slot ∧ x.irqLow = y.irqLow :=
  ⟨congrArg (·.resetFrom) h, congrArg (·.bus.breqFrom) h, congrArg (·.bus.breqLow) h, congrArg (·.slot) h, congrArg (·.irqLow) h⟩

section HearthReset

variable (s : State) (n : HearthId)

theorem modHearth_standing (f : Hearth → Hearth) :
    (s.modHearth n f).standing = { s.standing with hearths := steadyHearths (s.modHearth n f).hearths } := rfl

theorem hearthReset_standing : (s.hearthReset n).standing = { s.standing with hearths := steadyHearths (s.hearthReset n).hearths } := by
  unfold State.hearthReset
  rw [modHearth_standing, standing_failBlocked, standing_endHearthWork]

/-- R318: but for the hearth itself, no hearth changes but in its work. -/
theorem hearthReset_steady_ne {m : HearthId} (hm : m ≠ n) : ((s.hearthReset n).hearth m).steady = (s.hearth m).steady := by
  unfold State.hearthReset
  rw [hearth_modHearth_ne _ _ _ _ hm]
  exact hearth_steady_of_standing ((standing_failBlocked _ n).trans (standing_endHearthWork s n)) m

/-- R318: HnRSTO_N falls, the bus lines are let go, and slot state and inputs stand. -/
theorem hearthReset_self : ((s.hearthReset n).hearth n).resetFrom = some s.now ∧
    ((s.hearthReset n).hearth n).bus.breqFrom = some (tickPlus s.now 11000) ∧ ((s.hearthReset n).hearth n).bus.breqLow = false ∧
    ((s.hearthReset n).hearth n).slot = (s.hearth n).slot ∧ ((s.hearthReset n).hearth n).irqLow = (s.hearth n).irqLow := by
  have hsteady := hearth_steady_of_standing ((standing_failBlocked _ n).trans (standing_endHearthWork s n)) n
  obtain ⟨-, -, -, hslot, hirq⟩ := Hearth.lasting_of_steady hsteady
  unfold State.hearthReset
  rw [hearth_modHearth_self]
  generalize ((s.endHearthWork n).failBlocked n).hearth n = z at hslot hirq ⊢
  exact ⟨rfl, rfl, rfl, hslot, hirq⟩

theorem hearthReset_idle : ((s.hearthReset n).hearth n).cyc = none ∧ ((s.hearthReset n).hearth n).lock = none := by
  obtain ⟨hcyc, hlock⟩ := endHearthWork_idle s n
  have hw : WorkEnds (s.endHearthWork n) (s.hearthReset n) := by
    unfold State.hearthReset
    exact (workEnds_failBlocked _ n).trans (workEnds_modHearth_keeps _ n _ fun _ => ⟨rfl, rfl⟩)
  exact ⟨hw.cyc n hcyc, hw.lock n hlock⟩

end HearthReset

/-! ### The stages -/

/-- R315, R317: the function of hearth `h` has its reset values, and its unsent kind-0 work is gone. -/
def State.flrFunction (s : State) (h : Fin 64) : State :=
  (s.flrFn (fnOfChimney h)).discardKind0 h

/-- R317: its requests are gone. -/
def State.flrEnds (s : State) (h : Fin 64) : State :=
  (s.flrFunction h).endsReqs (fun r => !r.stone && r.fn = fnOfChimney h) (s.drainsFor (fnOfChimney h))

/-- R317: its wire and its slot event count no more. -/
def State.flrClears (s : State) (h : Fin 64) : State :=
  ((s.flrEnds h).clearSlotEvent h).dropWire (fnOfChimney h) (s.fn (fnOfChimney h)).intd (s.fn (fnOfChimney h)).power

/-- R318, R322: its far locks end; its hearth is reset, or the hearth's bridge hears of the FLR. -/
def State.flrBus (s : State) (h : Fin 64) : State :=
  if posOf h = s.pos then ((s.flrClears h).endFarLocks h).hearthReset (hearthOf h) else ((s.flrClears h).endFarLocks h).sendFunc h true

theorem standing_flrFunction (s : State) (h : Fin 64) : (s.flrFunction h).standing = (s.flrFn (fnOfChimney h)).standing :=
  standing_discardKind0 _ h

theorem now_flrFunction (s : State) (h : Fin 64) : (s.flrFunction h).now = s.now :=
  now_of_standing (s := s.flrFn (fnOfChimney h)) (standing_flrFunction s h)

theorem flrHearth_eq (s : State) (h : Fin 64) : s.flrHearth h = (s.flrBus h).landWaiting.issueWaiting.woken := by
  have hnow := now_flrFunction s h
  unfold State.flrHearth State.flrBus State.flrClears State.flrEnds State.endsReqs
  rw [hnow]
  rfl

section Stages

variable (s : State) (h : Fin 64)

theorem standing_flrClears : ((s.flrClears h).endFarLocks h).standing = (s.flrFn (fnOfChimney h)).standing := by
  rw [standing_endFarLocks, State.flrClears, standing_dropWire, standing_clearSlotEvent, State.flrEnds, standing_endsReqs,
    standing_flrFunction]

theorem standing_flrHearth : (s.flrHearth h).standing = (s.flrBus h).standing := by
  rw [flrHearth_eq, standing_woken, standing_issueWaiting, standing_landWaiting]

theorem workEnds_flrBus : WorkEnds (s.flrBus h) (s.flrHearth h) := by
  rw [flrHearth_eq]
  exact ((untouched_landWaiting _).workEnds.trans (workEnds_issueWaiting _)).trans (untouched_woken _).workEnds

theorem workEnds_flrClears : WorkEnds (s.flrClears h) (s.flrHearth h) := by
  refine WorkEnds.trans ?_ (workEnds_flrBus s h)
  unfold State.flrBus
  split
  · exact (workEnds_endFarLocks _ h).trans (workEnds_hearthReset _ _)
  · exact (workEnds_endFarLocks _ h).trans (untouched_sendFunc _ h true).workEnds

/-! ### What each stage says -/

theorem flrClears_reqs : (s.flrClears h).reqs = (s.flrEnds h).reqs := (dropWire_reqs _ _ _ _).trans (clearSlotEvent_reqs _ h)
theorem flrClears_txq : (s.flrClears h).txq = (s.flrEnds h).txq := (dropWire_txq _ _ _ _).trans (clearSlotEvent_txq _ h)

/-- R317: the function has no request left. -/
theorem flrHearth_reqs {r : HostReq} (hr : r ∈ (s.flrHearth h).reqs) : r.stone = true ∨ r.fn ≠ fnOfChimney h := by
  obtain ⟨q, hq, -, hfn, hstone⟩ := (workEnds_flrClears s h).reqs r hr
  rw [flrClears_reqs] at hq
  have hpick := endsReqs_reqs _ _ _ hq
  rw [← hfn, ← hstone]
  by_cases hf : q.fn = fnOfChimney h
  · exact .inl (by simpa [hf] using hpick)
  · exact .inr hf

/-- R317: no unsent kind-0 work of the function is left. -/
theorem flrHearth_noKind0 : ∀ u ∈ (s.flrHearth h).txq, TxTlp.kind0Of h u = false := by
  refine (workEnds_flrClears s h).noKind0 h ?_
  rw [flrClears_txq]
  exact (workEnds_endsReqs _ _ _).noKind0 h (discardKind0_noKind0 _ h)

/-- R317: a read of the function received in this very tick is answered with UR. -/
theorem flrHearth_answers {r : HostReq} (hr : r ∈ s.reqs) (hids : (s.reqs.map (·.id)).Nodup) (hstone : r.stone = false)
    (hfn : r.fn = fnOfChimney h) (hnow : r.receipt = s.now) (hread : r.read = true) :
    ∃ u ∈ (s.flrHearth h).txq, u.kind = .cpl ∧ u.status = .ur ∧ u.tag = r.tag ∧ u.fn = r.fn := by
  have hreqs : (s.flrFunction h).reqs = s.reqs := discardKind0_reqs _ h
  obtain ⟨u, hu, hkind, horigin, hstatus, htag, hufn⟩ := endsReqs_answers (s.flrFunction h)
    (fun r => !r.stone && r.fn = fnOfChimney h) (s.drainsFor (fnOfChimney h)) (by rwa [hreqs]) (by rwa [hreqs])
    (by simp [hstone, hfn]) (by rwa [now_flrFunction]) hread
  have hu' : u ∈ (s.flrClears h).txq := by rwa [flrClears_txq]
  obtain ⟨v, hv, hvu⟩ := List.mem_map.mp ((workEnds_flrClears s h).kept u hu' horigin)
  exact ⟨v, hv, (TxTlp.kind_eq_of_timeless hvu).trans hkind, (congrArg (·.status) hvu : v.status = u.status).trans hstatus,
    (congrArg (·.tag) hvu : v.tag = u.tag).trans htag, (congrArg (·.fn) hvu : v.fn = u.fn).trans hufn⟩

/-- R317: its wire counts as deasserted. -/
theorem flrHearth_wire : vget (s.flrHearth h).irq.wires (fnOfChimney h) = false := by
  rw [(workEnds_flrClears s h).irq, State.flrClears, dropWire_wires, vget_vset_self]

theorem flrHearth_slotEvent : vget (s.flrHearth h).irq.slotEvents h = none := by
  rw [(workEnds_flrClears s h).irq, State.flrClears, dropWire_slotEvents]
  exact clearSlotEvent_slotEvents (s.flrEnds h) h

/-! ### Functions and hearths -/

theorem flrBus_standing : (s.flrBus h).standing =
    { s.standing with fns := steadyFns (s.flrFn (fnOfChimney h)).fns, hearths := steadyHearths (s.flrBus h).hearths } := by
  unfold State.flrBus
  split
  · rw [hearthReset_standing, standing_flrClears, flrFn_standing]
  · have hstand := (standing_sendFunc ((s.flrClears h).endFarLocks h) h true).trans (standing_flrClears s h)
    have hh : steadyHearths (((s.flrClears h).endFarLocks h).sendFunc h true).hearths = steadyHearths s.hearths :=
      congrArg Standing.hearths hstand
    rw [hh, hstand, flrFn_standing]
    rfl

theorem flrHearth_standing : (s.flrHearth h).standing =
    { s.standing with fns := steadyFns (s.flrHearth h).fns, hearths := steadyHearths (s.flrHearth h).hearths } :=
  standing_own ((standing_flrHearth s h).trans (flrBus_standing s h))

theorem flrHearth_fn_steady (g : FnId) : ((s.flrHearth h).fn g).steady = ((s.flrFn (fnOfChimney h)).fn g).steady :=
  fn_steady_eq (congrArg Standing.fns ((standing_flrHearth s h).trans (flrBus_standing s h))) g

theorem flrHearth_hearth_steady (m : HearthId) : ((s.flrHearth h).hearth m).steady = ((s.flrBus h).hearth m).steady :=
  hearth_steady_of_standing (standing_flrHearth s h) m

theorem flrClears_hearth_steady (m : HearthId) : (((s.flrClears h).endFarLocks h).hearth m).steady = (s.hearth m).steady :=
  hearth_steady_of_standing (s := s.flrFn (fnOfChimney h)) (standing_flrClears s h) m

/-- R318: a hearth of another bridge, and any other hearth, stands. -/
theorem flrHearth_other {m : HearthId} (hm : m ≠ hearthOf h ∨ posOf h ≠ s.pos) :
    ((s.flrHearth h).hearth m).steady = (s.hearth m).steady := by
  rw [flrHearth_hearth_steady, ← flrClears_hearth_steady s h m, State.flrBus]
  split
  next hpos => exact hearthReset_steady_ne _ _ (hm.resolve_right (not_not_intro hpos))
  next => exact hearth_steady_of_standing (standing_sendFunc _ h true) m

/-- R318: a hearth of this bridge is reset. -/
theorem flrHearth_own (hpos : posOf h = s.pos) : ((s.flrHearth h).hearth (hearthOf h)).resetFrom = some s.now ∧
    ((s.flrHearth h).hearth (hearthOf h)).bus.breqFrom = some (tickPlus s.now 11000) ∧
    ((s.flrHearth h).hearth (hearthOf h)).bus.breqLow = false ∧
    ((s.flrHearth h).hearth (hearthOf h)).slot = (s.hearth (hearthOf h)).slot ∧
    ((s.flrHearth h).hearth (hearthOf h)).cyc = none ∧ ((s.flrHearth h).hearth (hearthOf h)).lock = none ∧
    ((s.flrHearth h).hearth (hearthOf h)).irqLow = (s.hearth (hearthOf h)).irqLow := by
  have hbus : s.flrBus h = ((s.flrClears h).endFarLocks h).hearthReset (hearthOf h) := if_pos hpos
  have hend := flrHearth_hearth_steady s h (hearthOf h)
  have hw := workEnds_flrBus s h
  rw [hbus] at hend hw
  have hnow : ((s.flrClears h).endFarLocks h).now = s.now := now_of_standing (s := s.flrFn (fnOfChimney h)) (standing_flrClears s h)
  obtain ⟨hreset, hfrom, hlow, hslot, hirq⟩ := hearthReset_self ((s.flrClears h).endFarLocks h) (hearthOf h)
  obtain ⟨hcyc, hlock⟩ := hearthReset_idle ((s.flrClears h).endFarLocks h) (hearthOf h)
  obtain ⟨-, -, -, hslot0, hirq0⟩ := Hearth.lasting_of_steady (flrClears_hearth_steady s h (hearthOf h))
  obtain ⟨hreset1, hfrom1, hlow1, hslot1, hirq1⟩ := Hearth.lasting_of_steady hend
  rw [hnow] at hreset hfrom
  exact ⟨hreset1.trans hreset, hfrom1.trans hfrom, hlow1.trans hlow, (hslot1.trans hslot).trans hslot0, hw.cyc _ hcyc, hw.lock _ hlock,
    (hirq1.trans hirq).trans hirq0⟩

end Stages

end Sys2Proof.Machine
end

-- ==== Proofs of 00_scope: the FLR of function 0, and how an FLR ends ====
section
/-! The FLR of function 0 in its tick (R270, R319), the end of an FLR at its fixed tick (R317 to R319), and the obligation. -/

namespace Sys2Proof.Machine

open Sys2Proof

/-! ### The FLR of function 0 -/

section DropRecords

variable (s : State)

/-- R270: the records queued are gone. -/
theorem dropRecords_fns : s.dropRecords.fns = s.fns := removePieces_fns s fun p => p.origin = .sample
theorem dropRecords_reqs : s.dropRecords.reqs = s.reqs := removePieces_reqs s fun p => p.origin = .sample
theorem dropRecords_irq : s.dropRecords.irq = s.irq := removePieces_irq s fun p => p.origin = .sample

theorem dropRecords_txq : s.dropRecords.txq = s.txq.filter fun u => u.origin != .sample := by
  rw [← removePieces_txq s fun p => p.origin = .sample]
  rfl

theorem dropRecords_queue : s.dropRecords.sampler.queue = [] := rfl

/-- R270: records not sent count as skipped. -/
theorem dropRecords_skipped : s.dropRecords.sampler.skipped = s.sampler.skipped + s.sampler.queue.length +
    (s.txq.filter fun u => u.origin = .sample && !u.awaitsRecord).length := rfl

end DropRecords

section FlrGrate

variable (s : State)

/-- R319: function 0 is reset and the sample records not sent are gone. -/
def State.flrSamples (s : State) : State := (s.flrFn 0).dropRecords

theorem standing_flrSamples : s.flrSamples.standing = (s.flrFn 0).standing := standing_dropRecords _

theorem now_flrSamples : s.flrSamples.now = s.now := now_of_standing (s := s.flrFn 0) (standing_flrSamples s)

theorem flrGrate_eq : s.flrGrate = (s.flrSamples.endsReqs (fun r => r.stone) false).woken := by
  have hnow := now_flrSamples s
  unfold State.flrGrate State.endsReqs
  rw [hnow]
  rfl

theorem workEnds_flrGrate : WorkEnds s.flrSamples s.flrGrate := by
  rw [flrGrate_eq]
  exact (workEnds_endsReqs _ _ _).trans (untouched_woken _).workEnds

theorem flrGrate_standing : s.flrGrate.standing = (s.flrFn 0).standing := by
  rw [flrGrate_eq, standing_woken, standing_endsReqs, standing_flrSamples]

theorem flrGrate_fns : s.flrGrate.fns = (s.flrFn 0).fns := by
  rw [flrGrate_eq]
  exact (endsReqs_fns s.flrSamples _).trans (dropRecords_fns (s.flrFn 0))

/-- R319: no request to the hearthstone is left. -/
theorem flrGrate_reqs {r : HostReq} (hr : r ∈ s.flrGrate.reqs) : r.stone = false := by
  rw [flrGrate_eq] at hr
  exact endsReqs_reqs s.flrSamples (fun r => r.stone) false hr

/-- R319: a read of the hearthstone received in this very tick is answered with UR. -/
theorem flrGrate_answers {r : HostReq} (hr : r ∈ s.reqs) (hids : (s.reqs.map (·.id)).Nodup) (hstone : r.stone = true)
    (hnow : r.receipt = s.now) (hread : r.read = true) :
    ∃ u ∈ s.flrGrate.txq, u.kind = .cpl ∧ u.status = .ur ∧ u.tag = r.tag ∧ u.fn = r.fn := by
  have hreqs : s.flrSamples.reqs = s.reqs := dropRecords_reqs (s.flrFn 0)
  obtain ⟨u, hu, hkind, -, hspec⟩ := endsReqs_answers s.flrSamples (fun r => r.stone) false (by rwa [hreqs]) (by rwa [hreqs]) hstone
    (by rwa [now_flrSamples]) hread
  rw [flrGrate_eq]
  exact ⟨u, hu, hkind, hspec⟩

theorem flrSamples_txq : s.flrSamples.txq = s.txq.filter fun u => u.origin != .sample := dropRecords_txq (s.flrFn 0)

/-- R270: no record is left among the TLPs. -/
theorem flrGrate_noSample : ∀ u ∈ s.flrGrate.txq, u.origin ≠ .sample := fun u hu => by
  obtain ⟨-, hnone⟩ | hm := (workEnds_flrGrate s).old u hu
  · simp [hnone]
  · obtain ⟨v, hv, hvu⟩ := List.mem_map.mp hm
    rw [flrSamples_txq, List.mem_filter] at hv
    rw [← TxTlp.origin_eq_of_timeless hvu]
    simpa using hv.2

theorem flrGrate_kept {u : TxTlp} (hu : u ∈ s.txq) (ho : u.origin ≠ .sample) : u ∈ s.flrGrate.txq := by
  have hmem : u ∈ s.flrSamples.txq := by
    rw [flrSamples_txq, List.mem_filter]
    exact ⟨hu, by simpa using ho⟩
  rw [flrGrate_eq]
  exact (endsReqs_txq s.flrSamples (fun r => r.stone) false).subset hmem

theorem flrGrate_irq : s.flrGrate.irq = s.irq := (workEnds_flrGrate s).irq.trans (dropRecords_irq (s.flrFn 0))

theorem flrGrate_sampler : s.flrGrate.sampler.queue = [] ∧ s.flrGrate.sampler.skipped = s.sampler.skipped + s.sampler.queue.length +
    (s.txq.filter fun u => u.origin = .sample && !u.awaitsRecord).length := by
  rw [(workEnds_flrGrate s).sampler]
  exact ⟨dropRecords_queue (s.flrFn 0), dropRecords_skipped (s.flrFn 0)⟩

end FlrGrate

/-! ### How an FLR ends -/

section EndFlr

variable (s : State) (f : FnId)

/-- R317: the FLR of function `f` is over, and its wire counts again. -/
def State.flrOver (s : State) (f : FnId) : State :=
  { s.modFn f fun c => { c with flr := none } with
    irq := if s.intaCount f then { s.irq with wires := vset s.irq.wires f true } else s.irq }

theorem flrOver_wire (h : s.intaCount f = true) : vget (s.flrOver f).irq.wires f = true := by
  rw [State.flrOver, if_pos h]
  exact vget_vset_self _ _ _

theorem presentIntx_fns (up : Bool) : (s.presentIntx f up).fns = s.fns := by
  unfold State.presentIntx
  split <;> rfl

/-- R317: when an FLR ends the host may be told of the wire. -/
theorem endFlr_cases : s.endFlr f = s.flrOver f ∨ s.endFlr f = (s.flrOver f).presentIntx f true := by
  by_cases h : s.intaCount f = true
  · have hover : s.endFlr f = if ((s.flrOver f).fn f).intd ∨ ((s.flrOver f).fn f).power ≠ .d0 then s.flrOver f
        else (s.flrOver f).presentIntx f true := by
      rw [State.flrOver, if_pos h]
      exact if_pos h
    rw [hover]
    exact ite_eq_or_eq ..
  · left
    rw [State.flrOver, if_neg h]
    exact if_neg h

/-- R317: the FLR of function `f` ends. -/
def State.flrDone (s : State) (f : FnId) : State := (s.endFlr f).woken

theorem untouched_flrDone : Untouched (s.flrOver f) (s.flrDone f) := by
  unfold State.flrDone
  refine Untouched.trans ?_ (untouched_woken _)
  obtain h | h := endFlr_cases s f <;> rw [h]
  · exact .refl _
  · exact untouched_presentIntx _ f true

theorem flrDone_fns : (s.flrDone f).fns = vset s.fns f { s.fn f with flr := none } := by
  unfold State.flrDone
  rw [woken_fns]
  obtain h | h := endFlr_cases s f <;> rw [h]
  · rfl
  · exact presentIntx_fns _ f true

theorem flrDone_standing : (s.flrDone f).standing = { s.standing with fns := steadyFns (s.flrOver f).fns } := by
  rw [State.flrDone, standing_woken]
  obtain h | h := endFlr_cases s f <;> rw [h]
  · rfl
  · exact standing_presentIntx _ f true

theorem flrDone_clk : (s.flrDone f).clk = s.clk := congrArg Standing.clk (flrDone_standing s f)
theorem flrDone_reqs : (s.flrDone f).reqs = s.reqs := (untouched_flrDone s f).reqs
theorem flrDone_txq : (s.flrDone f).txq = s.txq := (untouched_flrDone s f).txq

theorem flrDone_wire (h : s.intaCount f = true) : vget (s.flrDone f).irq.wires f = true := by
  rw [(untouched_flrDone s f).irq]
  exact flrOver_wire s f h

end EndFlr

section Release

variable (s : State) (n : HearthId)

/-- R318: HnRSTO_N of hearth `n` rises. -/
def State.rstRises (s : State) (n : HearthId) : State := (s.modHearth n fun x => { x with resetFrom := none }).woken

theorem rstRises_self : (s.rstRises n).hearth n = { s.hearth n with resetFrom := none } := vget_vset_self _ _ _
theorem rstRises_ne {m : HearthId} (hm : m ≠ n) : (s.rstRises n).hearth m = s.hearth m := vget_vset_ne _ _ _ _ hm
theorem rstRises_clk : (s.rstRises n).clk = s.clk := rfl
theorem rstRises_reqs : (s.rstRises n).reqs = s.reqs := rfl
theorem rstRises_txq : (s.rstRises n).txq = s.txq := rfl
theorem rstRises_standing : (s.rstRises n).standing = { s.standing with hearths := steadyHearths (s.rstRises n).hearths } := rfl

/-- R319: the FLR of function 0 is over. -/
def State.flr0Over (s : State) : State := (s.modFn 0 fun c => { c with flr := none }).woken

theorem flr0Over_clk : s.flr0Over.clk = s.clk := rfl
theorem flr0Over_fns : s.flr0Over.fns = vset s.fns 0 { s.fn 0 with flr := none } := rfl
theorem flr0Over_reqs : s.flr0Over.reqs = s.reqs := rfl
theorem flr0Over_txq : s.flr0Over.txq = s.txq := rfl
theorem flr0Over_standing : s.flr0Over.standing = { s.standing with fns := steadyFns s.flr0Over.fns } := rfl

end Release

/-! ### The commands -/

section Commands

theorem exec_initiateFlr {h : Fin 64} {s : State} (hreach : s.cfgReaches (fnOfChimney h) = true) :
    exec (.initiateFlr h) s = .next (s.flrHearth h) := if_pos hreach

theorem exec_flrFunction0 {s : State} (hreach : s.cfgReaches 0 = true) : exec .flrFunction0 s = .next s.flrGrate := if_pos hreach

theorem exec_flrComplete {h : Fin 64} {from' : Tally} {s : State} (hflr : (s.fn (fnOfChimney h)).flr = some from')
    (hrun : s.running = true) :
    exec (.flrComplete h) s = .next ((s.advanceTo (tickPlus from' 10000)).flrDone (fnOfChimney h)) := by
  show execFlrComplete h s = _
  rw [execFlrComplete, hflr]
  exact if_pos hrun

theorem exec_hearthResetRelease {n : HearthId} {from' : Tally} {s : State} (hreset : (s.hearth n).resetFrom = some from')
    (hrun : s.running = true) : exec (.hearthResetRelease n) s =
      .next ((s.advanceTo (tickPlus from' 10000)).rstRises n) := by
  show execHearthResetRelease n s = _
  rw [execHearthResetRelease, hreset]
  exact if_pos hrun

theorem exec_flrFunction0Complete {from' : Tally} {s : State} (hflr : (s.fn 0).flr = some from') (hrun : s.running = true) :
    exec .flrFunction0Complete s = .next (s.advanceTo (tickPlus from' 1000)).flr0Over := by
  show execFlrFunction0Complete s = _
  rw [execFlrFunction0Complete, hflr]
  exact if_pos hrun

end Commands

/-! ### The statement -/

/-- Settles O34: the FLR of a hearth function is the stages of `flrHearth_eq`, in which work only ends (`WorkEnds`); that of function 0
is `flrGrate_eq`; the ends of both are read off their commands. -/
theorem functionResets : Obligations.FunctionResets := by
  unfold Obligations.FunctionResets
  refine ⟨⟨fun h s hreach => ?_, fun h from' s hflr hrun => ?_, fun n from' s hreset hrun => ?_⟩,
    fun s hreach => ?_, fun from' s hflr hrun => ?_, fun c => ⟨rfl, rfl, rfl, rfl, rfl, rfl, rfl, rfl, rfl⟩⟩
  · refine ⟨_, exec_initiateFlr hreach, ?_, fun g hg => ?_, fun r => flrHearth_reqs s h, flrHearth_noKind0 s h,
      fun r hr hids hstone hfn hnow hread => flrHearth_answers s h hr hids.2 hstone hfn hnow hread, flrHearth_wire s h,
      flrHearth_slotEvent s h, flrHearth_own s h, fun m => flrHearth_other s h, flrHearth_standing s h⟩
    · rw [flrHearth_fn_steady, flrFn_fn_self]
    · rw [flrHearth_fn_steady, flrFn_fn_ne _ _ hg]
  · refine ⟨_, exec_flrComplete hflr hrun, flrDone_clk _ _, (flrDone_fns _ _).trans ?_, fun hcount => flrDone_wire _ _ ?_,
      (flrDone_reqs _ _).trans (advanceTo_reqs s _), (flrDone_txq _ _).trans (advanceTo_txq s _),
      standing_own_fns (flrDone_standing _ _)⟩
    · rw [State.fn, advanceTo_fns, State.fn]
    · rwa [State.intaCount, advanceTo_irq]
  · refine ⟨_, exec_hearthResetRelease hreset hrun, rstRises_clk _ n, ?_, ?_, ?_, fun m hm => rstRises_ne _ n hm,
      (rstRises_reqs _ n).trans (advanceTo_reqs s _), (rstRises_txq _ n).trans (advanceTo_txq s _), rstRises_standing _ n⟩ <;>
      rw [rstRises_self]
  · obtain ⟨hqueue, hskipped⟩ := flrGrate_sampler s
    have hstand := flrGrate_standing s
    refine ⟨_, exec_flrFunction0 hreach, (flrGrate_fns s).trans (flrFn_fns s 0), fun r => flrGrate_reqs s, fun r hr hids hstone hnow hread =>
      flrGrate_answers s hr hids.2 hstone hnow hread, hqueue, flrGrate_noSample s, fun u => flrGrate_kept s, flrGrate_irq s, hskipped,
      fun n => hearth_steady_of_standing (s := s.flrFn 0) hstand n, fun a => ?_, standing_own_fns hstand⟩
    have hstone : s.flrGrate.stone = s.stone := congrArg Standing.stone hstand
    rw [hstone]
  · refine ⟨_, exec_flrFunction0Complete hflr hrun, flr0Over_clk _, (flr0Over_fns _).trans ?_,
      (flr0Over_reqs _).trans (advanceTo_reqs s _), (flr0Over_txq _).trans (advanceTo_txq s _), flr0Over_standing _⟩
    rw [State.fn, advanceTo_fns, State.fn]

end Sys2Proof.Machine
end

-- ==== Proofs of 01_the_bridge_whole: the mode ====
section
/-! The operating mode (R17 to R20, R78, R80): what leaves service or starts over keeps it, and so does every command but those that
end a strap group or sense a loss of supply. -/

namespace Sys2Proof.Machine

open Sys2Proof

/-! ### Operations that change settled parts, but not the mode -/

/-- The mode is one of the settled parts, so a lemma on `State.settled` is one on the mode. -/
theorem mode_eq_settled (s : State) : s.mode = s.settled.mode := (rfl)

theorem settledMode_forList {α : Type} (l : List α) (f : α → State → State)
    (h : ∀ x s, (f x s).settled.mode = s.settled.mode) (s : State) : (forList l f s).settled.mode = s.settled.mode :=
  forList_eq (fun s => s.settled.mode) l f h s

@[simp] theorem settledMode_senseBank (s : State) (b : Fin 14) (mv : Nat) :
    (s.senseBank b mv).settled.mode = s.settled.mode := rfl

@[simp] theorem settledMode_setToggles (s : State) (f : FlueId) (v : Bool) :
    (s.setToggles f v).settled.mode = s.settled.mode := by
  cases f <;> rfl

@[simp] theorem settledMode_select (s : State) (i : TapInstr) (dr : List Bool) :
    (s.select i dr).settled.mode = s.settled.mode := rfl

@[simp] theorem settledMode_boundary (s : State) (i : TapInstr) (levels values : List Bool) :
    (s.boundary i levels values).settled.mode = s.settled.mode := rfl

/-- R86: every unit leaves service in the mode it was in. -/
@[simp] theorem settledMode_leaveAll (s : State) : s.leaveAll.settled.mode = s.settled.mode := by
  rw [← settled_saveTaps s]
  unfold State.leaveAll
  generalize s.saveTaps = u
  rfl

@[simp] theorem settledMode_loseMember (s : State) : s.loseMember.settled.mode = s.settled.mode := by
  rw [← settledMode_leaveAll s, State.loseMember]
  generalize s.leaveAll = u
  rfl

@[simp] theorem settledMode_startTS (s : State) : s.startTS.settled.mode = s.settled.mode := rfl

@[simp] theorem settledMode_perstHigh (s : State) : s.perstHigh.settled.mode = s.settled.mode := rfl

@[simp] theorem settledMode_doBeat (s : State) (x : SlotPiece) (w : Nat) : (s.doBeat x w).1.settled.mode = s.settled.mode := by
  unfold State.doBeat
  dsimp only
  split <;> rfl

@[simp] theorem settledMode_grantBeat (s : State) (b : Fin 16) (k : Fin 17) (x : SlotPiece) (w : Nat) :
    (s.grantBeat b k x w).settled.mode = s.settled.mode := by
  unfold State.grantBeat
  dsimp only
  (repeat' split) <;> simp [mode_eq_settled]

@[simp] theorem settledMode_bankTick (b : Fin 16) (s : State) : (State.bankTick b s).settled.mode = s.settled.mode := by
  unfold State.bankTick
  dsimp only
  (repeat' split) <;> simp

/-- R76: VAUX past its rising threshold is no loss of supply. -/
theorem settledMode_senseAll_vaux (s : State) :
    (s.senseAll { s.island with vaux := true }).settled.mode = s.settled.mode := by
  have hfalls : s.island.falls { s.island with vaux := true } = false := by simp [Island.falls]
  rw [State.senseAll, if_neg (by simp [hfalls])]
  rfl

/-- R90: with the gate, hearths enter service, the host link enters Detect and test lanes start. -/
theorem settledMode_gateOpened (s : State) :
    (forList (List.finRange 32) (fun l s => s.startTestLane l)
      (forHearths (fun n s => if (s.hearth n).slot = .ready then s.enterService n else s)
        { s with gate := true, readyOnce := true }).enterDetect).settled.mode = s.settled.mode := by
  rw [settled_forList _ _ fun l s => settled_startTestLane s l, settled_enterDetect,
    settled_forHearths _ fun n s => by split <;> simp]
  rfl

/-! ### Commands -/

/-- The command answers a next state, in the mode of `s`. -/
def KeepsMode (s : State) (o : Host.Outcome State Fault Refusal) : Prop := ∃ t, o = .next t ∧ t.mode = s.mode

@[simp] theorem keepsMode_next (s t : State) : KeepsMode s (.next t) ↔ t.mode = s.mode :=
  ⟨fun ⟨_, h, e⟩ => by cases h; exact e, fun h => ⟨_, rfl, h⟩⟩

theorem keepsMode_vauxValid (s : State) : KeepsMode s (execVauxValid s) :=
  (keepsMode_next s _).mpr (settledMode_senseAll_vaux s)

theorem keepsMode_gateOpen (s : State) : KeepsMode s (execGateOpen s) := by
  unfold execGateOpen
  split
  · rw [keepsMode_next, mode_eq_settled, settled_landAll, settled_linksChanged, settledMode_gateOpened, settled_advanceTS,
      mode_eq_settled]
  · exact (keepsMode_next s s).mpr rfl

theorem keepsMode_slotPowerEnable (s : State) : KeepsMode s (execSlotPowerEnable s) := by
  unfold execSlotPowerEnable
  split
  · rw [keepsMode_next, mode_eq_settled, settled_woken, settled_startTraining, settled_mk, mode_eq_settled, settled_advanceTS,
      mode_eq_settled]
  · exact (keepsMode_next s s).mpr rfl

/-- R17 to R20: the commands at which the mode can change. -/
def setsMode : Instr → Bool
  | .strapGroupEnd _ => true
  | .supplyValidEvent _ _ _ => true
  | .supplyInvalid _ => true
  | .auxOnlyWake _ _ => true
  | _ => false

/-- Every other command keeps it: each branch of it is a chain of operations that leave the settled parts alone. -/
theorem exec_keepsMode {c : Instr} (hc : setsMode c = false) (s : State) : KeepsMode s (exec c s) := by
  cases c
  case strapGroupEnd => cases hc
  case supplyValidEvent => cases hc
  case supplyInvalid => cases hc
  case auxOnlyWake => cases hc
  case vauxValid => exact keepsMode_vauxValid s
  case gateOpen => exact keepsMode_gateOpen s
  case slotPowerEnable => exact keepsMode_slotPowerEnable s
  all_goals
    simp only [exec,
      execVhearthBankInvalid, execVhearthBankValid, execPerstAssertion, execPerstDeassertion, execLedgerWindowStart,
      execLedgerAdmission, execDomainWakeComplete, execHearthstoneClearComplete, execDomainIdleExpiry, execGoingDownEnd,
      execLinkTrainingComplete, execEqualizationPhase2, execTxL0sEntry, execAspmL1Request, execClkreqRelease,
      execClkreqAssertOnWake, execRefclkStop, execRefclkReturn, execBellowsFrameEnd, execAcquireFrameEnd, execBellowsGap,
      execLaneStarved, execTlpTransmit, execAckReceived, execNakReceived, execReplayTimerExpiry, execTlpReceived,
      execDllpCrcError, execUpdatefcSend, execUpdatefcPeriodic, execUpdatefcReceived, execConfigWrite, execSootReportRead,
      execBusMasterEnableClear, execBusMasterEnableSet, execMemorySpaceEnableWrite, execInterruptDisableWrite,
      execPowerStateWrite, execLtrMechanismEnableWrite, execTenBitTagEnableWrite, execExtendedTagEnableWrite,
      execInitiateFlr, execHearthResetRelease, execFlrComplete, execFlrFunction0, execFlrFunction0Complete, execLinkReset,
      execMemoryReadBar0, execMemoryWriteBar0, execMemoryReadBar2, execMemoryWriteBar2, execCompletionReceived,
      execPmeTurnOff, execSetSlotPowerLimit, execVendorDefinedType1, execCompletionTimeout, execHostRequestDeadline,
      execHearthCycleStart, execHearthCycleWithdraw, execHearthStrobeRelease, execWaitAssert, execBusRequest,
      execBusGrant, execTargetResponse, execGrantWithdrawn, execWatchdogTargetResponse, execWatchdogStrobeRelease,
      execWatchdogGrant, execWatchdogMasterResponse, execLockIdleExpiry, execLockRelease, execIrqInputChange,
      execSinkUpdate, execReloadRequest, execReloadSamplingStart, execReloadDrainExpiry, execReloadApply, execPgoodFall,
      execPgoodRise, execPresenceFall, execPresenceRise, execAttnPress, execDrainWorkDone, execDrainExpiry,
      execDrainRemovable, execResampleStart, execResampleEnd, execIndicatorBlink, execSwitchGrant, execSampleRecordSend,
      execBankBeat, execPieceReceived, execXoffExit, execReceiptReceived, execFlowReceived, execBackoffReceived,
      execLevelsReceived, execReportReceived, execFuncReceived, execTrainReceived, execFlueTrainingComplete,
      execFlueDownTimeout, execFlueTrainingTimeout, execClockInLost, execClockReturn, execReportSend, execFuncRepeat,
      execFlueHoldExpiry, execTestInjection, execCheckerLock, execCheckerWindowEnd, execSelfCheckHoldEnd, execExtest,
      execIdcode, execSamplePreload, execClamp, execHighz, execExtestPulse, execExtestTrain, execMirror, execLanereport,
      execBypass, execTestLogicReset, execReceiverError, execMarginCommand, execL1Entry, execL1Exit, execReceiveL0sChange,
      execAdvertisementReceived, execTargetResponseRelease, execClkreqAssertOnAlarm]
    (repeat' split) <;> simp [mode_eq_settled, settledMode_forList, settled_forList, settled_forHearths]

/-- Settles O4: a command that is not one of the four keeps the mode (`exec_keepsMode`). -/
theorem modeChangesOnlyThere : Obligations.ModeChangesOnlyThere := by
  unfold Obligations.ModeChangesOnlyThere
  intro c s t hexec hmode
  have hsets : setsMode c = true := by
    by_contra hnot
    obtain ⟨u, hu, hkeep⟩ := exec_keepsMode (Bool.eq_false_iff.mpr hnot) s
    rw [hexec] at hu
    cases hu
    exact hmode hkeep
  cases c
  case strapGroupEnd r => exact .inl ⟨r, rfl⟩
  case supplyValidEvent v g p => exact .inr (.inl ⟨v, g, p, rfl⟩)
  case supplyInvalid v => exact .inr (.inr (.inl ⟨v, rfl⟩))
  case auxOnlyWake v x => exact .inr (.inr (.inr ⟨v, x, rfl⟩))
  all_goals cases hsets

end Sys2Proof.Machine
end

-- ==== Proofs of 01_the_bridge_whole: two refutations ====
section
/-! Two states that no run reaches, but that the statements on group 0 and on admission speak of: a locked write that waits at the
hearthstone's port when the sequence begins again, and a service item that carries a hearth's cycle. -/

namespace Sys2Proof.Machine

open Sys2Proof

/-- A piece with nothing special about it, from hearth 0 to the hearthstone. -/
def barePiece : Piece :=
  { id := 0, cls := .nonPosted, kind := .read, src := 0, dst := 19, srcPos := 0, dstPos := 0, key := 0, addr := 0, bytes := [],
    tag := 0, status := .sc, origin := .none, fn := 0, wfn := 0, errResp := false, ca := false, far := 0, reqPort := 0,
    readyAt := 0, input := 0, code := 0, whole := none }

/-! ### Group 0 -/

/-- The bytes of the hearthstone after a command. -/
def stoneAfter (o : Host.Outcome State Fault Refusal) : List Host.Cell :=
  match o with
  | .next t => t.stone
  | _ => []

/-- Group 0 is being sampled on the clock of Flue A, which no mode but M3 takes from a strap, and a locked write of hearth 0 to
byte 0 of the hearthstone waits in the switch. -/
def lockedAtGroup0 : State :=
  { State.reset with
    clk := { State.reset.clk with source := .flueA }
    sw := { Switch.reset with q := vset Switch.reset.q 0 [{ barePiece with kind := .lockedWrite, bytes := [(0, 1)] }] } }

/-- R79, R86, R267: with no strap VALID the bridge begins again on REFCLK, and as every unit leaves service the captured write is
performed. -/
theorem lockedAtGroup0_performed : stoneAfter (exec (.strapGroupEnd []) lockedAtGroup0) = [(0, 1)] := by
  decide +kernel

/-- Refutes O12: the bytes of the hearthstone need not stand. At a restart on another clock (R79, R94) every unit leaves service,
and a locked write that has been captured is performed whole (R267): from `lockedAtGroup0` byte 0 becomes 1. -/
theorem not_groupZeroSetsTheMode : ¬ Obligations.GroupZeroSetsTheMode := by
  unfold Obligations.GroupZeroSetsTheMode
  intro h
  obtain ⟨t, hexec, -, hstone, -⟩ := h [] lockedAtGroup0 rfl rfl rfl
  have hwritten : t.stone = [(0, 1)] := by
    rw [← lockedAtGroup0_performed, hexec]
    rfl
  rw [hwritten] at hstone
  cases hstone

/-! ### Admission -/

/-- The waiting items after a command. -/
def itemsAfter (o : Host.Outcome State Fault Refusal) : Items :=
  match o with
  | .next t => t.items
  | _ => Items.reset

/-- A kind-3 read of hearth 0 that waits for its embers. -/
def kind3Paying : Cycle :=
  { serial := 0, arrival := 0, read := true, addr := 0, be := 0, lockLow := false, locked := false,
    win := { base := 0, size := 0, kind := 3, nonPosted := false, errResp := false, dataInv := false, toff := 0, m := 0, pos := 0 },
    bytes := [], rdata := 0, fetched := none, phase := .paying, captured := false }

/-- An item that needs no domain. -/
def bareItem (id cost : Nat) (w : Work) : Item :=
  { id := id, port := 0, tick := 0, path := [], cost := cost, work := w, heldAt := none, heldTick := 0 }

/-- The ledger is open and empty. In the service level the piece of hearth 0's kind-3 cycle, which costs nothing, comes before an
item of 1 ember; at the host level waits a request from position 1 for hearth 0's bus. -/
def cycleInService : State :=
  { State.reset with
    ledger := { Ledger.reset with st := .opened }
    items := { Items.reset with
      service := [bareItem 0 0 (.piece { barePiece with origin := .cycle 0 0 }), bareItem 1 1 .laneWake]
      host := [bareItem 2 0 (.piece { barePiece with dst := 0, srcPos := 1 })] }
    hearths := vset State.reset.hearths 0 { Hearth.reset with cyc := some kind3Paying } }

/-- R110, R240: the first item is paid and its cycle comes IN_FLIGHT, which backs off the request from position 1; the second item
cannot be paid. -/
theorem cycleInService_backsOff : (itemsAfter (exec .ledgerAdmission cycleInService)).service.length = 1 ∧
    (itemsAfter (exec .ledgerAdmission cycleInService)).host.length = 0 ∧
    cycleInService.coreTick.askReader.items.host.length = 1 := by
  decide +kernel

/-- Refutes O17: while the service level is not empty a host item can leave, for an admitted kind-3 cycle backs off the requests
that wait for its hearth's bus (R240): from `cycleInService` one service item is left and no host item. -/
theorem not_admission : ¬ Obligations.Admission := by
  unfold Obligations.Admission
  rintro ⟨hlevels, -⟩
  obtain ⟨t, hexec, hhead⟩ := hlevels cycleInService rfl rfl rfl
  obtain ⟨hservice, hhost, hbefore⟩ := cycleInService_backsOff
  rw [hexec] at hservice hhost
  obtain ⟨it, rest, hcons⟩ := List.exists_cons_of_length_pos (hservice ▸ Nat.one_pos)
  obtain ⟨-, hstays, -⟩ := hhead it rest hcons
  rw [hbefore] at hstays
  exact absurd (hhost.symm.trans hstays) (by decide)

end Sys2Proof.Machine
end

-- ==== Proofs of 01_the_bridge_whole: the ember account ====
section
/-! The ember account (R102 to R106, R110, R119): admission moves embers from the balance to the total charged, and neither it nor the
passing of ticks does anything else to the account. -/

namespace Sys2Proof.Machine

open Sys2Proof

/-! ### The account -/

/-- The ledger but for its pointer, its reports and its LTR message. -/
structure Account where
  st : LedgerSt
  budget : Nat
  windows : Nat
  refillDue : Bool
  balance : Nat
  charged : Nat

def State.account (s : State) : Account :=
  { st := s.ledger.st, budget := s.ledger.budget, windows := s.ledger.windows, refillDue := s.ledger.refillDue,
    balance := s.ledger.balance, charged := s.ledger.charged }

theorem ledger_of_standing {s t : State} (h : t.standing = s.standing) : t.ledger = s.ledger := congrArg Standing.ledger h

theorem opened_of_account {s t : State} (h : t.account = s.account) (hs : s.ledger.st = .opened) : t.ledger.st = .opened :=
  (congrArg Account.st h).trans hs

/-- R106: `n` embers are charged. -/
def Account.pay (a : Account) (n : Nat) : Account := { a with balance := a.balance - n, charged := a.charged + n }

/-- From `s` to `t` embers have been charged that the balance held, and nothing else has become of the account. -/
def Pays (s t : State) : Prop := ∃ n, n ≤ s.account.balance ∧ t.account = s.account.pay n

theorem pays_of_account {s t : State} (h : t.account = s.account) : Pays s t := ⟨0, Nat.zero_le _, h⟩

theorem Pays.trans {s t u : State} (h : Pays s t) (k : Pays t u) : Pays s u := by
  obtain ⟨n, hn, ht⟩ := h
  obtain ⟨m, hm, hu⟩ := k
  rw [ht] at hm hu
  have hm : m ≤ s.account.balance - n := hm
  refine ⟨n + m, by omega, ?_⟩
  rw [hu]
  simp only [Account.pay, Nat.sub_sub, Nat.add_assoc]

theorem Pays.opened {s t : State} (h : Pays s t) (hs : s.ledger.st = .opened) : t.ledger.st = .opened := by
  obtain ⟨n, -, ht⟩ := h
  exact (congrArg Account.st ht).trans hs

/-! ### Ticks -/

theorem account_setClk (s : State) (c : Clock) : ({ s with clk := c } : State).account = s.account := rfl

theorem account_poweredOn_passed (s : State) (l : List HearthId) : (s.passed.poweredOn l).account = s.account := rfl

theorem account_tick (s : State) : s.tick.account = s.account := by
  cases h : s.running
  · rw [tick_of_not_running h]
  · rw [tick_of_running h, account_poweredOn_passed]

theorem account_advanceTo (s : State) (t : Tally) : (s.advanceTo t).account = s.account := by
  unfold State.advanceTo
  dsimp only
  (repeat' split)
  · rfl
  · exact account_tick s
  · rw [account_tick, account_setClk, account_tick]

theorem account_advanceTS (s : State) (n : Nat) : (s.advanceTS n).account = s.account := by
  rw [State.advanceTS, account_advanceTo]

theorem settleBus_ledger (n : HearthId) (s : State) : (s.settleBus n).ledger = s.ledger := by
  unfold State.settleBus State.goOn
  dsimp only
  (repeat' split)
  · exact modHearth_ledger s n _
  · exact ledger_of_standing (standing_driveNext s n)
  · rfl

theorem coreTick_ledger (s : State) : s.coreTick.ledger = s.ledger := by
  have hhearth : ∀ n (s : State), ((s.recheck n).settleBus n).ledger = s.ledger := fun n s =>
    (settleBus_ledger n _).trans (ledger_of_standing (standing_recheck n s))
  unfold State.coreTick
  rw [ledger_of_standing (standing_issueWaiting _), ledger_of_standing (standing_landWaiting _)]
  exact forList_eq State.ledger allHearths _ hhearth s

theorem askReader_ledger (s : State) : s.askReader.ledger = s.ledger := by
  unfold State.askReader
  (repeat' split) <;> rfl

/-! ### One item -/

theorem wakePath_ledger (s : State) (path : List DomainId) : (s.wakePath path).ledger = s.ledger :=
  forList_eq State.ledger path _ (fun d s => by split <;> rfl) s

theorem cyclePaid_ledger (s : State) (w : Work) : (s.cyclePaid w).ledger = s.ledger := by
  cases w with
  | piece p => exact ledger_of_standing (standing_admitCycle s p)
  | _ => rfl

theorem startWork_ledger (s : State) (w : Work) (t : Tally) : (s.startWork w t).ledger = s.ledger := by
  cases w with
  | change c => exact ledger_of_standing (standing_pushChange s c t)
  | _ => rfl

theorem startOrWait_ledger (s : State) (it : Item) : (s.startOrWait it).ledger = s.ledger := by
  unfold State.startOrWait
  split
  · exact startWork_ledger s _ _
  · rfl

/-- R106: of the ledger, admitting an item only charges it. -/
theorem admitOne_ledger (s : State) (it : Item) : (s.admitOne it).ledger = s.ledger.charge it.port (s.itemCost it) := by
  rw [State.admitOne, startOrWait_ledger, cyclePaid_ledger, wakePath_ledger, State.chargeItem]

theorem admitOne_account (s : State) (it : Item) : (s.admitOne it).account = s.account.pay (s.itemCost it) := by
  rw [State.account, admitOne_ledger]
  rfl

/-- R110: an open ledger can pay an item that nothing bars. -/
theorem itemCost_le_of_not_barred {s : State} {it : Item} (hopen : s.ledger.st = .opened) (h : s.barred it = none) :
    s.itemCost it ≤ s.ledger.balance := by
  unfold State.barred at h
  by_contra hlt
  split at h
  · cases h
  · simp [hopen, hlt] at h

/-- R110: an item that nothing bars leaves its queue, which makes `u` of `s`, and is paid. -/
theorem pays_admitOne {s u : State} {it : Item} (hopen : s.ledger.st = .opened) (hbar : s.barred it = none)
    (hcost : u.itemCost it = s.itemCost it) (hu : u.account = s.account) : Pays s (u.admitOne it) :=
  ⟨s.itemCost it, itemCost_le_of_not_barred hopen hbar, by rw [admitOne_account, hcost, hu]⟩

theorem pays_stopAt (s : State) (b : Bar) : Pays s (s.stopAt b) := pays_of_account (by cases b <;> rfl)

/-! ### One tick's admission -/

theorem pays_admitService (k : Nat) (s : State) (hopen : s.ledger.st = .opened) : Pays s (State.admitService k s).1 := by
  induction k generalizing s with
  | zero => exact pays_of_account rfl
  | succ k ih =>
    unfold State.admitService
    (repeat' split)
    · exact pays_of_account rfl
    · exact pays_stopAt s _
    · next it rest _ _ hbar =>
      have hpaid := pays_admitOne (u := { s with items := { s.items with service := rest } }) hopen hbar rfl rfl
      exact hpaid.trans (ih _ (hpaid.opened hopen))

theorem pays_admitHost (k : Nat) (s : State) (hopen : s.ledger.st = .opened) : Pays s (State.admitHost k s).1 := by
  induction k generalizing s with
  | zero => exact pays_of_account rfl
  | succ k ih =>
    unfold State.admitHost
    (repeat' split)
    · exact pays_of_account rfl
    · exact pays_stopAt s _
    · next it rest _ _ hbar =>
      have hpaid := pays_admitOne (u := { s with items := { s.items with host := rest } }) hopen hbar rfl rfl
      exact hpaid.trans (ih _ (hpaid.opened hopen))

theorem pays_admitSlots (k : Nat) (s : State) (hopen : s.ledger.st = .opened) : Pays s (State.admitSlots k s).1 := by
  induction k generalizing s with
  | zero => exact pays_of_account rfl
  | succ k ih =>
    unfold State.admitSlots
    (repeat' split)
    · exact pays_of_account rfl
    · exact pays_of_account rfl
    · exact pays_stopAt s _
    · next i _ _ it rest _ _ hbar =>
      have hpaid := pays_admitOne
        (u := { s with items := { s.items with slots := vset s.items.slots i rest }, ledger := { s.ledger with pointer := i + 1 } })
        hopen hbar rfl rfl
      exact hpaid.trans (ih _ (hpaid.opened hopen))

/-- R104: a refill that is due sets the balance to B. -/
theorem refillIfDue_account (s : State) : s.refillIfDue.account =
    { s.account with refillDue := false, balance := if s.ledger.refillDue then s.ledger.budget else s.ledger.balance } := by
  unfold State.refillIfDue
  split
  · next h => simp only [State.account, h]
  · next h => simp only [State.account, Bool.eq_false_iff.mpr h]

/-- R104, R110: a tick's admission applies the refill that is due, and then only charges. -/
theorem pays_admitAll (s : State) (hopen : s.ledger.st = .opened) : Pays s.refillIfDue s.admitAll := by
  have hopen0 : s.refillIfDue.ledger.st = .opened := (congrArg Account.st (refillIfDue_account s)).trans hopen
  have h1 := pays_admitService s.refillIfDue.waitingItems.length _ hopen0
  have h2 := h1.trans (pays_admitHost s.refillIfDue.waitingItems.length _ (h1.opened hopen0))
  have h3 := h2.trans (pays_admitSlots s.refillIfDue.waitingItems.length _ (h2.opened hopen0))
  unfold State.admitAll State.admitTick
  rw [if_neg (by rw [hopen]; decide)]
  dsimp only
  (repeat' split)
  · exact h1
  · exact h2
  · exact h3

theorem snapshot_account (s : State) : s.snapshot.account = s.account := rfl

/-- R118: the LTR message costs nothing. -/
theorem ltrAtWindow_account (s : State) : s.ltrAtWindow.account = s.account := by
  unfold State.ltrAtWindow
  (repeat' split) <;> rfl

/-- R103, R104: at a later window the balance is B again, or the refill is due. -/
theorem nextWindow_account (s : State) : s.nextWindow.account =
    { s.account with
      windows := s.account.windows + 1
      refillDue := !s.coreRuns
      balance := if s.coreRuns then s.account.budget else s.account.balance } := by
  unfold State.nextWindow
  cases h : s.coreRuns <;> rfl

/-! ### The statement -/

theorem exec_ledgerAdmission {s : State} (hrun : s.running = true) (hcore : s.coreRuns = true) (hopen : s.ledger.st = .opened) :
    exec .ledgerAdmission s = .next s.coreTick.askReader.admitAll.snapshot := by
  have hnot : s.coreTick.askReader.ledger.st ≠ .closed := by
    rw [askReader_ledger, coreTick_ledger, hopen]
    decide
  show execLedgerAdmission s = _
  rw [execLedgerAdmission, if_pos ⟨hrun, hcore⟩]
  dsimp only
  rw [if_neg hnot]

/-- R103: the tick of the next window. -/
def State.atWindow (s : State) : State := s.advanceTS (Config.ledgerOpens + Config.window * s.ledger.windows)

theorem atWindow_account (s : State) : s.atWindow.account = s.account := by
  rw [State.atWindow, account_advanceTS]

theorem exec_ledgerWindowStart {s : State} (hrun : s.running = true) (hpast : s.pastGroup0 = true) (hopen : s.ledger.st = .opened) :
    exec .ledgerWindowStart s = .next (if s.atWindow.nextWindow.ledger.refillDue then s.atWindow.nextWindow
      else s.atWindow.nextWindow.admitAll.snapshot).ltrAtWindow := by
  have hnot : s.atWindow.ledger.st ≠ .closed := by
    rw [opened_of_account (atWindow_account s) hopen]
    decide
  show execLedgerWindowStart s = _
  rw [execLedgerWindowStart, if_pos ⟨hrun, hpast⟩]
  dsimp only
  rw [← State.atWindow, if_neg hnot]

/-- What a payment leaves there is, charged or not, is what there was. -/
theorem Account.pay_total {a b : Account} {n : Nat} (hn : n ≤ a.balance) (h : b = a.pay n) :
    b.balance + b.charged = a.balance + a.charged := by
  subst h
  simp only [Account.pay]
  omega

/-- The ledger's fields, read off its account. -/
theorem account_eq {s : State} {a : Account} (h : s.account = a) :
    s.ledger.st = a.st ∧ s.ledger.budget = a.budget ∧ s.ledger.windows = a.windows ∧ s.ledger.refillDue = a.refillDue ∧
      s.ledger.balance = a.balance ∧ s.ledger.charged = a.charged := by
  subst h
  exact ⟨rfl, rfl, rfl, rfl, rfl, rfl⟩

/-- R104, R110: the account after admission, whatever the refill: a due refill is applied, and a part of the balance is charged. -/
theorem account_after_admitAll {s t : State} (ht : t.account = s.admitAll.account) (hopen : s.ledger.st = .opened) :
    t.ledger.st = .opened ∧ t.ledger.budget = s.ledger.budget ∧ t.ledger.windows = s.ledger.windows ∧
      t.ledger.refillDue = false ∧ t.ledger.balance + t.ledger.charged =
        (if s.ledger.refillDue then s.ledger.budget else s.ledger.balance) + s.ledger.charged := by
  obtain ⟨n, hn, hpay⟩ := pays_admitAll s hopen
  rw [refillIfDue_account] at hn hpay
  obtain ⟨hst, hbudget, hwindows, hrefill, -, -⟩ := account_eq (ht.trans hpay)
  exact ⟨hst.trans hopen, hbudget, hwindows, hrefill, Account.pay_total hn (ht.trans hpay)⟩

/-- Settles O16: of the account, admission applies a due refill and then only charges (`pays_admitAll`), and a window start sets
the balance or makes the refill due (`nextWindow_account`). -/
theorem embersConserved : Obligations.EmbersConserved := by
  unfold Obligations.EmbersConserved
  refine ⟨fun s hrun hcore hopen => ?_, fun s hrun hpast hopen => ?_⟩
  · have hledger : s.coreTick.askReader.ledger = s.ledger := (askReader_ledger _).trans (coreTick_ledger s)
    refine ⟨_, exec_ledgerAdmission hrun hcore hopen, ?_⟩
    obtain ⟨hst, hbudget, -, hrefill, htotal⟩ :=
      account_after_admitAll (snapshot_account s.coreTick.askReader.admitAll) (by rw [hledger, hopen])
    rw [hledger] at hbudget htotal
    exact ⟨hst, hbudget, hrefill, htotal⟩
  · have hwin := nextWindow_account s.atWindow
    rw [atWindow_account] at hwin
    refine ⟨_, exec_ledgerWindowStart hrun hpast hopen, ?_⟩
    rw [show s.advanceTS (2500 + 1024 * s.ledger.windows) = s.atWindow from rfl]
    cases hcore : s.atWindow.coreRuns
    case false =>
      rw [hcore] at hwin
      obtain ⟨-, -, -, hdue, -, -⟩ := account_eq hwin
      replace hdue : s.atWindow.nextWindow.ledger.refillDue = true := hdue
      rw [if_pos hdue]
      obtain ⟨hst, -, hwindows, hrefill, hbalance, hcharged⟩ := account_eq ((ltrAtWindow_account _).trans hwin)
      exact ⟨hst.trans hopen, hwindows, nofun, fun _ => ⟨hrefill, hbalance, hcharged⟩⟩
    case true =>
      rw [hcore] at hwin
      obtain ⟨hst0, hbudget0, hwindows0, hdue, hbalance0, hcharged0⟩ := account_eq hwin
      replace hdue : s.atWindow.nextWindow.ledger.refillDue = false := hdue
      rw [if_neg (Bool.eq_false_iff.mp hdue)]
      obtain ⟨hst, -, hwindows, hrefill, htotal⟩ :=
        account_after_admitAll ((ltrAtWindow_account _).trans (snapshot_account s.atWindow.nextWindow.admitAll)) (hst0.trans hopen)
      rw [hdue, if_neg (by decide), hbalance0, hcharged0] at htotal
      exact ⟨hst, hwindows.trans hwindows0, fun _ => ⟨hrefill, htotal⟩, nofun⟩

end Sys2Proof.Machine
end

-- ==== Proofs of 01_the_bridge_whole: CLKREQ_N ====
section
/-! CLKREQ_N (R27, R46, R130, R132, R134): released in L1, driven low again by an event that wakes the core or by an alarm. -/

namespace Sys2Proof.Machine

open Sys2Proof

/-- R134: the core woken, with CLKREQ_N driven low. -/
def State.clockAsked (s : State) : State := { s.woken with link := { s.woken.link with clkreqReleased := false } }

/-- R134: the wait a strobe without a clock is answered with. -/
def State.strobeHeld (s : State) (n : HearthId) : State :=
  s.modHearth n fun h => { h with waitLow := true, waitNoClock := true }

theorem exec_clkreqAssertOnWake_strobe {s : State} {n : HearthId} (h : s.wakes (.strobe n) = true) :
    exec (.clkreqAssertOnWake (.strobe n)) s =
      .next (if s.link.clkreqReleased then s.clockAsked.strobeHeld n else s.clockAsked) :=
  if_pos h

theorem exec_clkreqAssertOnWake_other {s : State} {e : WakeEvent} (h : s.wakes e = true) (he : ∀ n, e ≠ .strobe n) :
    exec (.clkreqAssertOnWake e) s = .next s.clockAsked := by
  show execClkreqAssertOnWake e s = _
  rw [execClkreqAssertOnWake, if_pos h]
  cases e with
  | strobe n => exact absurd rfl (he n)
  | edge n => rfl
  | slot n => rfl
  | host => rfl
  | flue f => rfl
  | alarm => rfl

theorem standing_clockAsked (s : State) :
    s.clockAsked.standing = { s.standing with link := { s.link with clkreqReleased := false } } := rfl

theorem standing_strobeHeld (s : State) (n : HearthId) : (s.strobeHeld n).standing = s.standing :=
  standing_modHearth s n _ rfl

/-- R130, R132: CLKREQ_N is released only while every condition of its release is met. -/
theorem exec_clkreqRelease_unmet {a : Nat} {s : State}
    (h : (s.mode ≠ .m1 ∧ s.mode ≠ .m4) ∨ s.link.st.isL1 = false ∨ s.quiet = false ∨ a ≤ 100000) :
    exec (.clkreqRelease a) s = .next s := by
  refine if_neg ?_
  rintro ⟨-, hmode, hl1, -, hquiet, halarm⟩
  rcases h with ⟨hne1, hne4⟩ | hnot | hnot | hsoon
  · exact hmode.elim hne1 hne4
  · exact Bool.false_ne_true (hnot.symm.trans hl1)
  · exact Bool.false_ne_true (hnot.symm.trans hquiet)
  · exact absurd halarm (Nat.not_lt.mpr hsoon)

/-- R134: what an event that wakes the core changes. -/
theorem clkreqAssertOnWake_effect {e : WakeEvent} {s : State} (h : s.wakes e = true) :
    ∃ t, exec (.clkreqAssertOnWake e) s = .next t ∧
      t.link = { s.link with clkreqReleased := false } ∧ t.wake = true ∧
      (∀ n, e = .strobe n → s.link.clkreqReleased = true → (t.hearth n).waitLow = true) ∧
      (∀ n, e ≠ .strobe n ∨ s.link.clkreqReleased = false → t.hearth n = s.hearth n) ∧ t.reqs = s.reqs ∧ t.items = s.items ∧
      t.txq = s.txq ∧ t.standing = { s.standing with link := t.link } := by
  by_cases hheld : (∃ n, e = .strobe n) ∧ s.link.clkreqReleased = true
  case pos =>
    obtain ⟨⟨n, rfl⟩, hreleased⟩ := hheld
    refine ⟨s.clockAsked.strobeHeld n, (exec_clkreqAssertOnWake_strobe h).trans (by rw [if_pos hreleased]), rfl, rfl, ?_, ?_, rfl, rfl, rfl, ?_⟩
    · rintro m ⟨⟩ -
      rw [State.strobeHeld, hearth_modHearth_self]
    · rintro m (hne | hnot)
      · exact hearth_modHearth_ne s.clockAsked n m _ fun hm => hne (hm ▸ rfl)
      · exact absurd (hnot.symm.trans hreleased) Bool.false_ne_true
    · exact (standing_strobeHeld s.clockAsked n).trans (standing_clockAsked s)
  case neg =>
    have hexec : exec (.clkreqAssertOnWake e) s = .next s.clockAsked := by
      by_cases hstrobe : ∃ n, e = .strobe n
      · obtain ⟨n, rfl⟩ := hstrobe
        rw [exec_clkreqAssertOnWake_strobe h, if_neg fun hreleased => hheld ⟨⟨n, rfl⟩, hreleased⟩]
      · exact exec_clkreqAssertOnWake_other h fun n hn => hstrobe ⟨n, hn⟩
    exact ⟨_, hexec, rfl, rfl, fun n hn hreleased => absurd ⟨⟨n, hn⟩, hreleased⟩ hheld, fun n _ => rfl, rfl, rfl, rfl,
      standing_clockAsked s⟩

theorem wakes_strobe (s : State) (n : HearthId) :
    s.wakes (.strobe n) = true ↔ s.padsActive n = true ∧ s.scanHides n 1 = false := by
  rw [State.wakes, Bool.and_eq_true, Bool.not_eq_true']

theorem wakes_edge (s : State) (n : HearthId) :
    s.wakes (.edge n) = true ↔ (s.hearth n).slot.pads = true ∧ (s.dom (padDom n)).isOn = true := by
  rw [State.wakes, State.receiversOn, Bool.and_eq_true]

/-- Settles O22: the event of a wake and the conditions of a release and of an alarm, case by case. -/
theorem clkreq : Obligations.Clkreq := by
  unfold Obligations.Clkreq
  refine ⟨fun a s hrun hmode hl1 hsub hquiet halarm => ?_, fun a s h => exec_clkreqRelease_unmet h, fun e s => ⟨?_, ?_⟩,
    fun n f s => ⟨rfl, rfl, ?_, wakes_strobe s n, wakes_edge s n, Iff.rfl⟩, fun a s hreleased => ⟨?_, ?_⟩, ?_⟩
  · exact if_pos ⟨hrun, hmode, hl1, hsub, hquiet, halarm⟩
  · exact clkreqAssertOnWake_effect
  · exact fun h => if_neg (Bool.eq_false_iff.mp h)
  · exact decide_eq_true_iff
  · exact fun hsoon => if_pos ⟨hreleased, hsoon⟩
  · exact fun hlate => if_neg fun h => Nat.not_le.mpr hlate h.2
  · exact fun a s hlow => if_neg fun h => Bool.false_ne_true (hlow.symm.trans h.1)

end Sys2Proof.Machine
end

-- ==== Proofs of 01_the_bridge_whole: the interrupt inputs ====
section
/-! The interrupt inputs of a hearth (R27, R241, R242, R247, R248): a level that counts, and the item it becomes. -/

namespace Sys2Proof.Machine

open Sys2Proof

/-- R242: the level of input `q` counts. -/
def State.countLevel (s : State) (n : HearthId) (q : Fin 8) (low : Bool) : State :=
  s.modHearth n fun h =>
    { h with irqLow := if low then h.irqLow ||| BitVec.twoPow 8 q.val else h.irqLow &&& ~~~BitVec.twoPow 8 q.val }

/-- R241, R247: in service, the level that counts is a change of its source. -/
def State.sourceLevel (s : State) (n : HearthId) (q : Fin 8) (low : Bool) : State :=
  (s.countLevel n q low).presentChange n (vget (s.hearth n).cfg.irq q) (inputOf q) (vget (s.hearth n).cfg.entries q) none low

theorem exec_irqInputChange_short {n : HearthId} {q : Fin 8} {low : Bool} {held : Nat} {s : State} (hrun : s.running = true)
    (hpads : (s.hearth n).slot.pads = true) (hshort : held < 4) :
    exec (.irqInputChange n q low held) s = .next s.woken :=
  if_pos ⟨hrun, hpads, Or.inl hshort⟩

theorem exec_irqInputChange_counts {n : HearthId} {q : Fin 8} {low : Bool} {held : Nat} {s : State} (hrun : s.running = true)
    (hpads : (s.hearth n).slot.pads = true) (hchange : (s.hearth n).irqLow.getLsbD q.val ≠ low) (hheld : 4 ≤ held) :
    exec (.irqInputChange n q low held) s =
      .next (if (s.hearth n).slot.sources then s.sourceLevel n q low else (s.countLevel n q low).woken) := by
  have hlong : ¬ (s.running = true ∧ (s.hearth n).slot.pads = true ∧
      (held < Config.irqFilter ∨ (s.hearth n).irqLow.getLsbD q.val = low)) := fun h =>
    h.2.2.elim (Nat.not_lt.mpr hheld) hchange
  show execIrqInputChange n q low held s = _
  rw [execIrqInputChange]
  dsimp only
  rw [if_neg hlong, if_pos ⟨hrun, hpads⟩, apply_ite Host.Outcome.next]
  rfl

/-- Bit `q` of the levels is the one that changes. -/
theorem countLevel_bit (s : State) (n : HearthId) (q i : Fin 8) (low : Bool) :
    ((s.countLevel n q low).hearth n).irqLow.getLsbD i.val = if i = q then low else (s.hearth n).irqLow.getLsbD i.val := by
  rw [State.countLevel, hearth_modHearth_self]
  by_cases hi : i = q
  · subst hi
    cases low <;> simp
  · have hval : i.val ≠ q.val := fun h => hi (Fin.ext h)
    cases low <;> simp [hi, hval]

theorem countLevel_hearth_ne (s : State) {n m : HearthId} (q : Fin 8) (low : Bool) (h : m ≠ n) :
    (s.countLevel n q low).hearth m = s.hearth m := hearth_modHearth_ne s n m _ h

/-! ### A source change -/

theorem presentChange_unused (s : State) (n : HearthId) (input : Fin 9) (entry : BitVec 8) (code : Option Nat) (level : Bool) :
    s.presentChange n .unused input entry code level = s := if_pos rfl

/-- R247: the change of a source. -/
def State.sourceChange (s : State) (n : HearthId) (input : Fin 9) (entry : BitVec 8) (code : Option Nat) (level : Bool) : Change :=
  { hearth := n, pos := s.pos, input := input, entry := entry, slotCode := code, level := level, via := hearthPort n,
    key := (s.hearth n).cfg.ktag, waitFor := (s.hearth n).posted }

theorem presentChange_eq_presentSlot {r : Route} (h : r ≠ .unused) (s : State) (n : HearthId) (input : Fin 9) (entry : BitVec 8)
    (code : Option Nat) (level : Bool) : s.presentChange n r input entry code level =
      s.presentSlot (hearthSlot n) (hearthPort n) (portPath (hearthPort n) ++ portPath (s.changePort r)) (s.changeCost r)
        (.change (s.sourceChange n input entry code level)) := if_neg h

/-- A source change leaves the hearths, the wires and the items of the other levels alone. -/
theorem presentChange_frame (s : State) (n : HearthId) (r : Route) (input : Fin 9) (entry : BitVec 8) (code : Option Nat)
    (level : Bool) :
    (s.presentChange n r input entry code level).hearths = s.hearths ∧ (s.presentChange n r input entry code level).irq = s.irq ∧
    (s.presentChange n r input entry code level).items.service = s.items.service ∧
    (s.presentChange n r input entry code level).items.host = s.items.host := by
  unfold State.presentChange
  split <;> exact ⟨rfl, rfl, rfl, rfl⟩

theorem presentSlot_slot (s : State) (k : Fin 19) (port : PortId) (path : List DomainId) (cost : Nat) (work : Work) :
    vget (s.presentSlot k port path cost work).items.slots k = vget s.items.slots k ++ [s.newItem port path cost work] :=
  vget_vmod_self s.items.slots k _

/-! ### The statement -/

/-- What a level that counts leaves behind, in a state `t` where its source change, if any, has been presented. -/
theorem countLevel_effect {s t : State} {n : HearthId} {q : Fin 8} {low : Bool} (hhearths : t.hearths = (s.countLevel n q low).hearths)
    (hstanding : t.standing = (s.countLevel n q low).standing) :
    (∀ i : Fin 8, (t.hearth n).irqLow.getLsbD i.val = if i = q then low else (s.hearth n).irqLow.getLsbD i.val) ∧
    (∀ m, m ≠ n → t.hearth m = s.hearth m) ∧ t.standing = { s.standing with hearths := steadyHearths t.hearths } := by
  have hhearth : ∀ m, t.hearth m = (s.countLevel n q low).hearth m := fun m => congrArg (vget · m) hhearths
  refine ⟨fun i => ?_, fun m hm => ?_, ?_⟩
  · rw [hhearth, countLevel_bit]
  · rw [hhearth, countLevel_hearth_ne s q low hm]
  · rw [hhearths, hstanding]
    exact modHearth_standing s n _

/-- R247, R248: the item of a source change, at 4 embers toward a sink of this bridge. -/
theorem sourceLevel_item {s : State} {n : HearthId} {q : Fin 8} {low : Bool} (hused : vget (s.hearth n).cfg.irq q ≠ .unused) :
    ∃ (it : Item) (c : Change), vget (s.sourceLevel n q low).items.slots (hearthSlot n) = vget s.items.slots (hearthSlot n) ++ [it] ∧
      it.work = .change c ∧ c.level = low ∧ c.hearth = n ∧ c.input = inputOf q ∧ c.waitFor = (s.hearth n).posted ∧
      c.entry = vget (s.hearth n).cfg.entries q ∧ c.slotCode = none ∧
      (∀ m l, vget (s.hearth n).cfg.irq q = .irqo m l → it.cost = 4) := by
  have hposted : ((s.countLevel n q low).hearth n).posted = (s.hearth n).posted := by
    rw [State.countLevel, hearth_modHearth_self]
  rw [State.sourceLevel, presentChange_eq_presentSlot hused]
  refine ⟨_, (s.countLevel n q low).sourceChange n (inputOf q) (vget (s.hearth n).cfg.entries q) none low,
    presentSlot_slot _ _ _ _ _ _, rfl, rfl, rfl, rfl, hposted, rfl, rfl, fun m l hsink => ?_⟩
  rw [hsink]
  rfl

/-- Settles O47: a level that counts changes its bit (`countLevel_bit`), and is a source change in service
(`sourceLevel_item`). -/
theorem interruptInputs : Obligations.InterruptInputs := by
  unfold Obligations.InterruptInputs
  refine fun n q low held s hrun hpads hchange => ⟨fun hheld => ?_, exec_irqInputChange_short hrun hpads⟩
  rw [exec_irqInputChange_counts hrun hpads hchange hheld]
  cases hsources : (s.hearth n).slot.sources
  case false =>
    obtain ⟨hbits, hothers, hstanding⟩ := countLevel_effect (s := s) (t := (s.countLevel n q low).woken) rfl (standing_woken _)
    exact ⟨_, rfl, hbits, hothers, rfl, rfl, rfl, nofun, fun _ => rfl, hstanding⟩
  case true =>
    obtain ⟨hhearths, hirq, hservice, hhost⟩ := presentChange_frame (s.countLevel n q low) n (vget (s.hearth n).cfg.irq q)
      (inputOf q) (vget (s.hearth n).cfg.entries q) none low
    obtain ⟨hbits, hothers, hstanding⟩ := countLevel_effect hhearths (standing_presentChange _ _ _ _ _ _ _)
    refine ⟨s.sourceLevel n q low, rfl, hbits, hothers, hirq, hservice, hhost, fun _ => sourceLevel_item, ?_, hstanding⟩
    rintro (hnot | hunused)
    · exact nomatch hnot
    · rw [State.sourceLevel, hunused, presentChange_unused]
      rfl

end Sys2Proof.Machine
end

-- ==== Proofs of 01_the_bridge_whole: requests that are turned away ====
section
/-! Host memory requests that end as they arrive (R153, R156, R160, R179, R183, R222, R310, R317, R323, R327): an error is recorded, a
read is completed with UR, and the credits return. -/

namespace Sys2Proof.Machine

open Sys2Proof

/-! ### An error recorded in an exposed function -/

/-- What neither an error nor a completion of an Unsupported Request changes beside the standing parts. -/
def State.beside (s : State) : Fc × Soot × Irq × Switch := (s.fc, s.soot, s.irq, s.sw)

theorem beside_eq_iff (s t : State) :
    t.beside = s.beside ↔ t.fc = s.fc ∧ t.soot = s.soot ∧ t.irq = s.irq ∧ t.sw = s.sw := by
  simp only [State.beside, Prod.mk.injEq]

theorem beside_errMessage (s : State) (f : FnId) (k : Option TxKind) : (s.errMessage f k).beside = s.beside := by
  unfold State.errMessage
  dsimp only
  (repeat' split) <;> rfl

theorem recordUnc_eq {s : State} {f : FnId} (h : s.exposed f.val = true) (e : UncErr) (advisory : Bool) (hdr : Vector Dword 4) :
    s.recordUnc f e advisory hdr =
      (s.modFn f fun c => c.setUnc e advisory hdr).errMessage f ((s.fn f).uncMessage e advisory) := if_pos h

theorem beside_recordUnc (s : State) (f : FnId) (e : UncErr) (advisory : Bool) (hdr : Vector Dword 4) :
    (s.recordUnc f e advisory hdr).beside = s.beside := by
  by_cases h : s.exposed f.val = true
  · rw [recordUnc_eq h]
    exact beside_errMessage _ _ _
  · rw [State.recordUnc, if_neg h]

/-- R310: the function's own error fields are those that `setUnc` records. -/
theorem recordUnc_fn_self {s : State} {f : FnId} (h : s.exposed f.val = true) (e : UncErr) (advisory : Bool) (hdr : Vector Dword 4) :
    ((s.recordUnc f e advisory hdr).fn f).uncSta = ((s.fn f).setUnc e advisory hdr).uncSta ∧
      ((s.recordUnc f e advisory hdr).fn f).corSta = ((s.fn f).setUnc e advisory hdr).corSta := by
  obtain ⟨hunc, hcor, -⟩ :=
    errMessage_fn (s.modFn f fun c => c.setUnc e advisory hdr) f f ((s.fn f).uncMessage e advisory)
  rw [fn_modFn_self] at hunc hcor
  rw [recordUnc_eq h]
  exact ⟨hunc, hcor⟩

theorem recordUnc_fn_ne {s : State} {f g : FnId} (hg : g ≠ f) (e : UncErr) (advisory : Bool) (hdr : Vector Dword 4) :
    (s.recordUnc f e advisory hdr).fn g = s.fn g := by
  by_cases h : s.exposed f.val = true
  · obtain ⟨-, -, hne⟩ := errMessage_fn (s.modFn f fun c => c.setUnc e advisory hdr) f g ((s.fn f).uncMessage e advisory)
    rw [recordUnc_eq h, hne hg, fn_modFn, if_neg hg]
  · rw [State.recordUnc, if_neg h]

/-- R310: an error that is no case of Advisory Non-Fatal sets its uncorrectable bit. -/
theorem setUnc_uncSta (c : FnCfg) (e : UncErr) (hdr : Vector Dword 4) :
    (c.setUnc e false hdr).uncSta = c.uncSta ||| bitOf 32 e.bit := by
  simp only [FnCfg.setUnc, Bool.false_and, Bool.false_eq_true, if_false]

/-- R310: an Unsupported Request as `setUnc` records it; that of a read is a case of Advisory Non-Fatal. -/
theorem uncRecorded_setUnc_ur (c : FnCfg) (read : Bool) (hdr : Vector Dword 4) : uncRecorded c (c.setUnc .ur read hdr) 20 read := by
  cases read with
  | true => exact uncRecorded_setUnc c hdr
  | false => exact ⟨fun _ => setUnc_uncSta c .ur hdr, nofun⟩

theorem uncRecorded_recordUnc_ur {s : State} {f : FnId} (h : s.exposed f.val = true) (read : Bool) (hdr : Vector Dword 4) :
    uncRecorded (s.fn f) ((s.recordUnc f .ur read hdr).fn f) 20 read := by
  obtain ⟨hunc, hcor⟩ := recordUnc_fn_self h .ur read hdr
  exact uncRecorded_congr hunc hcor (uncRecorded_setUnc_ur (s.fn f) read hdr)

/-! ### The completion of an Unsupported Request -/

/-- R222: a read is completed with UR, a write is dropped. -/
def State.answerUr (s : State) (r : HostReq) : State := if r.read then s.sendCpl r .ur [] r.nextOff 0 else s

theorem refuseReq_ur (s : State) (r : HostReq) (logged : Bool) :
    s.refuseReq r .ur (if logged then some .ur else none) =
      (if logged then s.recordUnc r.fn .ur r.read r.hdr else s).answerUr r := by
  cases logged <;> rfl

/-- A completion but that of a Completer Abort is one more TLP, and nothing else. -/
theorem sendCpl_ur (s : State) (r : HostReq) (off : Nat) :
    s.sendCpl r .ur [] off 0 = s.sendTlp { bareTlp .cpl r.fn with addr := off, bytes := [], len := 0, tag := r.tag, status := .ur } := by
  rw [State.sendCpl]
  dsimp only
  rw [if_neg (by decide)]
  rfl

theorem answerUr_frame (s : State) (r : HostReq) :
    (s.answerUr r).beside = s.beside ∧ (s.answerUr r).reqs = s.reqs ∧ (s.answerUr r).fns = s.fns ∧ (s.answerUr r).items = s.items := by
  unfold State.answerUr
  split
  · rw [sendCpl_ur]
    exact ⟨rfl, rfl, rfl, rfl⟩
  · exact ⟨rfl, rfl, rfl, rfl⟩

theorem answerUr_txq_of_write {s : State} {r : HostReq} (h : r.read = false) : (s.answerUr r).txq = s.txq := by
  rw [State.answerUr, if_neg (Bool.eq_false_iff.mp h)]

theorem answerUr_txq_of_read {s : State} {r : HostReq} (h : r.read = true) :
    ∃ u : TxTlp, (s.answerUr r).txq = s.txq ++ [u] ∧ u.kind = .cpl ∧ u.status = .ur ∧ u.tag = r.tag ∧ u.fn = r.fn := by
  obtain ⟨u, hu, hkind, -, hstatus, htag, hfn⟩ := sendCpl_txq s r .ur [] r.nextOff 0
  rw [State.answerUr, if_pos h]
  exact ⟨u, hu, hkind, hstatus, htag, hfn⟩

/-! ### A request that arrives and is closed -/

/-- R153: the request is received and takes its credits. -/
def State.received (s : State) (fn : FnId) (stone read : Bool) (q : MemReq) : State :=
  { s with nextId := s.nextId + 1, wake := true, reqs := s.reqs ++ [s.newReq fn stone read q],
           fc := s.fc.take (!read) (if read then 0 else q.len) }

/-- R152, R153: the credits of a request that is closed return. -/
theorem Fc.giveBack_take (fc : Fc) (posted : Bool) (bytes : Nat) :
    ((fc.take posted bytes).giveBack posted bytes).taken = fc.taken ∧
    ((fc.take posted bytes).giveBack posted bytes).alloc =
      (if posted then { fc.alloc with ph := fc.alloc.ph + 1, pd := fc.alloc.pd + dataUnits bytes }
       else { fc.alloc with nph := fc.alloc.nph + 1, npd := fc.alloc.npd + dataUnits bytes }) := by
  cases posted <;> simp [Fc.take, Fc.giveBack]

/-- Closing a request changes the pool and the credits only. -/
theorem closeReq_frame (s : State) (id : Nat) :
    (s.closeReq id).fns = s.fns ∧ (s.closeReq id).items = s.items ∧ (s.closeReq id).soot = s.soot ∧ (s.closeReq id).irq = s.irq ∧
      (s.closeReq id).sw = s.sw := by
  obtain h | ⟨fc, h⟩ := releaseCredits_cases s id <;> rw [State.closeReq, h] <;> exact ⟨rfl, rfl, rfl, rfl, rfl⟩

/-- The request just received is the one of its number. -/
theorem req_received {s : State} (hids : idsOk s) (fn : FnId) (stone read : Bool) (q : MemReq) :
    (s.reqs ++ [s.newReq fn stone read q]).find? (fun r => r.id = s.nextId) = some (s.newReq fn stone read q) := by
  obtain ⟨hbelow, -⟩ := hids
  have hnone : s.reqs.find? (fun r => r.id = s.nextId) = none := by
    rw [List.find?_eq_none]
    exact fun r hr => by simpa using (hbelow r hr).ne
  rw [List.find?_append, hnone]
  simp [State.newReq]

/-- The requests left when the one just received is closed are those of before. -/
theorem filter_received {s : State} (hids : idsOk s) (fn : FnId) (stone read : Bool) (q : MemReq) :
    (s.reqs ++ [s.newReq fn stone read q]).filter (fun r => r.id ≠ s.nextId) = s.reqs := by
  obtain ⟨hbelow, -⟩ := hids
  have hall : s.reqs.filter (fun r => r.id ≠ s.nextId) = s.reqs :=
    List.filter_eq_self.mpr fun r hr => by simpa using (hbelow r hr).ne
  rw [List.filter_append, hall]
  simp [State.newReq]

/-- R153: when the request just received is closed, the pool is that of before and its credits return. -/
theorem closeReq_received {s v : State} {fn : FnId} {stone read : Bool} {q : MemReq} (hids : idsOk s)
    (hreqs : v.reqs = (s.received fn stone read q).reqs) (hfc : v.fc = (s.received fn stone read q).fc) :
    (v.closeReq s.nextId).reqs = s.reqs ∧ (v.closeReq s.nextId).fc.taken = s.fc.taken ∧
      (v.closeReq s.nextId).fc.alloc =
        (if read then { s.fc.alloc with nph := s.fc.alloc.nph + 1 }
         else { s.fc.alloc with ph := s.fc.alloc.ph + 1, pd := s.fc.alloc.pd + dataUnits q.len }) := by
  have hfind : v.req s.nextId = some (s.newReq fn stone read q) := by
    rw [State.req, hreqs]
    exact req_received hids fn stone read q
  have hback : (v.closeReq s.nextId).fc =
      (s.fc.take (!read) (if read then 0 else q.len)).giveBack (!read) (if read then 0 else q.len) := by
    have hrelease : (v.releaseCredits s.nextId).fc = v.fc.giveBack (!read) (if read then 0 else q.len) := by
      rw [State.releaseCredits, hfind]
      rfl
    exact hrelease.trans (congrArg (Fc.giveBack · (!read) (if read then 0 else q.len)) hfc)
  obtain ⟨htaken, halloc⟩ := Fc.giveBack_take s.fc (!read) (if read then 0 else q.len)
  refine ⟨?_, by rw [hback, htaken], ?_⟩
  · rw [closeReq_reqs, hreqs]
    exact filter_received hids fn stone read q
  · rw [hback, halloc]
    cases read <;> simp [dataUnits]

/-! ### The two ends of a request that arrives -/

/-- R222, R323: the request is received, and its error recorded if `logged`. -/
def State.urRecorded (s : State) (fn : FnId) (stone read logged : Bool) (q : MemReq) : State :=
  if logged then (s.received fn stone read q).recordUnc fn .ur read q.hdr else s.received fn stone read q

/-- R222: an Unsupported Request as it arrives. -/
def State.refusedAtOnce (s : State) (fn : FnId) (stone read logged : Bool) (q : MemReq) : State :=
  ((s.urRecorded fn stone read logged q).answerUr (s.newReq fn stone read q)).closeReq s.nextId

/-- R160: a Malformed TLP as it arrives. -/
def State.malformedAtOnce (s : State) (fn : FnId) (stone : Bool) (q : MemReq) : State :=
  ((s.received fn stone false q).recordUnc fn .malformed false q.hdr).closeReq s.nextId

theorem refuseReq_received (s : State) (fn : FnId) (stone read logged : Bool) (q : MemReq) :
    ((s.received fn stone read q).refuseReq (s.newReq fn stone read q) .ur (if logged then some .ur else none)).closeReq s.nextId =
      s.refusedAtOnce fn stone read logged q := by
  rw [refuseReq_ur]
  rfl

theorem arrive_turnedAway {s : State} {fn : FnId} {read logged : Bool} {q : MemReq} (stone : Bool) (serve : Nat → State → State)
    (hlen : read = true ∨ q.len ≤ (s.fn fn).mps) (haway : s.turnedAway fn = some logged) :
    s.arrive fn stone read q serve = s.refusedAtOnce fn stone read logged q := by
  have hfits : ¬ ((!read) = true ∧ (s.fn fn).mps < q.len) := by
    rintro ⟨hwrite, hlong⟩
    rcases hlen with hread | hshort
    · rw [hread] at hwrite
      exact Bool.false_ne_true hwrite
    · exact Nat.not_lt.mpr hshort hlong
  rw [State.arrive, if_neg hfits, haway, ← refuseReq_received]
  rfl

theorem arrive_malformed {s : State} {fn : FnId} {q : MemReq} (stone : Bool) (serve : Nat → State → State)
    (hlong : (s.fn fn).mps < q.len) : s.arrive fn stone false q serve = s.malformedAtOnce fn stone q := if_pos ⟨rfl, hlong⟩

theorem noFunction_eq (s : State) (read : Bool) (q : MemReq) : s.noFunction read q = s.refusedAtOnce 0 false read true q :=
  refuseReq_received s 0 false read true q

/-- R179, R183, R317, R327: what turns a request away, and whether its error is recorded. -/
theorem turnedAway_eq {s : State} {f : FnId}
    (h : (s.fn f).flr.isSome = true ∨ s.mode.tests = true ∨ s.mode = .m7 ∨ (s.fn f).mse = false ∨ (s.fn f).power ≠ .d0) :
    s.turnedAway f = some ((s.fn f).flr.isNone || s.drainsFor f) := by
  unfold State.turnedAway
  cases hflr : (s.fn f).flr with
  | some tick => rfl
  | none =>
    rw [hflr] at h
    rw [if_neg (by decide), if_pos]
    · rfl
    · rcases h with h | h | h | h | h
      · exact nomatch h
      all_goals simp [h]

section

variable {s : State} {fn : FnId} {stone read logged : Bool} {q : MemReq}

theorem beside_urRecorded : (s.urRecorded fn stone read logged q).beside = (s.received fn stone read q).beside := by
  cases logged
  · rfl
  · exact beside_recordUnc _ fn .ur read q.hdr

theorem untouched_urRecorded : Untouched (s.received fn stone read q) (s.urRecorded fn stone read logged q) := by
  cases logged
  · exact .refl _
  · exact untouched_recordUnc _ fn .ur read q.hdr

theorem refusedAtOnce_standing : (s.refusedAtOnce fn stone read logged q).standing = s.standing := by
  rw [← refuseReq_received, standing_closeReq, standing_refuseReq]
  rfl

/-- R153: the pool stands and the credits return. -/
theorem refusedAtOnce_pool (hids : idsOk s) :
    (s.refusedAtOnce fn stone read logged q).reqs = s.reqs ∧ (s.refusedAtOnce fn stone read logged q).fc.taken = s.fc.taken ∧
      (s.refusedAtOnce fn stone read logged q).fc.alloc =
        (if read then { s.fc.alloc with nph := s.fc.alloc.nph + 1 }
         else { s.fc.alloc with ph := s.fc.alloc.ph + 1, pd := s.fc.alloc.pd + dataUnits q.len }) := by
  obtain ⟨hbeside, hreqs, -, -⟩ := answerUr_frame (s.urRecorded fn stone read logged q) (s.newReq fn stone read q)
  obtain ⟨hfc, -⟩ := (beside_eq_iff _ _).mp (hbeside.trans beside_urRecorded)
  exact closeReq_received hids (hreqs.trans untouched_urRecorded.reqs) hfc

theorem refusedAtOnce_beside : (s.refusedAtOnce fn stone read logged q).soot = s.soot ∧
    (s.refusedAtOnce fn stone read logged q).irq = s.irq ∧ (s.refusedAtOnce fn stone read logged q).sw = s.sw := by
  obtain ⟨hbeside, -⟩ := answerUr_frame (s.urRecorded fn stone read logged q) (s.newReq fn stone read q)
  obtain ⟨-, hsoot, hirq, hsw⟩ := (beside_eq_iff _ _).mp (hbeside.trans beside_urRecorded)
  obtain ⟨-, -, hsoot', hirq', hsw'⟩ := closeReq_frame
    ((s.urRecorded fn stone read logged q).answerUr (s.newReq fn stone read q)) s.nextId
  exact ⟨hsoot'.trans hsoot, hirq'.trans hirq, hsw'.trans hsw⟩

theorem refusedAtOnce_fns_items : (s.refusedAtOnce fn stone read logged q).fns = (s.urRecorded fn stone read logged q).fns ∧
    (s.refusedAtOnce fn stone read logged q).items = (s.urRecorded fn stone read logged q).items := by
  obtain ⟨-, -, hfns, hitems⟩ := answerUr_frame (s.urRecorded fn stone read logged q) (s.newReq fn stone read q)
  obtain ⟨hfns', hitems', -⟩ := closeReq_frame
    ((s.urRecorded fn stone read logged q).answerUr (s.newReq fn stone read q)) s.nextId
  exact ⟨hfns'.trans hfns, hitems'.trans hitems⟩

theorem refusedAtOnce_fn (g : FnId) :
    (s.refusedAtOnce fn stone read logged q).fn g = (s.urRecorded fn stone read logged q).fn g :=
  congrArg (vget · g) refusedAtOnce_fns_items.1

/-- R323: an error that is not recorded leaves the functions and the ledger's items alone. -/
theorem refusedAtOnce_unlogged : (s.refusedAtOnce fn stone read false q).fns = s.fns ∧
    (s.refusedAtOnce fn stone read false q).items = s.items := refusedAtOnce_fns_items

theorem refusedAtOnce_logged (hexposed : s.exposed fn.val = true) :
    uncRecorded (s.fn fn) ((s.refusedAtOnce fn stone read true q).fn fn) 20 read := by
  rw [refusedAtOnce_fn]
  exact uncRecorded_recordUnc_ur (s := s.received fn stone read q) hexposed read q.hdr

theorem refusedAtOnce_fn_ne {g : FnId} (hg : g ≠ fn) : (s.refusedAtOnce fn stone read logged q).fn g = s.fn g := by
  rw [refusedAtOnce_fn]
  cases logged
  · rfl
  · exact recordUnc_fn_ne hg .ur read q.hdr

theorem refusedAtOnce_txq_of_write (h : read = false) : (s.refusedAtOnce fn stone read logged q).txq = s.txq := by
  rw [State.refusedAtOnce, closeReq_txq, answerUr_txq_of_write h]
  exact untouched_urRecorded.txq

theorem refusedAtOnce_txq_of_read (h : read = true) : ∃ u : TxTlp, (s.refusedAtOnce fn stone read logged q).txq = s.txq ++ [u] ∧
    u.kind = .cpl ∧ u.status = .ur ∧ u.tag = q.tag ∧ u.fn = fn := by
  obtain ⟨u, hu, hspec⟩ :=
    answerUr_txq_of_read (s := s.urRecorded fn stone read logged q) (r := s.newReq fn stone read q) h
  have htxq : (s.urRecorded fn stone read logged q).txq = s.txq := untouched_urRecorded.txq
  refine ⟨u, ?_, hspec⟩
  rw [State.refusedAtOnce, closeReq_txq, hu, htxq]

end

/-! ### The statement -/

/-- A memory request arrives at function `f`, which is exposed, by the command `c`. -/
def reachesFn (s : State) (c : Instr) (f : FnId) (read : Bool) (q : MemReq) : Prop :=
  (∃ h, s.exposed (fnOfChimney h).val = true ∧ f = fnOfChimney h ∧ c = if read then .memoryReadBar0 h q else .memoryWriteBar0 h q) ∨
    (f = 0 ∧ c = if read then .memoryReadBar2 q else .memoryWriteBar2 q)

theorem exec_memoryBar0 (h : Fin 64) (read : Bool) (q : MemReq) (s : State) :
    exec (if read then .memoryReadBar0 h q else .memoryWriteBar0 h q) s = .next (s.bar0 h read q) := by
  cases read <;> rfl

theorem exec_memoryBar2 (read : Bool) (q : MemReq) (s : State) :
    exec (if read then .memoryReadBar2 q else .memoryWriteBar2 q) s = .next (s.bar2 read q) := by
  cases read <;> rfl

/-- Both commands of a request to a function are arrivals at it. -/
theorem exec_reachesFn {s : State} {c : Instr} {f : FnId} {read : Bool} {q : MemReq} (hup : s.hostLinkUp = true)
    (h : reachesFn s c f read q) :
    s.exposed f.val = true ∧ ∃ stone serve, exec c s = .next (s.arrive f stone read q serve) := by
  rcases h with ⟨h, hexposed, rfl, rfl⟩ | ⟨rfl, rfl⟩
  · exact ⟨hexposed, false, State.serveBar0 h, by rw [exec_memoryBar0, State.bar0, if_pos hup, if_pos hexposed]⟩
  · exact ⟨exposed_zero_of_hostLinkUp hup, true, fun id s => s.serveBar2 id, by rw [exec_memoryBar2, State.bar2, if_pos hup]⟩

theorem exec_noFunction {s : State} (hup : s.hostLinkUp = true) {h : Fin 64} (hhidden : s.exposed (fnOfChimney h).val = false)
    (read : Bool) (q : MemReq) : exec (if read then .memoryReadBar0 h q else .memoryWriteBar0 h q) s =
      .next (s.refusedAtOnce 0 false read true q) := by
  rw [exec_memoryBar0, State.bar0, if_pos hup, if_neg (Bool.eq_false_iff.mp hhidden), noFunction_eq]

/-- R160: a Malformed TLP is dropped, its credits return, and its error is recorded. -/
theorem malformedAtOnce_effect {s : State} {f : FnId} (hids : idsOk s) (hexposed : s.exposed f.val = true) (stone : Bool) (q : MemReq) :
    (s.malformedAtOnce f stone q).reqs = s.reqs ∧ (s.malformedAtOnce f stone q).txq = s.txq ∧
    (s.malformedAtOnce f stone q).fc.taken = s.fc.taken ∧ (s.malformedAtOnce f stone q).fc.alloc.ph = s.fc.alloc.ph + 1 ∧
    (s.malformedAtOnce f stone q).fc.alloc.pd = s.fc.alloc.pd + dataUnits q.len ∧
    ((s.malformedAtOnce f stone q).fn f).uncSta = (s.fn f).uncSta ||| 0x40000 ∧
    (∀ g, g ≠ f → (s.malformedAtOnce f stone q).fn g = s.fn g) ∧ (s.malformedAtOnce f stone q).soot = s.soot ∧
    (s.malformedAtOnce f stone q).standing = s.standing := by
  have hsame := untouched_recordUnc (s.received f stone false q) f .malformed false q.hdr
  obtain ⟨hfc, hsoot, -⟩ := (beside_eq_iff _ _).mp (beside_recordUnc (s.received f stone false q) f .malformed false q.hdr)
  obtain ⟨hreqs, htaken, halloc⟩ := closeReq_received hids hsame.reqs hfc
  obtain ⟨hfns, -, hsoot', -⟩ :=
    closeReq_frame ((s.received f stone false q).recordUnc f .malformed false q.hdr) s.nextId
  obtain ⟨hunc, -⟩ := recordUnc_fn_self (s := s.received f stone false q) hexposed .malformed false q.hdr
  refine ⟨hreqs, (closeReq_txq _ _).trans hsame.txq, htaken, congrArg RxCounts.ph halloc, congrArg RxCounts.pd halloc, ?_, fun g hg => ?_,
    hsoot'.trans hsoot, ?_⟩
  · exact (congrArg (fun v => (vget v f).uncSta) hfns).trans (hunc.trans (setUnc_uncSta _ _ _))
  · exact (congrArg (vget · g) hfns).trans (recordUnc_fn_ne hg .malformed false q.hdr)
  · rw [State.malformedAtOnce, standing_closeReq, standing_recordUnc]
    rfl

/-- Settles O36: each of these requests is closed as it arrives, with its credits (`closeReq_received`), and what it leaves is the
error recorded and the completion of a read. -/
theorem requestsTurnedAway : Obligations.RequestsTurnedAway := by
  unfold Obligations.RequestsTurnedAway
  refine ⟨fun c f read q s hup hids _ hreach hlen haway => ?_, fun h read q s hup hids _ hhidden => ?_,
    fun c f q s hup hids _ hreach hlong => ?_⟩
  · obtain ⟨hexposed, stone, serve, hexec⟩ := exec_reachesFn hup hreach
    rw [hexec, arrive_turnedAway stone serve hlen (turnedAway_eq haway)]
    obtain ⟨hreqs, htaken, halloc⟩ := refusedAtOnce_pool hids
    obtain ⟨hsoot, hirq, hsw⟩ := refusedAtOnce_beside
    refine ⟨_, rfl, hreqs, htaken, ?_, ?_, ?_, ?_, fun g => refusedAtOnce_fn_ne, hsoot, hirq, hsw, refusedAtOnce_standing⟩
    · rintro rfl
      exact ⟨congrArg RxCounts.nph halloc, refusedAtOnce_txq_of_read rfl⟩
    · rintro rfl
      exact ⟨refusedAtOnce_txq_of_write rfl, congrArg RxCounts.ph halloc, congrArg RxCounts.pd halloc⟩
    · intro hflr hquiet
      have hunlogged : ((s.fn f).flr.isNone || s.drainsFor f) = false := by
        rw [hquiet, Bool.or_false, ← Option.not_isSome, hflr]
        rfl
      rw [hunlogged]
      exact refusedAtOnce_unlogged
    · intro hlogs
      have hlogged : ((s.fn f).flr.isNone || s.drainsFor f) = true := by
        rcases hlogs with hnone | hdrains
        · rw [hnone]
          rfl
        · rw [hdrains, Bool.or_true]
      rw [hlogged]
      exact refusedAtOnce_logged hexposed
  · obtain ⟨hreqs, htaken, -⟩ := refusedAtOnce_pool hids
    exact ⟨_, exec_noFunction hup hhidden read q, hreqs, htaken, refusedAtOnce_txq_of_write, refusedAtOnce_txq_of_read,
      refusedAtOnce_logged (exposed_zero_of_hostLinkUp hup), fun g => refusedAtOnce_fn_ne, refusedAtOnce_standing⟩
  · have hreach' : reachesFn s c f false q := hreach
    obtain ⟨hexposed, stone, serve, hexec⟩ := exec_reachesFn hup hreach'
    rw [hexec, arrive_malformed stone serve hlong]
    exact ⟨_, rfl, malformedAtOnce_effect hids hexposed stone q⟩

end Sys2Proof.Machine
end

-- ==== Proofs of 02_package_and_balls: boundary scan ====
section
/-! Boundary scan (R52 to R54, R336 to R339): the instruction that a code selects, the cells captured, and the registers of
MIRROR and LANEREPORT as rows of equal blocks. -/

namespace Sys2Proof.Machine

open Sys2Proof

/-! ### Instruction codes -/

/-- R336: the codes listed for an instruction other than BYPASS. -/
def listedCodes : List (BitVec 8) := [0x00, 0x01, 0x02, 0x04, 0x05, 0x08, 0x09, 0x10, 0x11]

theorem ofCode_code (i : TapInstr) : TapInstr.ofCode (BitVec.ofNat 8 i.code) = i := by
  cases i <;> rfl

theorem ofCode_of_not_listed {b : BitVec 8} (h : b ∉ listedCodes) : TapInstr.ofCode b = .bypass := by
  rw [TapInstr.ofCode, List.find?_eq_none.mpr]
  · rfl
  · intro i hi hcode
    have hlisted : ∀ i ∈ ([.extest, .idcode, .samplePreload, .clamp, .highz, .extestPulse, .extestTrain, .mirror, .lanereport] : List TapInstr),
        BitVec.ofNat 8 i.code ∈ listedCodes := by decide
    exact h (of_decide_eq_true hcode ▸ hlisted i hi)

theorem ofCode_ne_bypass_of_listed {b : BitVec 8} (h : b ∈ listedCodes) : TapInstr.ofCode b ≠ .bypass :=
  (by decide : ∀ b ∈ listedCodes, TapInstr.ofCode b ≠ .bypass) b h

theorem load_code (x : Tap) (i : TapInstr) (dr : List Bool) :
    x.load (BitVec.ofNat 8 i.code) dr = { x with ir := BitVec.ofNat 8 i.code, irCap := 1, instr := i, dr := dr } := by
  rw [Tap.load, ofCode_code]
  rfl

theorem select_eq (s : State) (i : TapInstr) (dr : List Bool) :
    s.select i dr = { s with tap := { s.tap with ir := BitVec.ofNat 8 i.code, irCap := 1, instr := i, dr := dr } } := by
  rw [State.select, load_code]

theorem exec_bypass_of_not_listed {b : BitVec 8} (h : b ∉ listedCodes) (s : State) :
    exec (.bypass b) s = .next { s with tap := { s.tap with ir := b, irCap := 1, instr := .bypass, dr := [false] } } := by
  have hcode := ofCode_of_not_listed h
  refine (if_pos hcode).trans ?_
  rw [Tap.load, hcode]
  rfl

theorem exec_bypass_of_listed {b : BitVec 8} (h : b ∈ listedCodes) (s : State) : exec (.bypass b) s = .next s :=
  if_neg (ofCode_ne_bypass_of_listed h)

/-! ### Registers of equal blocks -/

theorem getD_map_range {α : Type} (f : Nat → α) {n k : Nat} (h : k < n) (d : α) : ((List.range n).map f).getD k d = f k := by
  simp [h]

@[simp] theorem length_bitsOf (n k : Nat) : (bitsOf n k).length = k := by
  simp [bitsOf]

theorem getD_bitsOf {n k i : Nat} (h : i < k) : (bitsOf n k).getD i false = n.testBit i :=
  getD_map_range _ h false

theorem length_flatMap_blocks {α : Type} {f : α → List Bool} {w : Nat} (hw : ∀ a, (f a).length = w) (l : List α) :
    (l.flatMap f).length = l.length * w := by
  simp [List.length_flatMap, hw]

/-- Bit `k` of block `i`. -/
theorem getD_flatMap_blocks {α : Type} {f : α → List Bool} {w : Nat} (hw : ∀ a, (f a).length = w) {l : List α} {i k : Nat}
    (hi : i < l.length) (hk : k < w) : (l.flatMap f).getD (w * i + k) false = (f l[i]).getD k false := by
  induction l generalizing i with
  | nil => exact absurd hi (Nat.not_lt_zero i)
  | cons a l ih =>
    rw [List.flatMap_cons]
    cases i with
    | zero =>
      rw [Nat.mul_zero, Nat.zero_add, List.getD_append _ _ _ _ (hk.trans_eq (hw a).symm)]
      rfl
    | succ i =>
      rw [List.getD_append_right _ _ _ _ (by rw [hw, Nat.mul_succ]; omega), hw,
        show w * (i + 1) + k - w = w * i + k by rw [Nat.mul_succ]; omega]
      exact ih (Nat.lt_of_succ_lt_succ hi)

/-! ### The boundary register -/

theorem length_captureBoundary (upd levels : List Bool) : (captureBoundary upd levels).length = 1740 := by
  simp [captureBoundary, boundaryCells]

/-- R337: a control cell captures its update value. -/
theorem captureBoundary_control {upd levels : List Bool} {k : Nat} {n : HearthId} {g : Fin 4} (h : k < 1740)
    (hkind : cellKind k = .control n g) : (captureBoundary upd levels).getD k false = upd.getD k false :=
  (getD_map_range _ h false).trans (by simp only [hkind])

/-- R337: every other cell captures the level at its ball. -/
theorem captureBoundary_ball {upd levels : List Bool} {k : Nat} (h : k < 1740) (hkind : ∀ n g, cellKind k ≠ .control n g) :
    (captureBoundary upd levels).getD k false = levels.getD k false := by
  refine (getD_map_range _ h false).trans ?_
  split
  · next hcontrol => exact absurd hcontrol (hkind _ _)
  · rfl

theorem boundary_eq (s : State) (i : TapInstr) (levels values : List Bool) :
    s.boundary i levels values = { s with tap :=
      { ir := BitVec.ofNat 8 i.code, irCap := 1, instr := i, dr := captureBoundary s.tap.upd levels, upd := values } } := by
  rw [State.boundary, load_code]

theorem scanDrives_iff (s : State) :
    s.scanDrives = true ↔ s.tap.instr = .extest ∨ s.tap.instr = .extestPulse ∨ s.tap.instr = .extestTrain := by
  rw [State.scanDrives]
  cases s.tap.instr <;> simp

/-! ### MIRROR and LANEREPORT -/

/-- R339: the balls in the order of the Strap Mirror. -/
def State.mirrorBalls (s : State) : List Ball := s.straps.globals.toList ++ s.hearths.toList.flatMap fun h => h.balls.toList

/-- R339: the byte of one ball. -/
def Ball.bits (b : Ball) : List Bool := bitsOf b.byte 8

theorem length_ballBits (b : Ball) : b.bits.length = 8 := length_bitsOf _ _

theorem mirrorBits_eq (s : State) : s.mirrorBits = s.mirrorBalls.flatMap Ball.bits := rfl

theorem length_mirrorBalls (s : State) : s.mirrorBalls.length = 1284 := by
  simp [State.mirrorBalls, List.length_flatMap]

theorem length_mirrorBits (s : State) : s.mirrorBits.length = 1284 * 8 := by
  rw [mirrorBits_eq, length_flatMap_blocks length_ballBits, length_mirrorBalls]

/-- R339: the global straps come first. -/
theorem getD_mirrorBits (s : State) (g : Fin 180) (k : Fin 8) :
    s.mirrorBits.getD (8 * g.val + k.val) false = (vget s.straps.globals g).byte.testBit k.val := by
  have hg : g.val < s.mirrorBalls.length := by
    rw [length_mirrorBalls]
    omega
  have hball : s.mirrorBalls[g.val] = vget s.straps.globals g := List.getElem_append_left (by simp)
  rw [mirrorBits_eq, getD_flatMap_blocks length_ballBits hg k.isLt, hball]
  exact getD_bitsOf k.isLt

/-- R339: the bits of one lane. -/
def State.laneWord (s : State) (l : LaneId) : List Bool :=
  if s.mode.tests then bitsOf (s.testDword l false).toNat 32 ++ bitsOf (s.testDword l true).toNat 32 else bitsOf 0 64

theorem length_laneWord (s : State) (l : LaneId) : (s.laneWord l).length = 64 := by
  unfold State.laneWord
  split <;> simp

theorem laneBits_eq (s : State) : s.laneBits = (List.finRange 32).flatMap s.laneWord := rfl

theorem length_laneBits (s : State) : s.laneBits.length = 32 * 64 := by
  rw [laneBits_eq, length_flatMap_blocks (length_laneWord s), List.length_finRange]

/-- R339: outside M5 and M6 every lane result is 0. -/
theorem laneWord_of_not_tests {s : State} (h : s.mode.tests = false) (l : LaneId) : s.laneWord l = bitsOf 0 64 :=
  if_neg (Bool.eq_false_iff.mp h)

theorem getD_laneBits_of_not_tests {s : State} (h : s.mode.tests = false) (k : Nat) : s.laneBits.getD k false = false := by
  have hzero : ∀ b ∈ s.laneBits, b = false := by
    intro b hb
    rw [laneBits_eq] at hb
    obtain ⟨l, -, hl⟩ := List.mem_flatMap.mp hb
    rw [laneWord_of_not_tests h] at hl
    obtain ⟨i, -, rfl⟩ := List.mem_map.mp hl
    exact Nat.zero_testBit i
  rw [List.getD_eq_getElem?_getD]
  cases hk : s.laneBits[k]? with
  | none => rfl
  | some b => exact hzero b (List.mem_of_getElem? hk)

/-! ### The statement -/

/-- R337: what a boundary instruction captures and updates. -/
theorem boundary_effect {s t : State} {i : TapInstr} {levels values : List Bool} (ht : t = s.boundary i levels values) :
    t = { s with tap := t.tap } ∧ t.tap.instr = i ∧ t.tap.upd = values ∧ t.tap.dr.length = 1740 ∧
    (∀ k, k < 1740 → (∀ n g, cellKind k ≠ .control n g) → t.tap.dr.getD k false = levels.getD k false) ∧
    (∀ k n g, k < 1740 → cellKind k = .control n g → t.tap.dr.getD k false = s.tap.upd.getD k false) ∧
    (t.scanDrives = true ↔ i = .extest ∨ i = .extestPulse ∨ i = .extestTrain) ∧ t.tap.irCap = 1 ∧ TapInstr.ofCode t.tap.ir = i := by
  rw [boundary_eq] at ht
  have hdr : t.tap.dr = captureBoundary s.tap.upd levels := by rw [ht]
  rw [hdr, scanDrives_iff]
  subst ht
  exact ⟨rfl, rfl, rfl, length_captureBoundary _ _, fun k => captureBoundary_ball, fun k n g => captureBoundary_control,
    Iff.rfl, rfl, ofCode_code i⟩

/-- R336, R338: under HIGHZ every output floats. -/
theorem scanOutput_of_highz {s : State} (h : s.tap.instr = .highz) {k : Nat} (hk : outputCell k = true) :
    s.scanOutput k = some .floating := by
  rw [State.scanOutput, if_pos h, if_pos hk]

/-- Settles O59: a command loads its instruction's code (`ofCode_code`) with the register that the instruction captures:
`captureBoundary` cell by cell, the strap bytes and the lane results block by block. -/
theorem boundaryScan : Obligations.BoundaryScan := by
  unfold Obligations.BoundaryScan
  refine fun s => ⟨?_, ?_, ?_, fun b hb => exec_bypass_of_listed hb s, ?_, ?_, ?_, ?_, rfl⟩
  · intro c i levels values hc
    have hexec : exec c s = .next (s.boundary i levels values) := by
      rcases hc with ⟨rfl, rfl⟩ | ⟨rfl, rfl⟩ | ⟨rfl, rfl⟩ | ⟨rfl, rfl⟩ <;> rfl
    have hdrives : i = .extest ∨ i = .extestPulse ∨ i = .extestTrain ↔ i ≠ .samplePreload := by
      rcases hc with ⟨-, rfl⟩ | ⟨-, rfl⟩ | ⟨-, rfl⟩ | ⟨-, rfl⟩ <;> decide
    refine ⟨_, hexec, ?_⟩
    rw [← hdrives]
    exact boundary_effect rfl
  · refine ⟨_, rfl, select_eq s .idcode _, length_bitsOf _ _, fun k hk => getD_bitsOf hk⟩
  · rintro c i b (⟨rfl, rfl, rfl⟩ | ⟨rfl, rfl, rfl⟩ | ⟨rfl, rfl, hb⟩)
    · exact congrArg Host.Outcome.next (select_eq s .clamp [false])
    · exact congrArg Host.Outcome.next (select_eq s .highz [false])
    · exact exec_bypass_of_not_listed hb s
  · rintro t ⟨⟩ k - hk
    exact scanOutput_of_highz (congrArg (·.tap.instr) (select_eq s .highz [false])) hk
  · rintro t ⟨⟩
    exact ⟨rfl, rfl⟩
  · exact ⟨_, rfl, select_eq s .mirror _, length_mirrorBits s, getD_mirrorBits s⟩
  · exact ⟨_, rfl, select_eq s .lanereport _, length_laneBits s, getD_laneBits_of_not_tests⟩

end Sys2Proof.Machine
end

-- ==== Proofs of 02_package_and_balls: what an event of one hearth leaves alone ====
section
/-! What an event of one hearth's slot (R213, R214, R218, R219) leaves alone: of the standing parts everything but the straps, the
domains and that hearth (`HearthsOnly`), and of the work, a hearth with no cycle and no lock stays so (`StaysIdle`). -/

namespace Sys2Proof.Machine

open Sys2Proof

/-! ### Two relations -/

/-- From `s` to `t` the standing parts are the same but for the straps, the domains and the hearths of `l`, and a strap reader
without a job has none. -/
structure HearthsOnly (l : List HearthId) (s t : State) : Prop where
  standing : t.standing = { s.standing with doms := t.doms, straps := t.straps, hearths := t.standing.hearths }
  others : ∀ m, m ∉ l → (t.hearth m).steady = (s.hearth m).steady
  job : s.straps.job = none → t.straps.job = none

/-- From `s` to `t` no hearth has begun a cycle or a lock. -/
structure StaysIdle (s t : State) : Prop where
  cyc : ∀ n, (s.hearth n).cyc = none → (t.hearth n).cyc = none
  lock : ∀ n, (s.hearth n).lock = none → (t.hearth n).lock = none

section HearthsOnly

variable {l : List HearthId} {s t u : State}

theorem HearthsOnly.of_standing (h : t.standing = s.standing) : HearthsOnly l s t := by
  refine ⟨?_, fun m _ => hearth_steady_of_standing h m, fun hjob => ?_⟩
  · rw [← h]
    rfl
  · exact (congrArg (fun x : Standing => x.straps.job) h).trans hjob

theorem HearthsOnly.trans (h : HearthsOnly l s t) (k : HearthsOnly l t u) : HearthsOnly l s u := by
  refine ⟨k.standing.trans ?_, fun m hm => (k.others m hm).trans (h.others m hm), fun hjob => k.job (h.job hjob)⟩
  exact congrArg (fun x : Standing => { x with doms := u.doms, straps := u.straps, hearths := u.standing.hearths }) h.standing

theorem HearthsOnly.mono {l' : List HearthId} (h : HearthsOnly l s t) (hl : l ⊆ l') : HearthsOnly l' s t :=
  ⟨h.standing, fun m hm => h.others m fun hmem => hm (hl hmem), h.job⟩

theorem HearthsOnly.now (h : HearthsOnly l s t) : t.now = s.now := congrArg (fun x : Standing => x.clk.tally) h.standing

theorem hearthsOnly_modHearth (s : State) (n : HearthId) (f : Hearth → Hearth) : HearthsOnly [n] s (s.modHearth n f) :=
  ⟨rfl, fun m hm => congrArg Hearth.steady (hearth_modHearth_ne s n m f fun h => hm (h ▸ List.mem_singleton.mpr rfl)), id⟩

theorem HearthsOnly.forList {α : Type} {l : List HearthId} (xs : List α) (f : α → State → State)
    (h : ∀ x ∈ xs, ∀ s, HearthsOnly l s (f x s)) (s : State) : HearthsOnly l s (forList xs f s) := by
  induction xs generalizing s with
  | nil => exact .of_standing rfl
  | cons x xs ih => exact (h x List.mem_cons_self s).trans (ih (fun y hy => h y (List.mem_cons_of_mem x hy)) (f x s))

end HearthsOnly

section StaysIdle

variable {s t u : State}

theorem WorkEnds.staysIdle (h : WorkEnds s t) : StaysIdle s t := ⟨h.cyc, h.lock⟩

theorem StaysIdle.of_hearths (h : t.hearths = s.hearths) : StaysIdle s t := by
  have hh : ∀ n, t.hearth n = s.hearth n := fun n => congrArg (vget · n) h
  exact ⟨fun n => by rw [hh]; exact id, fun n => by rw [hh]; exact id⟩

theorem StaysIdle.trans (h : StaysIdle s t) (k : StaysIdle t u) : StaysIdle s u :=
  ⟨fun n hn => k.cyc n (h.cyc n hn), fun n hn => k.lock n (h.lock n hn)⟩

theorem StaysIdle.forList {α : Type} (xs : List α) (f : α → State → State) (h : ∀ x s, StaysIdle s (f x s)) (s : State) :
    StaysIdle s (forList xs f s) := by
  induction xs generalizing s with
  | nil => exact .of_hearths rfl
  | cons x xs ih => exact (h x s).trans (ih (f x s))

end StaysIdle

/-! ### Requests and arrivals held for a hearth -/

theorem workEnds_decoded (s : State) (id : Nat) (ps : List (DWin × Nat × Nat)) (pooled : Bool) (from' : Tally) :
    WorkEnds s (s.decoded id ps pooled from') := by
  unfold State.decoded
  refine WorkEnds.trans ?_ (workEnds_tryIssue _ id)
  exact workEnds_modReq s id _ fun _ => ⟨rfl, rfl, rfl⟩

theorem untouched_writeFault (s : State) (e : FaultEntry) : Untouched s (s.writeFault e) := ⟨rfl, rfl, rfl, rfl, rfl⟩

theorem workEnds_decodeReq (s : State) (id : Nat) : WorkEnds s (s.decodeReq id) := by
  unfold State.decodeReq
  split
  · exact .refl s
  dsimp only
  split
  · exact workEnds_missReq s id
  split
  · exact workEnds_decoded s id _ _ _
  · exact ((untouched_writeFault s _).workEnds.trans (workEnds_refuseReq _ _ _ _)).trans (workEnds_closeReq _ id)

theorem workEnds_placeReq (s : State) (id : Nat) (n : HearthId) : WorkEnds s (s.placeReq id n) := by
  unfold State.placeReq
  (repeat' split)
  · exact .refl s
  · exact workEnds_decodeReq s id
  · exact .refl s
  · exact workEnds_decodeReq s id
  · exact workEnds_missReq s id
  · exact .refl s
  · exact workEnds_missReq s id

theorem workEnds_takeFarLock (s : State) (p : Piece) (m : HearthId) : WorkEnds s (s.takeFarLock p m) := by
  have hkeeps : ∀ (s : State) (f : Hearth → Hearth), (∀ x, (f x).cyc = x.cyc ∧ (f x).lock = x.lock) →
      WorkEnds s (s.modHearth m f) := fun s f => workEnds_modHearth_keeps s m f
  unfold State.takeFarLock
  split
  · exact .refl s
  dsimp only
  split
  · exact .refl s
  split
  · (repeat' split)
    · exact hkeeps s _ fun _ => ⟨rfl, rfl⟩
    · exact hkeeps s _ fun _ => ⟨rfl, rfl⟩
    · exact .refl s
    · exact hkeeps s _ fun _ => ⟨rfl, rfl⟩
    · exact hkeeps s _ fun _ => ⟨rfl, rfl⟩
    · exact .refl s
  · refine WorkEnds.trans ?_ (hkeeps _ _ fun _ => ⟨rfl, rfl⟩)
    (repeat' split)
    · exact workEnds_endFarLock s m false
    · exact .refl s
    · exact workEnds_endFarLock s m false
    · exact .refl s

theorem untouched_faultArrival (s : State) (b : PieceBlk) (m : HearthId) (a : Nat) (key : BitVec 4) :
    Untouched s (s.faultArrival b m a key) := by
  have hlog : ∀ s1, Untouched s s1 → Untouched s (if b.srcPort.val < 16 then s1.logEvent (s.arrivalFn b) else s1) := by
    intro s1 h
    split
    · exact h.trans (untouched_logEvent s1 _)
    · exact h
  have hfault : ∀ (lead : Bool) (e : FaultEntry), Untouched s (if lead then s.writeFault e else s) := by
    intro lead e
    split
    · exact untouched_writeFault s e
    · exact .refl s
  exact (hlog _ (hfault _ _)).trans (untouched_refuseArrival _ b _)

theorem workEnds_decodeArrival (s : State) (f : FlueId) (b : PieceBlk) (m : HearthId) : WorkEnds s (s.decodeArrival f b m) := by
  unfold State.decodeArrival
  dsimp only
  split
  · split
    · exact (untouched_faultArrival s b m _ _).workEnds
    split
    · exact (untouched_control s _ _).workEnds
    · exact (workEnds_takeFarLock s _ m).trans (untouched_presentArrival _ f b _ _ _).workEnds
  · exact (untouched_farArrival s f b).workEnds

theorem workEnds_landHearth (s : State) (f : FlueId) (b : PieceBlk) (m : HearthId) : WorkEnds s (s.landHearth f b m) := by
  unfold State.landHearth
  dsimp only
  (repeat' split)
  · exact (untouched_control s _ _).workEnds
  · exact (untouched_setChim s _).workEnds
  · exact (untouched_farArrival s f b).workEnds
  · exact workEnds_decodeArrival s f b m

theorem workEnds_releaseArrivals (s : State) (n : HearthId) : WorkEnds s (s.releaseArrivals n) := by
  unfold State.releaseArrivals
  split
  · exact (untouched_setChim s _).workEnds.trans
      (WorkEnds.forList _ _ (fun (x : FlueId × PieceBlk) s => workEnds_landHearth s x.1 x.2 n) _)
  · exact .refl s

theorem workEnds_releaseHeld (s : State) (n : HearthId) : WorkEnds s (s.releaseHeld n) :=
  (WorkEnds.forList _ _ (fun id s => workEnds_placeReq s id n) s).trans (workEnds_releaseArrivals _ n)

/-! ### Changes of sources -/

@[simp] theorem presentChange_hearths (s : State) (n : HearthId) (r : Route) (input : Fin 9) (entry : BitVec 8) (code : Option Nat)
    (level : Bool) : (s.presentChange n r input entry code level).hearths = s.hearths :=
  (presentChange_frame s n r input entry code level).1

@[simp] theorem slotEvent_hearths (s : State) (n : HearthId) (x : Slot) : (s.slotEvent n x).hearths = s.hearths := by
  unfold State.slotEvent State.presentSlotChange
  dsimp only
  (repeat' split)
  · exact presentChange_hearths ..
  · exact presentChange_hearths ..
  · rfl
  · rfl

theorem deassertInputs_hearths (s : State) (n : HearthId) : (s.deassertInputs n).hearths = s.hearths := by
  unfold State.deassertInputs
  dsimp only
  rw [forList_eq State.hearths _ _ fun c s => presentChange_hearths .., forList_eq State.hearths _ _ fun x s => presentChange_hearths ..]
  rfl

/-! ### A reload or resample given up -/

section DropReading

variable (s : State) (n : HearthId)

theorem dropReading_hearths : (s.dropReading n).hearths = (s.modHearth n fun h => { h with reload := none }).hearths := by
  unfold State.dropReading
  dsimp only
  (repeat' split) <;> rfl

theorem hearthsOnly_dropReading : HearthsOnly [n] s (s.dropReading n) := by
  have hhearth : ∀ m, (s.dropReading n).hearth m = (s.modHearth n fun h => { h with reload := none }).hearth m :=
    fun m => congrArg (vget · m) (dropReading_hearths s n)
  refine ⟨?_, fun m hm => ?_, fun hjob => ?_⟩
  · unfold State.dropReading
    dsimp only
    (repeat' split) <;> rfl
  · rw [hhearth]
    exact (hearthsOnly_modHearth s n _).others m hm
  · unfold State.dropReading
    rw [hjob]
    exact hjob

theorem staysIdle_dropReading : StaysIdle s (s.dropReading n) :=
  (workEnds_modHearth_keeps s n (fun h => { h with reload := none }) fun _ => ⟨rfl, rfl⟩).staysIdle.trans
    (.of_hearths (dropReading_hearths s n))

end DropReading

/-! ### The collapse actions -/

/-- R218: hearth `h` with its lines let go in tick `t`, no drain and no level of an input counted. -/
def Hearth.linesGone (t : Tally) (h : Hearth) : Hearth :=
  { h with
    drain := none, strobeStuck := false, tapTill := none, irqLow := 0, waitLow := false, waitNoClock := false, rising := none,
    bus := { Bus.reset with breqFrom := some (tickPlus t 5) } }

/-- R218: hearth `h` after its collapse actions in tick `t`, but for what the end of its work changes. -/
def Hearth.collapse (t : Tally) (h : Hearth) : Hearth := { h with reload := none }.linesGone t

/-- R218: its sources deassert and its work ends. -/
def State.collapseWork (s : State) (n : HearthId) : State := ((s.deassertInputs n).endHearthWork n).failBlocked n

section Collapse

variable (s : State) (n : HearthId)

theorem standing_collapseWork : (s.collapseWork n).standing = s.standing := by
  rw [State.collapseWork, standing_failBlocked, standing_endHearthWork, standing_deassertInputs]

theorem collapseWork_idle : ((s.collapseWork n).hearth n).cyc = none ∧ ((s.collapseWork n).hearth n).lock = none := by
  obtain ⟨hcyc, hlock⟩ := endHearthWork_idle (s.deassertInputs n) n
  have hblocked := workEnds_failBlocked ((s.deassertInputs n).endHearthWork n) n
  exact ⟨hblocked.cyc n hcyc, hblocked.lock n hlock⟩

theorem staysIdle_collapseWork : StaysIdle s (s.collapseWork n) :=
  (StaysIdle.of_hearths (deassertInputs_hearths s n)).trans
    ((workEnds_endHearthWork _ n).trans (workEnds_failBlocked _ n)).staysIdle

/-- R218: a reading of its straps is given up, and its lines are let go. -/
def State.collapseLines (s : State) (n : HearthId) : State :=
  (s.dropReading n).modHearth n (Hearth.linesGone (s.dropReading n).now)

theorem collapseActions_eq : s.collapseActions n = ((s.collapseWork n).collapseLines n).padsOff n := rfl

theorem hearthsOnly_padsOff (l : List HearthId) : HearthsOnly l s (s.padsOff n) := ⟨rfl, fun _ _ => rfl, id⟩

theorem padsOff_hearths : (s.padsOff n).hearths = s.hearths := rfl

theorem collapseActions_hearths : (s.collapseActions n).hearths = ((s.collapseWork n).collapseLines n).hearths := by
  rw [collapseActions_eq, padsOff_hearths]

theorem hearthsOnly_collapseLines : HearthsOnly [n] s (s.collapseLines n) :=
  (hearthsOnly_dropReading s n).trans (hearthsOnly_modHearth _ n _)

theorem staysIdle_collapseLines : StaysIdle s (s.collapseLines n) :=
  (staysIdle_dropReading s n).trans (workEnds_modHearth_keeps _ n (Hearth.linesGone _) fun _ => ⟨rfl, rfl⟩).staysIdle

theorem collapseLines_hearth : (s.collapseLines n).hearth n = (s.hearth n).collapse s.now := by
  have hdrop : (s.dropReading n).hearth n = { s.hearth n with reload := none } := by
    have h := congrArg (vget · n) (dropReading_hearths s n)
    exact h.trans (hearth_modHearth_self s n _)
  rw [State.collapseLines, hearth_modHearth_self, hdrop, (hearthsOnly_dropReading s n).now]
  rfl

theorem hearthsOnly_collapseActions : HearthsOnly [n] s (s.collapseActions n) := by
  rw [collapseActions_eq]
  exact ((HearthsOnly.of_standing (standing_collapseWork s n)).trans (hearthsOnly_collapseLines _ n)).trans (hearthsOnly_padsOff _ n _)

theorem staysIdle_collapseActions : StaysIdle s (s.collapseActions n) :=
  ((staysIdle_collapseWork s n).trans (staysIdle_collapseLines _ n)).trans (.of_hearths (collapseActions_hearths s n))

theorem collapseActions_idle : ((s.collapseActions n).hearth n).cyc = none ∧ ((s.collapseActions n).hearth n).lock = none := by
  obtain ⟨hcyc, hlock⟩ := collapseWork_idle s n
  have hidle := (staysIdle_collapseLines (s.collapseWork n) n).trans (.of_hearths (collapseActions_hearths s n))
  exact ⟨hidle.cyc n hcyc, hidle.lock n hlock⟩

theorem steady_collapse (t : Tally) (h : Hearth) : (h.collapse t).steady = (h.steady.collapse t).steady := rfl

/-- R218: what the collapse actions make of the hearth itself. -/
theorem collapseActions_steady : ((s.collapseActions n).hearth n).steady = ((s.hearth n).collapse s.now).steady := by
  have hself : (s.collapseActions n).hearth n = ((s.collapseWork n).hearth n).collapse (s.collapseWork n).now := by
    rw [State.hearth, collapseActions_hearths]
    exact collapseLines_hearth _ n
  rw [hself, now_of_standing (standing_collapseWork s n), steady_collapse, hearth_steady_of_standing (standing_collapseWork s n),
    ← steady_collapse]

end Collapse

/-! ### Entry to a slot state -/

section Enter

variable (s : State) (n : HearthId) (x : Slot) (event : Bool)

/-- R213: hearth `h` in slot state `x` from tick `t` on. -/
def Hearth.entered (x : Slot) (t : Tally) (h : Hearth) : Hearth :=
  { h with slot := x, blinkFrom := t, blinkOn := x = .removable || x = .strapFault }

theorem enter_hearths : (s.enter n x event).hearths = (s.modHearth n (Hearth.entered x s.now)).hearths := by
  unfold State.enter
  dsimp only
  split
  · exact slotEvent_hearths _ n x
  · rfl

theorem standing_enter : (s.enter n x event).standing = (s.modHearth n (Hearth.entered x s.now)).standing := by
  unfold State.enter
  dsimp only
  split
  · exact (standing_woken _).trans (standing_slotEvent _ n x)
  · exact standing_woken _

theorem hearthsOnly_enter : HearthsOnly [n] s (s.enter n x event) :=
  (hearthsOnly_modHearth s n _).trans (.of_standing (standing_enter s n x event))

theorem staysIdle_enter : StaysIdle s (s.enter n x event) :=
  (workEnds_modHearth_keeps s n (Hearth.entered x s.now) fun _ => ⟨rfl, rfl⟩).staysIdle.trans (.of_hearths (enter_hearths s n x event))

theorem enter_hearth : (s.enter n x event).hearth n = (s.hearth n).entered x s.now := by
  have h := congrArg (vget · n) (enter_hearths s n x event)
  exact h.trans (hearth_modHearth_self s n _)

theorem steady_entered (t : Tally) (h : Hearth) : (h.entered x t).steady = (h.steady.entered x t).steady := rfl

variable {s n} in
theorem enter_steady {h : Hearth} (hs : (s.hearth n).steady = h.steady) :
    ((s.enter n x event).hearth n).steady = (h.entered x s.now).steady := by
  rw [enter_hearth, steady_entered, hs, ← steady_entered]

end Enter

end Sys2Proof.Machine
end

-- ==== Proofs of 02_package_and_balls: a hearth that loses its supply ====
section
/-! A hearth that loses its supply (R212, R214, R218), and the VHEARTH banks (R45, R76, R82). -/

namespace Sys2Proof.Machine

open Sys2Proof

/-! ### A counted fall of HnPGOOD -/

/-- R214: hearth `h` once a fall of its HnPGOOD has counted. -/
def Hearth.unpowered (h : Hearth) : Hearth :=
  { h with pgood := false, goodAtGroup := false, goodNew := false, fell := h.fell || h.pgood }

/-- R218: hearth `h` is COLLAPSED, its bus released, no level of an input counted, no drain and no reload. -/
def Hearth.Down (h : Hearth) : Prop :=
  h.slot = .collapsed ∧ h.bus.breqLow = false ∧ h.bus.granted = false ∧ h.irqLow = 0 ∧ h.drain = none ∧ h.reload = none

theorem down_steady (h : Hearth) : h.steady.Down ↔ h.Down := Iff.rfl

theorem down_of_steady {x y : Hearth} (h : x.steady = y.steady) (hy : y.Down) : x.Down := by
  rwa [← down_steady, h, down_steady]

theorem collapsed_down (t : Tally) (h : Hearth) : ((h.collapse t).entered .collapsed t).Down := ⟨rfl, rfl, rfl, rfl, rfl, rfl⟩

theorem pgood_slot_of_steady {x y : Hearth} (h : x.steady = y.steady) : x.pgood = y.pgood ∧ x.slot = y.slot :=
  ⟨congrArg (·.pgood) h, congrArg (·.slot) h⟩

/-- R218: hearth `h` as a loss of supply leaves it, where it was in slot state `was`. -/
structure Hearth.Fallen (was : Slot) (h : Hearth) : Prop where
  pgood : h.pgood = false
  down : was.powered = true → h.Down
  idle : was.powered = true → h.cyc = none ∧ h.lock = none
  kept : was.powered = false → h.slot = was

section SupplyFall

variable (s : State) (n : HearthId)

/-- R218: a powered hearth is COLLAPSED, and what waits for it is handled. -/
theorem supplyFall_of_powered (h : (s.hearth n).slot.powered = true) : s.supplyFall n =
    (((s.modHearth n Hearth.unpowered).collapseActions n).enter n .collapsed true).releaseHeld n := by
  refine if_pos ?_
  rw [hearth_modHearth_self]
  exact h

theorem supplyFall_of_not_powered (h : (s.hearth n).slot.powered = false) :
    s.supplyFall n = (s.modHearth n Hearth.unpowered).woken := by
  refine if_neg ?_
  rw [hearth_modHearth_self]
  exact Bool.eq_false_iff.mp h

theorem hearthsOnly_supplyFall : HearthsOnly [n] s (s.supplyFall n) := by
  have hfall := hearthsOnly_modHearth s n Hearth.unpowered
  cases h : (s.hearth n).slot.powered
  case false =>
    rw [supplyFall_of_not_powered s n h]
    exact hfall.trans (.of_standing (standing_woken _))
  case true =>
    rw [supplyFall_of_powered s n h]
    exact ((hfall.trans (hearthsOnly_collapseActions _ n)).trans (hearthsOnly_enter _ n _ _)).trans
      (.of_standing (standing_releaseHeld _ n))

theorem staysIdle_supplyFall : StaysIdle s (s.supplyFall n) := by
  have hfall : StaysIdle s (s.modHearth n Hearth.unpowered) := (workEnds_modHearth_keeps s n Hearth.unpowered fun _ => ⟨rfl, rfl⟩).staysIdle
  cases h : (s.hearth n).slot.powered
  case false =>
    rw [supplyFall_of_not_powered s n h]
    exact hfall.trans (.of_hearths rfl)
  case true =>
    rw [supplyFall_of_powered s n h]
    exact ((hfall.trans (staysIdle_collapseActions _ n)).trans (staysIdle_enter _ n _ _)).trans (workEnds_releaseHeld _ n).staysIdle

theorem supplyFall_fallen : Hearth.Fallen (s.hearth n).slot ((s.supplyFall n).hearth n) := by
  cases h : (s.hearth n).slot.powered
  case false =>
    rw [supplyFall_of_not_powered s n h, woken_hearth, hearth_modHearth_self]
    exact ⟨rfl, fun hpow => absurd hpow (by simp [h]), fun hpow => absurd hpow (by simp [h]), fun _ => rfl⟩
  case true =>
    have hidle := collapseActions_idle (s.modHearth n Hearth.unpowered) n
    have hlater := (staysIdle_enter ((s.modHearth n Hearth.unpowered).collapseActions n) n .collapsed true).trans
      (workEnds_releaseHeld _ n).staysIdle
    have hcollapse := collapseActions_steady (s.modHearth n Hearth.unpowered) n
    rw [hearth_modHearth_self] at hcollapse
    have hsteady := (hearth_steady_of_standing (standing_releaseHeld _ n) n).trans (enter_steady .collapsed true hcollapse)
    rw [← supplyFall_of_powered s n h, (hearthsOnly_collapseActions _ n).now] at hsteady
    refine ⟨(pgood_slot_of_steady hsteady).1, fun _ => down_of_steady hsteady (collapsed_down _ _), fun _ => ?_,
      fun hpow => absurd hpow (by simp [h])⟩
    rw [supplyFall_of_powered s n h]
    exact ⟨hlater.cyc n hidle.1, hlater.lock n hidle.2⟩

end SupplyFall

/-- A hearth that has fallen stays so when other hearths change. -/
theorem Hearth.Fallen.stays {l : List HearthId} {s t : State} {n : HearthId} {was : Slot} (h : Hearth.Fallen was (s.hearth n))
    (hn : n ∉ l) (hl : HearthsOnly l s t) (hidle : StaysIdle s t) : Hearth.Fallen was (t.hearth n) := by
  obtain ⟨hpgood, hslot⟩ := pgood_slot_of_steady (hl.others n hn)
  refine ⟨hpgood.trans h.pgood, fun hpow => down_of_steady (hl.others n hn) (h.down hpow), fun hpow => ?_,
    fun hpow => hslot.trans (h.kept hpow)⟩
  obtain ⟨hcyc, hlock⟩ := h.idle hpow
  exact ⟨hidle.cyc n hcyc, hidle.lock n hlock⟩

/-! ### The hearths of a bank -/

theorem bankHearths_nodup (b : Fin 14) : (bankHearths b).Nodup := by
  revert b; decide

/-- R218: the hearths of `l` lose their supply. -/
def State.supplyFalls (s : State) (l : List HearthId) : State := forList l (fun n s => s.supplyFall n) s

theorem hearthsOnly_supplyFalls (s : State) (l : List HearthId) : HearthsOnly l s (s.supplyFalls l) :=
  HearthsOnly.forList l _ (fun n hn s => (hearthsOnly_supplyFall s n).mono (List.cons_subset.mpr ⟨hn, List.nil_subset l⟩)) s

theorem staysIdle_supplyFalls (s : State) (l : List HearthId) : StaysIdle s (s.supplyFalls l) :=
  StaysIdle.forList l _ (fun n s => staysIdle_supplyFall s n) s

theorem supplyFalls_fallen (s : State) {l : List HearthId} (hl : l.Nodup) {n : HearthId} (hn : n ∈ l) :
    Hearth.Fallen (s.hearth n).slot ((s.supplyFalls l).hearth n) := by
  induction l generalizing s with
  | nil => exact absurd hn List.not_mem_nil
  | cons a l ih =>
    obtain ⟨ha, hl⟩ := List.nodup_cons.mp hl
    show Hearth.Fallen (s.hearth n).slot (((s.supplyFall a).supplyFalls l).hearth n)
    rcases List.mem_cons.mp hn with rfl | hn
    · exact (supplyFall_fallen s n).stays ha (hearthsOnly_supplyFalls _ l) (staysIdle_supplyFalls _ l)
    · have hne : n ∉ [a] := fun h => ha (List.mem_singleton.mp h ▸ hn)
      have hslot : ((s.supplyFall a).hearth n).slot = (s.hearth n).slot :=
        (pgood_slot_of_steady ((hearthsOnly_supplyFall s a).others n hne)).2
      exact hslot ▸ ih (s.supplyFall a) hl hn

/-- R212: the counted HnPGOOD of the hearths of `l` is low. -/
def State.pgoodLow (s : State) (l : List HearthId) : State :=
  forList l (fun n s => s.modHearth n fun h => { h with pgood := false }) s

theorem pgoodLow_eq (s : State) (l : List HearthId) : s.pgoodLow l = { s with hearths := (s.pgoodLow l).hearths } := by
  unfold State.pgoodLow
  induction l generalizing s with
  | nil => rfl
  | cons a l ih => exact ih (s.modHearth a fun h => { h with pgood := false })

theorem pgoodLow_hearth (s : State) (l : List HearthId) (n : HearthId) :
    (s.pgoodLow l).hearth n = if n ∈ l then { s.hearth n with pgood := false } else s.hearth n := by
  induction l generalizing s with
  | nil => rfl
  | cons a l ih =>
    refine (ih (s.modHearth a fun h => { h with pgood := false })).trans ?_
    by_cases hna : n = a
    · subst hna
      simp [hearth_modHearth_self]
    · simp [hearth_modHearth_ne _ _ _ _ hna, hna]

/-! ### The voltage of a bank -/

section Bank

variable {s : State} {b : Fin 14} {mv : Nat}

/-- Bank `b` is valid, or not. -/
def State.bankIs (s : State) (b : Fin 14) (valid : Bool) : State :=
  { s with island := { s.island with banks := vset s.island.banks b valid } }

/-- R76: the island takes the bank as it senses it. -/
theorem senseBank_eq (s : State) (b : Fin 14) (mv : Nat) :
    s.senseBank b mv = s.bankIs b (senseSupply Config.vhearth mv (vget s.island.banks b)) := rfl

theorem bankIs_valid (s : State) (b : Fin 14) (valid : Bool) : vget (s.bankIs b valid).island.banks b = valid :=
  vget_vset_self _ _ _

theorem bankIs_same (s : State) (b : Fin 14) : s.bankIs b (vget s.island.banks b) = s := by
  rw [State.bankIs, vset_vget]

theorem senseSupply_below (h : mv < 2900) (valid : Bool) : senseSupply Config.vhearth mv valid = false := by
  have hrise : ¬ Config.vhearth.rising < mv := Nat.not_lt.mpr (by show mv ≤ 3040; omega)
  rw [senseSupply, if_neg hrise]
  exact if_pos h

theorem senseSupply_above (h : 3040 < mv) (valid : Bool) : senseSupply Config.vhearth mv valid = true := if_pos h

theorem senseSupply_between (hlow : 2900 ≤ mv) (hhigh : mv ≤ 3040) (valid : Bool) : senseSupply Config.vhearth mv valid = valid := by
  have hrise : ¬ Config.vhearth.rising < mv := Nat.not_lt.mpr hhigh
  have hfall : ¬ mv < Config.vhearth.falling := Nat.not_lt.mpr hlow
  rw [senseSupply, if_neg hrise, if_neg hfall]

theorem exec_bankInvalid_below (hvalid : vget s.island.banks b = true) (h : mv < 2900) :
    exec (.vhearthBankInvalid ⟨b, mv⟩) s = .next ((s.bankIs b false).supplyFalls (bankHearths b)) := by
  show execVhearthBankInvalid ⟨b, mv⟩ s = _
  unfold execVhearthBankInvalid
  dsimp only
  rw [senseBank_eq, senseSupply_below h, if_pos ⟨hvalid, by rw [bankIs_valid]; rfl⟩]
  rfl

theorem exec_bankValid_above (hinvalid : vget s.island.banks b = false) (h : 3040 < mv) :
    exec (.vhearthBankValid ⟨b, mv⟩) s = .next ((s.bankIs b true).pgoodLow (bankHearths b)) := by
  show execVhearthBankValid ⟨b, mv⟩ s = _
  unfold execVhearthBankValid
  dsimp only
  rw [senseBank_eq, senseSupply_above h, if_pos ⟨by rw [hinvalid]; rfl, bankIs_valid s b true⟩]
  rfl

theorem exec_bank_between (hlow : 2900 ≤ mv) (hhigh : mv ≤ 3040) :
    exec (.vhearthBankInvalid ⟨b, mv⟩) s = .next s ∧ exec (.vhearthBankValid ⟨b, mv⟩) s = .next s := by
  have hsame : s.senseBank b mv = s := by rw [senseBank_eq, senseSupply_between hlow hhigh, bankIs_same]
  constructor
  · show execVhearthBankInvalid ⟨b, mv⟩ s = _
    unfold execVhearthBankInvalid
    dsimp only
    rw [hsame, if_neg (by simp)]
  · show execVhearthBankValid ⟨b, mv⟩ s = _
    unfold execVhearthBankValid
    dsimp only
    rw [hsame, if_neg (by simp)]

end Bank

/-! ### The statement -/

/-- Settles O9: below the threshold the bank's hearths fall one after the other (`supplyFalls_fallen`), and each leaves the others as
they are; above it only their counted level is touched. -/
theorem vhearthBanks : Obligations.VhearthBanks := by
  unfold Obligations.VhearthBanks
  refine fun b mv s => ⟨fun hvalid hbelow => ?_, fun hinvalid habove => ?_, fun hlow hhigh => exec_bank_between hlow hhigh⟩
  · have honly := hearthsOnly_supplyFalls (s.bankIs b false) (bankHearths b)
    have hisland := congrArg Standing.island honly.standing
    refine ⟨_, exec_bankInvalid_below hvalid hbelow, hisland, fun n hn => ?_, honly.others, ?_⟩
    · obtain ⟨hpgood, hdown, hidle, hkept⟩ := supplyFalls_fallen (s.bankIs b false) (bankHearths_nodup b) hn
      refine ⟨hpgood, fun hpow => ?_, hkept⟩
      obtain ⟨hslot, hlines⟩ := hdown hpow
      obtain ⟨hcyc, hlock⟩ := hidle hpow
      exact ⟨hslot, hcyc, hlock, hlines⟩
    · rw [show ((s.bankIs b false).supplyFalls (bankHearths b)).island = (s.bankIs b false).island from hisland]
      exact honly.standing
  · refine ⟨_, exec_bankValid_above hinvalid habove, ?_, fun n => pgoodLow_hearth _ _ n, ?_⟩
    · rw [pgoodLow_eq]
      rfl
    · rw [pgoodLow_eq]
      rfl

end Sys2Proof.Machine
end

-- ==== Proofs of 02_package_and_balls: work that is done stays done ====
section
/-! Work that is over stays over (R72, R211, R215, R219): a hearth whose cycle is not open gets no open one, and a hearth without jobs
gets none, while work elsewhere ends. -/

namespace Sys2Proof.Machine

open Sys2Proof

/-! ### The relation -/

/-- Hearth `h` has no open cycle. -/
def Hearth.closed (h : Hearth) : Prop := ∀ c, h.cyc = some c → c.phase.isOpen = false

/-- From `s` to `t` no hearth has opened a cycle or taken on a job. -/
structure StaysOver (s t : State) : Prop where
  closed : ∀ n, (s.hearth n).closed → (t.hearth n).closed
  jobs : ∀ n, (s.hearth n).bus.jobs = [] → (t.hearth n).bus.jobs = []

section StaysOver

variable {s t u : State}

theorem StaysOver.of_hearths (h : t.hearths = s.hearths) : StaysOver s t := by
  have hh : ∀ n, t.hearth n = s.hearth n := fun n => congrArg (vget · n) h
  exact ⟨fun n => by rw [hh]; exact id, fun n => by rw [hh]; exact id⟩

theorem StaysOver.refl (s : State) : StaysOver s s := .of_hearths rfl

theorem Untouched.staysOver (h : Untouched s t) : StaysOver s t := .of_hearths h.hearths

theorem StaysOver.trans (h : StaysOver s t) (k : StaysOver t u) : StaysOver s u :=
  ⟨fun n hn => k.closed n (h.closed n hn), fun n hn => k.jobs n (h.jobs n hn)⟩

theorem StaysOver.forList {α : Type} (xs : List α) (f : α → State → State) (h : ∀ x s, StaysOver s (f x s)) (s : State) :
    StaysOver s (forList xs f s) := by
  induction xs generalizing s with
  | nil => exact .refl s
  | cons x xs ih => exact (h x s).trans (ih (f x s))

end StaysOver

/-- One hearth changed, but not its cycle or its jobs. -/
theorem staysOver_modHearth (s : State) (n : HearthId) (f : Hearth → Hearth)
    (hcyc : (s.hearth n).closed → (f (s.hearth n)).closed) (hbus : (f (s.hearth n)).bus.jobs = (s.hearth n).bus.jobs) :
    StaysOver s (s.modHearth n f) := by
  refine ⟨fun m hm => ?_, fun m hm => ?_⟩
  · by_cases e : m = n
    · subst e
      rw [hearth_modHearth_self]
      exact hcyc hm
    · rwa [hearth_modHearth_ne s n m f e]
  · by_cases e : m = n
    · subst e
      rwa [hearth_modHearth_self, hbus]
    · rwa [hearth_modHearth_ne s n m f e]

/-! ### Pieces removed -/

theorem removePieces_hearth (s : State) (q : Piece → Bool) (m : HearthId) : (s.removePieces q).hearth m =
    { s.hearth m with bus := { (s.hearth m).bus with jobs := (s.hearth m).bus.jobs.filter fun j => !(q j.piece && !j.started) } } := by
  have h : (s.removePieces q).hearths = vmap (fun (_ : HearthId) (h : Hearth) =>
      { h with bus := { h.bus with jobs := h.bus.jobs.filter fun j => !(q j.piece && !j.started) } }) s.hearths := by
    unfold State.removePieces
    rfl
  rw [State.hearth, h, vget_vmap]
  rfl

theorem staysOver_removePieces (s : State) (q : Piece → Bool) : StaysOver s (s.removePieces q) := by
  refine ⟨fun n hn => ?_, fun n hn => ?_⟩
  · rw [removePieces_hearth]
    exact hn
  · rw [removePieces_hearth, hn]
    rfl

theorem dropRest_jobs_nil {b : Bus} (h : b.jobs = []) (q : Piece → Bool) : (b.dropRest q).jobs = [] := by
  unfold Bus.dropRest
  split
  · next hcons => exact absurd (h.symm.trans hcons) (List.cons_ne_nil _ _).symm
  · exact h

theorem staysOver_dropReqWork (s : State) (id : Nat) : StaysOver s (s.dropReqWork id) := by
  have hdrop : StaysOver s { s with hearths := vmap (fun (_ : HearthId) (h : Hearth) =>
      { h with bus := h.bus.dropRest fun p => p.origin = .host id }) s.hearths } := by
    refine ⟨fun n hn => ?_, fun n hn => ?_⟩
    · rw [State.hearth, vget_vmap]
      exact hn
    · rw [State.hearth, vget_vmap]
      exact dropRest_jobs_nil hn _
  exact hdrop.trans (staysOver_removePieces _ _)

theorem dropCycleWork_cyc (s : State) (n : HearthId) (c : Cycle) (release : Bool) (m : HearthId) :
    ((s.dropCycleWork n c release).hearth m).cyc = (s.hearth m).cyc := by
  have h : (s.dropCycleWork n c release).hearth m = (s.removePieces fun p => p.forCycle n c.serial &&
    !(c.captured && (p.cls = .posted || release && p.kind = .lockedWrite))).hearth m := rfl
  rw [h, removePieces_hearth]

/-! ### Host requests that end -/

section Requests

@[simp] theorem sendCpl_hearths (s : State) (r : HostReq) (status : CplStatus) (bytes : List (Nat × Byte)) (off len : Nat) :
    (s.sendCpl r status bytes off len).hearths = s.hearths := by
  unfold State.sendCpl
  dsimp only
  split
  · exact (untouched_setStatus _ _ _).hearths
  · rfl

@[simp] theorem sendBlocks_hearths (k : Nat) (s : State) (id : Nat) : (State.sendBlocks k s id).hearths = s.hearths := by
  induction k generalizing s with
  | zero => rfl
  | succ k ih =>
    unfold State.sendBlocks
    dsimp only
    (repeat' split)
    · rfl
    · exact (ih _).trans (sendCpl_hearths ..)
    · rfl
    · rfl

@[simp] theorem refuseReq_hearths (s : State) (r : HostReq) (status : CplStatus) (e : Option UncErr) :
    (s.refuseReq r status e).hearths = s.hearths := by
  have hcpl : ∀ s1 : State, (if r.read then s1.sendCpl r status [] r.nextOff 0 else s1).hearths = s1.hearths := fun s1 => by
    split
    · exact sendCpl_hearths ..
    · rfl
  cases e with
  | none => exact hcpl s
  | some e => exact (hcpl _).trans (untouched_recordUnc s _ _ _ _).hearths

theorem endRead_hearths (k : Nat) (s : State) (r : HostReq) : (State.endRead k s r).hearths = s.hearths := by
  induction k generalizing r with
  | zero => rfl
  | succ k ih =>
    unfold State.endRead
    dsimp only
    (repeat' split)
    · exact sendBlocks_hearths ..
    · exact (refuseReq_hearths ..).trans (sendBlocks_hearths ..)
    · exact (refuseReq_hearths ..).trans (sendBlocks_hearths ..)
    · exact sendBlocks_hearths ..
    · exact ih _

theorem endWrite_hearths (s : State) (r : HostReq) (modes : List (Bool × Bool)) (ev : Bool) :
    (s.endWrite r modes ev).hearths = s.hearths := by
  refine forList_eq State.hearths _ _ (fun m s => ?_) s
  (repeat' split)
  · exact (untouched_recordUnc s _ _ _ _).hearths
  · exact (untouched_recordUnc s _ _ _ _).hearths
  · rfl
  · exact (untouched_logEvent s _).hearths

theorem staysOver_endReq (s : State) (id : Nat) (ev : Bool) (struck : Option (Bool × Bool)) : StaysOver s (s.endReq id ev struck) := by
  have hlog : ∀ (s1 : State) (f : FnId), (if ev then s1.logEvent f else s1).hearths = s1.hearths := fun s1 f => by
    split
    · exact (untouched_logEvent s1 f).hearths
    · rfl
  unfold State.endReq
  split
  · exact .refl s
  · dsimp only
    refine (staysOver_dropReqWork s id).trans (.of_hearths ?_)
    refine (closeReq_hearths _ id).trans ?_
    split
    · exact (endRead_hearths _ _ _).trans (hlog _ _)
    · exact (endWrite_hearths _ _ _ _).trans (hlog _ _)

end Requests

/-! ### Hearth cycles that end -/

theorem staysOver_endPosted (s : State) (n : HearthId) (serial : Nat) : StaysOver s (s.endPosted n serial) :=
  staysOver_modHearth s n _ id rfl

/-- R201: a read whose data are driven is over. -/
theorem driveRead_closed (s : State) (n : HearthId) (got : List (Nat × Byte)) : ((s.driveRead n got).hearth n).closed := by
  unfold State.driveRead
  split
  · next hnone => exact fun c hc => absurd (hnone.symm.trans hc) (by simp)
  · rw [woken_hearth, hearth_modHearth_self]
    rintro c ⟨⟩
    rfl

/-- R199: an answered cycle is over. -/
theorem answer_closed {s : State} {n : HearthId} {r : Resp} (h : r = .ack → s.scanDrives = false) : ((s.answer n r).hearth n).closed := by
  have hnot : ¬ (r = .ack ∧ s.scanDrives = true) := fun hr => by simp [h hr.1] at hr
  rw [State.answer, if_neg hnot, woken_hearth, hearth_modHearth_self]
  intro c hc
  obtain ⟨c', -, rfl⟩ := Option.map_eq_some_iff.mp hc
  rfl

theorem answer_hearth_ne (s : State) {n m : HearthId} (r : Resp) (h : m ≠ n) : (s.answer n r).hearth m = s.hearth m := by
  unfold State.answer
  split <;> rw [woken_hearth, hearth_modHearth_ne _ _ _ _ h]

theorem answer_bus (s : State) (n : HearthId) (r : Resp) : ((s.answer n r).hearth n).bus = (s.hearth n).bus := by
  unfold State.answer
  split
  · rw [woken_hearth, hearth_modHearth_self]
  · rw [woken_hearth, hearth_modHearth_self]
    rfl

theorem driveRead_hearth_ne (s : State) {n m : HearthId} (got : List (Nat × Byte)) (h : m ≠ n) :
    (s.driveRead n got).hearth m = s.hearth m := by
  unfold State.driveRead
  split
  · rfl
  · rw [woken_hearth, hearth_modHearth_ne _ _ _ _ h]

theorem driveRead_bus (s : State) (n : HearthId) (got : List (Nat × Byte)) :
    ((s.driveRead n got).hearth n).bus = (s.hearth n).bus := by
  unfold State.driveRead
  split
  · rfl
  · rw [woken_hearth, hearth_modHearth_self]

/-- R236: what the far-side error mode of cycle `c`'s window answers. -/
def State.farAnswer (s : State) (n : HearthId) (c : Cycle) : State :=
  if c.win.errResp then s.answer n .berr else if c.read then s.driveRead n [] else s.answer n .ack

theorem farAnswer_hearth_ne (s : State) {n m : HearthId} (c : Cycle) (h : m ≠ n) : (s.farAnswer n c).hearth m = s.hearth m := by
  unfold State.farAnswer
  (repeat' split)
  · exact answer_hearth_ne s _ h
  · exact driveRead_hearth_ne s _ h
  · exact answer_hearth_ne s _ h

theorem farAnswer_bus (s : State) (n : HearthId) (c : Cycle) : ((s.farAnswer n c).hearth n).bus = (s.hearth n).bus := by
  unfold State.farAnswer
  (repeat' split)
  · exact answer_bus s n _
  · exact driveRead_bus s n _
  · exact answer_bus s n _

/-- R236, R338: the cycle is over, unless an EXTEST instruction keeps its acknowledgment back. -/
theorem farAnswer_closed {s : State} {n : HearthId} {c : Cycle} (h : c.win.errResp = false → s.scanDrives = false) :
    ((s.farAnswer n c).hearth n).closed := by
  unfold State.farAnswer
  split
  · exact answer_closed nofun
  next herr =>
    split
    · exact driveRead_closed s n _
    · exact answer_closed fun _ => h (Bool.eq_false_iff.mpr herr)

/-- R311: the event is recorded where the far-side error is one. -/
def State.farLogged (s : State) (n : HearthId) (ev : Bool) (c : Cycle) : State :=
  if ev || !c.read then s.logEvent (fnOf n) else s

theorem untouched_farLogged (s : State) (n : HearthId) (ev : Bool) (c : Cycle) : Untouched s (s.farLogged n ev c) := by
  unfold State.farLogged
  split
  · exact untouched_logEvent s _
  · exact .refl s

theorem standing_farLogged (s : State) (n : HearthId) (ev : Bool) (c : Cycle) : (s.farLogged n ev c).standing = s.standing := by
  unfold State.farLogged
  split
  · exact standing_logEvent s _
  · rfl

/-- R236: an open cycle is answered. -/
theorem farSide_of_open {s : State} {n : HearthId} {c : Cycle} (hc : (s.hearth n).cyc = some c) (hopen : c.phase.isOpen = true)
    (ev : Bool) : s.farSide n ev = ((s.farLogged n ev c).farAnswer n c).endPosted n c.serial := by
  rw [State.farSide, hc]
  exact if_pos hopen

theorem farSide_of_closed {s : State} {n : HearthId} (h : (s.hearth n).closed) (ev : Bool) : s.farSide n ev = s := by
  unfold State.farSide
  split
  · rfl
  · next c hc => exact if_neg (Bool.eq_false_iff.mp (h c hc))

theorem staysOver_farSide (s : State) (n : HearthId) (ev : Bool) : StaysOver s (s.farSide n ev) := by
  by_cases hclosed : (s.hearth n).closed
  · rw [farSide_of_closed hclosed]
    exact .refl s
  · have hcyc : ∃ c, (s.hearth n).cyc = some c ∧ c.phase.isOpen = true := by
      simpa [Hearth.closed] using hclosed
    obtain ⟨c, hc, hopen⟩ := hcyc
    rw [farSide_of_open hc hopen]
    refine ((untouched_farLogged s n ev c).staysOver.trans ?_).trans (staysOver_endPosted _ n c.serial)
    have hn : (s.farLogged n ev c).hearth n = s.hearth n := congrArg (vget · n) (untouched_farLogged s n ev c).hearths
    refine ⟨fun m hm => ?_, fun m hm => ?_⟩
    · have hne : m ≠ n := fun h => hclosed (hn ▸ h ▸ hm)
      rwa [farAnswer_hearth_ne _ c hne]
    · by_cases hne : m = n
      · subst hne
        rwa [farAnswer_bus]
      · rwa [farAnswer_hearth_ne _ c hne]

/-! ### The work of a hearth -/

theorem staysOver_failPiece (s : State) (p : Piece) (ev : Bool) (got : List (Nat × Byte)) : StaysOver s (s.failPiece p ev got) := by
  have hlog : StaysOver s (s.logEvent p.wfn) := (untouched_logEvent s p.wfn).staysOver
  unfold State.failPiece
  split
  next n serial _ =>
    (repeat' split)
    · exact staysOver_farSide s n ev
    · exact .refl s
    · exact .refl s
  next n serial _ =>
    have hwaits : ∀ waits : Bool, StaysOver s (if waits then s.farSide n ev else (s.logEvent p.wfn).endPosted n serial) := by
      intro waits
      cases waits
      · exact hlog.trans (staysOver_endPosted _ n serial)
      · exact staysOver_farSide s n ev
    exact hwaits _
  next id _ =>
    refine StaysOver.trans ?_ (staysOver_endReq _ id ev _)
    exact .of_hearths rfl
  next =>
    refine StaysOver.trans ?_ (untouched_push _ _).staysOver
    split
    · exact hlog
    · exact .refl s
  next => exact hlog.trans (untouched_performedFrom _ _ _).staysOver
  next => exact .refl s
  next => exact .refl s
  next => exact .refl s

theorem staysOver_failPieces (ps : List (Piece × List (Nat × Byte))) (ev : Bool) (s : State) :
    StaysOver s (forList ps (fun p s => s.failPiece p.1 ev p.2) s) :=
  StaysOver.forList ps _ (fun p s => staysOver_failPiece s p.1 ev p.2) s

/-- R219: the requests and the pieces for hearth `n`'s bus end. -/
def State.busEnds (s : State) (n : HearthId) (ev : Bool) : State :=
  (forList (s.reqs.filter fun r => s.reqFor n r && (r.st = .waiting || r.st = .issued)) (fun r s => s.endReq r.id ev none)
    s).removePieces (Piece.forBus n)

/-- R219: hearth `n` has no job left; its pieces are still to fail. -/
def State.busDropped (s : State) (n : HearthId) (ev : Bool) : State :=
  (s.busEnds n ev).modHearth n fun h => { h with bus := { h.bus with jobs := [], strobe := none } }

theorem failBus_eq (s : State) (n : HearthId) (ev : Bool) : ∃ ps : List (Piece × List (Nat × Byte)),
    s.failBus n ev = (forList ps (fun p s => s.failPiece p.1 ev p.2) (s.busDropped n ev)).freeTags := ⟨_, rfl⟩

theorem staysOver_busDropped (s : State) (n : HearthId) (ev : Bool) : StaysOver s (s.busDropped n ev) := by
  have hends : StaysOver s (s.busEnds n ev) :=
    (StaysOver.forList _ _ (fun (r : HostReq) s => staysOver_endReq s r.id ev none) s).trans (staysOver_removePieces _ _)
  refine hends.trans ?_
  unfold State.busDropped
  generalize s.busEnds n ev = u
  refine ⟨fun m hm => ?_, fun m hm => ?_⟩
  · rcases eq_or_ne m n with rfl | hne
    · rwa [hearth_modHearth_self]
    · rwa [hearth_modHearth_ne u n m _ hne]
  · rcases eq_or_ne m n with rfl | hne
    · rw [hearth_modHearth_self]
    · rwa [hearth_modHearth_ne u n m _ hne]

theorem staysOver_failBus (s : State) (n : HearthId) (ev : Bool) : StaysOver s (s.failBus n ev) := by
  obtain ⟨ps, h⟩ := failBus_eq s n ev
  rw [h]
  exact ((staysOver_busDropped s n ev).trans (staysOver_failPieces ps ev _)).trans (untouched_freeTags _).staysOver

/-- R219: the hearth has no job left. -/
theorem failBus_jobs (s : State) (n : HearthId) (ev : Bool) : ((s.failBus n ev).hearth n).bus.jobs = [] := by
  obtain ⟨ps, h⟩ := failBus_eq s n ev
  rw [h]
  refine ((staysOver_failPieces ps ev _).trans (untouched_freeTags _).staysOver).jobs n ?_
  rw [State.busDropped, hearth_modHearth_self]

theorem staysOver_failBlocked (s : State) (n : HearthId) : StaysOver s (s.failBlocked n) := by
  refine StaysOver.forList _ _ (fun k s => ?_) s
  (repeat' split)
  · exact staysOver_farSide s k false
  · exact .refl s
  · exact .refl s

theorem staysOver_endLock (s : State) (n : HearthId) (rose : Bool) : StaysOver s (s.endLock n rose) := by
  unfold State.endLock
  split
  · exact .refl s
  · exact (staysOver_modHearth s n (fun h => { h with lock := none, lockMasked := !rose }) id rfl).trans (.of_hearths rfl)

/-! ### Work that a watchdog ends -/

/-- R211, R338: a cycle whose wait has expired is over. -/
theorem expireCycle_closed (s : State) (n : HearthId) (release : Bool) : ((s.expireCycle n release).hearth n).closed := by
  unfold State.expireCycle
  split
  · next hnone => exact fun c hc => absurd (hnone.symm.trans hc) (by simp)
  next c hc =>
    split
    · rw [hearth_modHearth_self]
      exact nofun
    next hextest =>
      split
      next hopen =>
        have hcyc := (dropCycleWork_cyc s n c release n).trans hc
        rw [farSide_of_open hcyc hopen]
        have hanswer : (((((s.dropCycleWork n c release).farLogged n true c).farAnswer n c)).hearth n).closed := by
          refine farAnswer_closed fun herr => ?_
          have hstanding := (standing_farLogged (s.dropCycleWork n c release) n true c).trans (standing_dropCycleWork s n c release)
          have htap : ((s.dropCycleWork n c release).farLogged n true c).tap = s.tap := congrArg Standing.tap hstanding
          rw [State.scanDrives, htap]
          refine Bool.eq_false_iff.mpr fun hscan => hextest ⟨hscan, ?_, .inl hopen⟩
          rw [herr]
          rfl
        exact (staysOver_endPosted _ n c.serial).closed n hanswer
      next hclosed =>
        intro c' hc'
        rw [hc, Option.some.injEq] at hc'
        exact hc' ▸ Bool.eq_false_iff.mpr hclosed

/-- R72, R215: the work of hearth `n` has expired, and its lock has ended. -/
def State.workExpired (s : State) (n : HearthId) : State :=
  (((s.expireCycle n true).failBus n true).failBlocked n).endLock n false

theorem expireWork_eq (s : State) (n : HearthId) :
    s.expireWork n = (s.workExpired n).modHearth n fun h => { h with lockMasked := h.lockMasked || h.lockLow } := rfl

/-- R72, R215: open work has ended, and the lock is released. -/
theorem expireWork_over (s : State) (n : HearthId) : ((s.expireWork n).hearth n).closed ∧ ((s.expireWork n).hearth n).bus.jobs = [] ∧
    ((s.expireWork n).hearth n).lock = none := by
  have hclosed := (staysOver_failBus (s.expireCycle n true) n true).closed n (expireCycle_closed s n true)
  have hjobs := failBus_jobs (s.expireCycle n true) n true
  have hover : StaysOver ((s.expireCycle n true).failBus n true) (s.workExpired n) :=
    (staysOver_failBlocked _ n).trans (staysOver_endLock _ n false)
  have hlock : ((s.workExpired n).hearth n).lock = none := endLock_lock _ n false
  replace hclosed := hover.closed n hclosed
  replace hjobs := hover.jobs n hjobs
  rw [expireWork_eq, hearth_modHearth_self]
  generalize (s.workExpired n).hearth n = h at hclosed hjobs hlock
  exact ⟨hclosed, hjobs, hlock⟩

end Sys2Proof.Machine
end

-- ==== Proofs of 02_package_and_balls: reloads and resamples ====
section
/-! Reloads and resamples of a hearth (R46, R68 to R75, R91, R181, R204, R214): what ticks leave of a hearth's straps, the request of
a reload with the cycles it backs off, the work it ends, and the two groups that are read. -/

namespace Sys2Proof.Machine

open Sys2Proof

/-! ### What ticks leave alone -/

/-- What neither a tick nor the setting of the clock changes stands as the clock is brought to a tick. -/
theorem advanceTo_eq {β : Type} (π : State → β) (htick : ∀ s, π s.tick = π s) (hclk : ∀ (s : State) c, π { s with clk := c } = π s)
    (s : State) (t : Tally) : π (s.advanceTo t) = π s := by
  unfold State.advanceTo
  dsimp only
  (repeat' split)
  · rfl
  · exact htick s
  · exact (htick _).trans ((hclk _ _).trans (htick s))

/-- What a hearth's straps give it, and the reload of them. -/
structure HearthStraps where
  balls : Vector Ball 69
  cfg : HearthCfg
  barCode : Nat
  barFallback : Bool
  reloads : BitVec 16
  reload : Option Reload

def Hearth.strapPart (h : Hearth) : HearthStraps :=
  { balls := h.balls, cfg := h.cfg, barCode := h.barCode, barFallback := h.barFallback, reloads := h.reloads, reload := h.reload }

theorem hearthTick_strapPart (quiet : Bool) (now : Tally) (h : Hearth) : (h.tick quiet now).strapPart = h.strapPart := by
  unfold Hearth.tick
  dsimp only
  (repeat' split) <;> rfl

theorem tick_strapPart (s : State) (n : HearthId) : (s.tick.hearth n).strapPart = (s.hearth n).strapPart := by
  cases h : s.running
  · rw [tick_of_not_running h]
  · rw [hearth_tick h]
    exact hearthTick_strapPart _ _ _

theorem advanceTo_strapPart (s : State) (t : Tally) (n : HearthId) : ((s.advanceTo t).hearth n).strapPart = (s.hearth n).strapPart :=
  advanceTo_eq (fun s => (s.hearth n).strapPart) (fun s => tick_strapPart s n) (fun _ _ => rfl) s t

section Advance

variable (s : State) (t : Tally) (n : HearthId)

@[simp] theorem advanceTo_balls : ((s.advanceTo t).hearth n).balls = (s.hearth n).balls :=
  congrArg HearthStraps.balls (advanceTo_strapPart s t n)

@[simp] theorem advanceTo_hearthCfg : ((s.advanceTo t).hearth n).cfg = (s.hearth n).cfg :=
  congrArg HearthStraps.cfg (advanceTo_strapPart s t n)

@[simp] theorem advanceTo_barCode : ((s.advanceTo t).hearth n).barCode = (s.hearth n).barCode :=
  congrArg HearthStraps.barCode (advanceTo_strapPart s t n)

@[simp] theorem advanceTo_barFallback : ((s.advanceTo t).hearth n).barFallback = (s.hearth n).barFallback :=
  congrArg HearthStraps.barFallback (advanceTo_strapPart s t n)

@[simp] theorem advanceTo_reload : ((s.advanceTo t).hearth n).reload = (s.hearth n).reload :=
  congrArg HearthStraps.reload (advanceTo_strapPart s t n)

end Advance

theorem pos_of_settled {s t : State} (h : t.settled = s.settled) : t.pos = s.pos := by
  have hmode : t.mode = s.mode := congrArg Settled.mode h
  have hcfg : t.cfg = s.cfg := congrArg Settled.cfg h
  rw [State.pos, State.chimney, hmode, hcfg, State.pos, State.chimney]

/-! ### Cycles backed off -/

/-- From `s` to `t` BLOCKED cycles have been backed off, and no other cycle has changed. -/
structure Damps (s t : State) : Prop where
  low : ∀ k, (s.hearth k).dampLow = true → (t.hearth k).dampLow = true
  kept : ∀ k c, (s.hearth k).cyc = some c → c.phase ≠ .blocked → (t.hearth k).cyc = some c
  blocked : ∀ k c, (s.hearth k).cyc = some c → c.phase = .blocked → (t.hearth k).cyc = some c ∨ (t.hearth k).dampLow = true

theorem Damps.refl (s : State) : Damps s s := ⟨fun _ => id, fun _ _ h _ => h, fun _ _ h _ => .inl h⟩

theorem Damps.trans {s t u : State} (h : Damps s t) (k : Damps t u) : Damps s u := by
  refine ⟨fun m hm => k.low m (h.low m hm), fun m c hc hp => k.kept m c (h.kept m c hc hp) hp, fun m c hc hp => ?_⟩
  rcases h.blocked m c hc hp with hc' | hlow
  · exact k.blocked m c hc' hp
  · exact .inr (k.low m hlow)

theorem Damps.forList {α : Type} (xs : List α) (f : α → State → State) (h : ∀ x s, Damps s (f x s)) (s : State) :
    Damps s (forList xs f s) := by
  induction xs generalizing s with
  | nil => exact .refl s
  | cons x xs ih => exact (h x s).trans (ih (f x s))

section Damp

variable {s : State} {n : HearthId} {c : Cycle}

/-- R204: the work of the open cycle of hearth `n` leaves no piece. -/
def State.cycleDropped (s : State) (n : HearthId) (c : Cycle) : State := (s.removePieces (Piece.forCycle n c.serial)).freeTags

theorem damp_eq (hc : (s.hearth n).cyc = some c) : s.damp n = ((s.cycleDropped n c).answer n .damp).endPosted n c.serial := by
  rw [State.damp, hc]
  rfl

theorem cycleDropped_cyc (s : State) (n : HearthId) (c : Cycle) (m : HearthId) :
    ((s.cycleDropped n c).hearth m).cyc = (s.hearth m).cyc ∧ ((s.cycleDropped n c).hearth m).dampLow = (s.hearth m).dampLow := by
  have h : (s.cycleDropped n c).hearth m = (s.removePieces (Piece.forCycle n c.serial)).hearth m := rfl
  rw [h, removePieces_hearth]
  exact ⟨rfl, rfl⟩

theorem damp_dampLow (hc : (s.hearth n).cyc = some c) : ((s.damp n).hearth n).dampLow = true := by
  rw [damp_eq hc, State.endPosted, hearth_modHearth_self, State.answer, if_neg (fun h => nomatch h.1), woken_hearth,
    hearth_modHearth_self]
  rfl

theorem damp_hearth_ne (hc : (s.hearth n).cyc = some c) {m : HearthId} (hm : m ≠ n) :
    ((s.damp n).hearth m).cyc = (s.hearth m).cyc ∧ ((s.damp n).hearth m).dampLow = (s.hearth m).dampLow := by
  rw [damp_eq hc, State.endPosted, hearth_modHearth_ne _ _ _ _ hm, answer_hearth_ne _ _ hm]
  exact cycleDropped_cyc s n c m

theorem damps_damp (hc : (s.hearth n).cyc = some c) (hp : c.phase = .blocked) : Damps s (s.damp n) := by
  have hlow := damp_dampLow hc
  refine ⟨fun k hk => ?_, fun k c' hc' hp' => ?_, fun k c' hc' hp' => ?_⟩
  · rcases eq_or_ne k n with rfl | hne
    · exact hlow
    · rw [(damp_hearth_ne hc hne).2, hk]
  · rcases eq_or_ne k n with rfl | hne
    · rw [hc, Option.some.injEq] at hc'
      exact absurd (hc' ▸ hp) hp'
    · rw [(damp_hearth_ne hc hne).1, hc']
  · rcases eq_or_ne k n with rfl | hne
    · exact .inr hlow
    · exact .inl (by rw [(damp_hearth_ne hc hne).1, hc'])

theorem answer_reqs (s : State) (n : HearthId) (r : Resp) : (s.answer n r).reqs = s.reqs := by
  unfold State.answer
  split <;> rfl

theorem damp_reqs (s : State) (n : HearthId) : (s.damp n).reqs = s.reqs := by
  cases hc : (s.hearth n).cyc with
  | none => rw [State.damp, hc]
  | some c =>
    rw [damp_eq hc]
    exact (answer_reqs _ _ _).trans (removePieces_reqs s (Piece.forCycle n c.serial))

theorem damps_woken (s : State) : Damps s s.woken := ⟨fun _ => id, fun _ _ h _ => h, fun _ _ h _ => .inl h⟩

end Damp

/-- R204: the cycle of hearth `k` is backed off if it is BLOCKED toward hearth `n`. -/
def State.dampToward (n k : HearthId) (s : State) : State :=
  match (s.hearth k).cyc with
  | some c => if c.win.kind = 2 ∧ c.win.m = n ∧ c.phase = .blocked then s.damp k else s
  | none => s

theorem damps_dampToward (n k : HearthId) (s : State) : Damps s (s.dampToward n k) := by
  unfold State.dampToward
  (repeat' split)
  next c hc hblocked => exact damps_damp hc hblocked.2.2
  · exact .refl s
  · exact .refl s

theorem dampToward_reqs (n k : HearthId) (s : State) : (s.dampToward n k).reqs = s.reqs := by
  unfold State.dampToward
  (repeat' split)
  · exact damp_reqs s k
  · rfl
  · rfl

theorem dampToward_low {n k : HearthId} {s : State} {c : Cycle} (hc : (s.hearth k).cyc = some c) (hp : c.phase = .blocked)
    (hkind : c.win.kind = 2) (hm : c.win.m = n) : ((s.dampToward n k).hearth k).dampLow = true := by
  have h : s.dampToward n k = s.damp k := by
    rw [State.dampToward, hc]
    exact if_pos ⟨hkind, hm, hp⟩
  rw [h]
  exact damp_dampLow hc

/-- R204: every cycle BLOCKED toward hearth `n` is backed off. -/
theorem dampAll_low {n k : HearthId} {l : List HearthId} (hk : k ∈ l) {s : State} {c : Cycle} (hc : (s.hearth k).cyc = some c)
    (hp : c.phase = .blocked) (hkind : c.win.kind = 2) (hm : c.win.m = n) :
    ((forList l (State.dampToward n) s).hearth k).dampLow = true := by
  induction l generalizing s with
  | nil => exact absurd hk List.not_mem_nil
  | cons a l ih =>
    have hrest := Damps.forList l (State.dampToward n) (damps_dampToward n) (s.dampToward n a)
    rcases List.mem_cons.mp hk with rfl | hk
    · exact hrest.low k (dampToward_low hc hp hkind hm)
    · rcases (damps_dampToward n a s).blocked k c hc hp with hc' | hlow
      · exact ih hk hc'
      · exact hrest.low k hlow

/-! ### The request of a reload -/

section Request

variable {s : State} {n : HearthId} {held high : Nat}

/-- R72: a reload of hearth `n` is asked for. -/
def State.reloadAsked (s : State) (n : HearthId) : State :=
  s.modHearth n fun h => { h with reload := some { start := s.now, sampling := false }, sloadLast := some s.now }

/-- R72, R204: a BLOCKED cycle of the hearth is backed off. -/
def State.reloadDamps (s : State) (n : HearthId) : State :=
  match (s.hearth n).cyc with
  | some c => if c.phase = Phase.blocked then (s.reloadAsked n).damp n else s.reloadAsked n
  | none => s.reloadAsked n

theorem reloadAsked_cyc (s : State) (n m : HearthId) : ((s.reloadAsked n).hearth m).cyc = (s.hearth m).cyc := by
  rw [State.reloadAsked, hearth_modHearth]
  split
  · next h => rw [h]
  · rfl

theorem reloadDamps_of_blocked {c : Cycle} (hc : (s.hearth n).cyc = some c) (hp : c.phase = .blocked) :
    s.reloadDamps n = (s.reloadAsked n).damp n := by
  rw [State.reloadDamps, hc]
  exact if_pos hp

theorem damps_reloadDamps (s : State) (n : HearthId) : Damps (s.reloadAsked n) (s.reloadDamps n) := by
  unfold State.reloadDamps
  (repeat' split)
  next c hc hp => exact damps_damp ((reloadAsked_cyc s n n).trans hc) hp
  · exact .refl _
  · exact .refl _

theorem standing_reloadDamps (s : State) (n : HearthId) : (s.reloadDamps n).standing = (s.reloadAsked n).standing := by
  unfold State.reloadDamps
  (repeat' split)
  · exact standing_damp _ n
  · rfl
  · rfl

theorem reloadDamps_reqs (s : State) (n : HearthId) : (s.reloadDamps n).reqs = s.reqs := by
  unfold State.reloadDamps
  (repeat' split)
  · exact damp_reqs _ n
  · rfl
  · rfl

/-- R72: a request that counts. -/
def State.reloadBegun (s : State) (n : HearthId) : State := ((s.reloadDamps n).dampBlocked n).woken

theorem armed_of_last {last : Option Tally} {now : Tally} (h : ∀ x, last = some x →
    100 ≤ high ∧ (held + high ≤ ticksSince now x ∨ 2 ^ 46 ≤ ticksSince now x)) : armed last now held high Config.reloadFilter = true := by
  cases last with
  | none => rfl
  | some x =>
    obtain ⟨hhigh, hago⟩ := h x rfl
    exact Bool.and_eq_true_iff.mpr ⟨decide_eq_true hhigh, decide_eq_true hago⟩

theorem exec_reloadRequest_counts (hrun : s.running = true) (hready : s.readyHigh = true) (hheld : 100 ≤ held)
    (hseen : 100 ≤ s.sloadSeen n) (hslot : (s.hearth n).slot = .inService) (hnone : (s.hearth n).reload = none)
    (harmed : armed (s.hearth n).sloadLast s.now held high Config.reloadFilter = true) :
    exec (.reloadRequest n ⟨held, high⟩) s = .next (s.reloadBegun n) :=
  if_pos ⟨hrun, hready, Nat.le_min.mpr ⟨hheld, hseen⟩, hslot, by rw [hnone]; rfl, harmed⟩

/-- R27: one that does not count is an edge on a slot input. -/
theorem exec_reloadRequest_not (h : (s.hearth n).reload.isSome = true ∨ s.sloadSeen n < 100) :
    exec (.reloadRequest n ⟨held, high⟩) s = .next (s.slotEdge n) := by
  refine if_neg ?_
  rintro ⟨-, -, hfilter, -, hnone, -⟩
  rcases h with hsome | hshort
  · rw [Option.isNone_iff_eq_none.mp hnone] at hsome
    exact nomatch hsome
  · exact absurd ((Nat.le_min.mp hfilter).2) (Nat.not_le.mpr hshort)

theorem slotEdge_eq (s : State) (n : HearthId) : s.slotEdge n = { s with wake := (s.slotEdge n).wake } := by
  unfold State.slotEdge
  split <;> rfl

theorem reloadBegun_eq (s : State) (n : HearthId) :
    s.reloadBegun n = (forList allHearths (State.dampToward n) (s.reloadDamps n)).woken := rfl

theorem damps_reloadBegun (s : State) (n : HearthId) : Damps (s.reloadDamps n) (s.reloadBegun n) := by
  rw [reloadBegun_eq]
  exact (Damps.forList allHearths _ (damps_dampToward n) _).trans (damps_woken _)

theorem standing_reloadBegun (s : State) (n : HearthId) : (s.reloadBegun n).standing = (s.reloadAsked n).standing := by
  rw [State.reloadBegun, standing_woken, standing_dampBlocked, standing_reloadDamps]

theorem reloadBegun_reqs (s : State) (n : HearthId) : (s.reloadBegun n).reqs = s.reqs := by
  rw [reloadBegun_eq, woken_reqs, forList_eq State.reqs allHearths _ (dampToward_reqs n), reloadDamps_reqs]

/-- R204: a cycle BLOCKED toward the hearth is backed off. -/
theorem reloadBegun_toward {k : HearthId} {c : Cycle} (hc : (s.hearth k).cyc = some c) (hp : c.phase = .blocked)
    (hkind : c.win.kind = 2) (hm : c.win.m = n) : ((s.reloadBegun n).hearth k).dampLow = true := by
  rcases (damps_reloadDamps s n).blocked k c ((reloadAsked_cyc s n k).trans hc) hp with hc' | hlow
  · rw [reloadBegun_eq, woken_hearth]
    exact dampAll_low (mem_allHearths k) hc' hp hkind hm
  · exact (damps_reloadBegun s n).low k hlow

/-- R204: a BLOCKED cycle of the hearth itself is backed off. -/
theorem reloadBegun_own {c : Cycle} (hc : (s.hearth n).cyc = some c) (hp : c.phase = .blocked) :
    ((s.reloadBegun n).hearth n).dampLow = true := by
  refine (damps_reloadBegun s n).low n ?_
  rw [reloadDamps_of_blocked hc hp]
  exact damp_dampLow ((reloadAsked_cyc s n n).trans hc)

/-- R72, entry 59: a cycle that is PAYING or further stands. -/
theorem reloadBegun_kept {c : Cycle} (hc : (s.hearth n).cyc = some c) (hp : c.phase ≠ .blocked) :
    ((s.reloadBegun n).hearth n).cyc = some c :=
  ((damps_reloadDamps s n).trans (damps_reloadBegun s n)).kept n c ((reloadAsked_cyc s n n).trans hc) hp

theorem asked_of_steady {x y : Hearth} (h : x.steady = y.steady) : x.reload = y.reload ∧ x.sloadLast = y.sloadLast ∧ x.slot = y.slot :=
  ⟨congrArg (·.reload) h, congrArg (·.sloadLast) h, congrArg (·.slot) h⟩

theorem reloadBegun_self (s : State) (n : HearthId) :
    ((s.reloadBegun n).hearth n).reload = some { start := s.now, sampling := false } ∧
    ((s.reloadBegun n).hearth n).sloadLast = some s.now ∧ ((s.reloadBegun n).hearth n).slot = (s.hearth n).slot := by
  have hsteady := hearth_steady_of_standing (standing_reloadBegun s n) n
  rw [State.reloadAsked, hearth_modHearth_self] at hsteady
  exact asked_of_steady hsteady

theorem reloadBegun_standing (s : State) (n : HearthId) :
    (s.reloadBegun n).standing = { s.standing with hearths := steadyHearths (s.reloadBegun n).hearths } := by
  have hhearths : steadyHearths (s.reloadBegun n).hearths = steadyHearths (s.reloadAsked n).hearths :=
    congrArg Standing.hearths (standing_reloadBegun s n)
  rw [hhearths, standing_reloadBegun]
  rfl

theorem reloadBegun_others {m : HearthId} (hm : m ≠ n) : ((s.reloadBegun n).hearth m).steady = (s.hearth m).steady := by
  rw [hearth_steady_of_standing (standing_reloadBegun s n), State.reloadAsked, hearth_modHearth_ne _ _ _ _ hm]

end Request

end Sys2Proof.Machine
end

-- ==== Proofs of 02_package_and_balls: the sampling of a reload or resample ====
section
/-! The sampling of a reload or resample (R61, R72, R75, R91): its start, its two groups, the settings applied at the end of the
second, and the obligation. -/

namespace Sys2Proof.Machine

open Sys2Proof

/-! ### Open work that a reload ends -/

theorem exec_reloadDrainExpiry {s : State} {n : HearthId} {r : Reload} (hr : (s.hearth n).reload = some r) (hsampling : r.sampling = false)
    (hrun : s.running = true) :
    exec (.reloadDrainExpiry n) s = .next ((s.advanceTo (tickPlus r.start (s.hearth n).cfg.wdog)).expireWork n) := by
  show execReloadDrainExpiry n s = _
  rw [execReloadDrainExpiry, hr]
  exact if_pos ⟨hrun, by rw [hsampling]; rfl⟩

theorem expireWork_reload (s : State) (n : HearthId) : ((s.expireWork n).hearth n).reload = (s.hearth n).reload :=
  (asked_of_steady (hearth_steady_of_standing (standing_expireWork s n) n)).1

/-! ### The start of a sampling -/

section Start

variable {s : State} {j : ReadJob} {p : Tally}

/-- R72, R91: the reload asked for begins its sampling. -/
def State.reloadSampling (s : State) (j : ReadJob) : State :=
  { (s.modHearth j.hearth fun h => { h with reload := h.reload.map fun r => { r with sampling := true } }) with
    straps := { s.straps with asked := none, paid := none, job := some { j with start := s.now, half := false } } }

/-- R91: the resample asked for begins. -/
def State.resampleBegun (s : State) (j : ReadJob) : State :=
  { s with straps := { s.straps with
      asked := none, paid := none, job := some { j with start := s.now, half := false }
      resampleQ := s.straps.resampleQ.filter (· ≠ j.hearth) } }

theorem reloadSampling_reload {r : Reload} (hr : (s.hearth j.hearth).reload = some r) :
    ((s.reloadSampling j).hearth j.hearth).reload = some { r with sampling := true } := by
  have h : (s.reloadSampling j).hearth j.hearth = (s.modHearth j.hearth fun h => { h with
      reload := h.reload.map fun r => { r with sampling := true } }).hearth j.hearth := rfl
  rw [h, hearth_modHearth_self, hr]
  rfl

theorem reloadSampling_ne {m : HearthId} (hm : m ≠ j.hearth) : (s.reloadSampling j).hearth m = s.hearth m :=
  vget_vset_ne _ _ _ _ hm

theorem reloadSampling_eq (s : State) (j : ReadJob) : s.reloadSampling j = { s with
    hearths := (s.reloadSampling j).hearths
    straps := { s.straps with asked := none, paid := none, job := some { j with start := (s.reloadSampling j).now, half := false } } } :=
  rfl

theorem exec_reloadSamplingStart (hasked : s.straps.asked = some j) (hpaid : s.straps.paid = some p) (hrun : s.running = true)
    (hon : (s.dom (domOf 161)).isOn = true) (hjob : s.straps.job = none) (hreload : j.isReload = true)
    (hidle : s.hearthBusy j.hearth = false) (hlock : (s.hearth j.hearth).lockSeen = false)
    (hsome : (s.hearth j.hearth).reload.isSome = true) :
    exec (.reloadSamplingStart j.hearth) s = .next ((s.advanceTo p).reloadSampling j) := by
  show execReloadSamplingStart j.hearth s = _
  rw [execReloadSamplingStart, hasked, hpaid]
  exact if_pos ⟨hrun, rfl, hreload, hon, by rw [hjob]; rfl, by rw [hidle]; rfl, by rw [hlock]; rfl, hsome⟩

theorem exec_resampleStart (hasked : s.straps.asked = some j) (hpaid : s.straps.paid = some p) (hrun : s.running = true)
    (hon : (s.dom (domOf 161)).isOn = true) (hjob : s.straps.job = none) (hreload : j.isReload = false) :
    exec .resampleStart s = .next ((s.advanceTo p).resampleBegun j) := by
  show execResampleStart s = _
  rw [execResampleStart, hasked, hpaid]
  exact if_pos ⟨hrun, by rw [hreload]; rfl, hon, by rw [hjob]; rfl⟩

end Start

/-! ### The groups -/

section Groups

variable (s : State) (n : HearthId) (second : Bool) (readings : List Reading)

/-- R75: the balls of a hearth with those of one of its groups read. -/
def groupBalls (second : Bool) (readings : List Reading) (v : Vector Ball 69) : Vector Ball 69 :=
  sampleBalls assignedHearth (if second then 35 else 0) (if second then 34 else 35) readings v

theorem sampleHearthGroup_hearth : (s.sampleHearthGroup n second readings).hearth n =
    { s.hearth n with balls := groupBalls second readings (s.hearth n).balls } := vget_vset_self _ _ _

theorem sampleHearthGroup_ne {m : HearthId} (hm : m ≠ n) : (s.sampleHearthGroup n second readings).hearth m = s.hearth m :=
  vget_vset_ne _ _ _ _ hm

/-- R67, R75: the balls of hearth `n` once its second group has been read and all of them are checked. -/
def State.checkedBalls (s : State) (n : HearthId) (readings : List Reading) : Vector Ball 69 :=
  finishHearth s.strapMode s.cfg n (barSize (if (s.hearth n).barFallback then 0 else (s.hearth n).barCode))
    (groupBalls true readings (s.hearth n).balls)

theorem readHearth_hearth : (s.readHearth n readings).hearth n = { s.hearth n with balls := s.checkedBalls n readings } := by
  rw [State.readHearth, hearth_modHearth_self, sampleHearthGroup_hearth, State.checkedBalls, apply_ite barSize]

theorem hearthsOnly_readHearth : HearthsOnly [n] s (s.readHearth n readings) := by
  refine ⟨rfl, fun m hm => ?_, id⟩
  have hne : m ≠ n := fun h => hm (List.mem_singleton.mpr h)
  rw [State.readHearth, hearth_modHearth_ne _ _ _ _ hne, sampleHearthGroup_ne s n true readings hne]

theorem hearthsOnly_readerFree (l : List HearthId) : HearthsOnly l s s.readerFree := ⟨rfl, fun _ _ => rfl, fun _ => rfl⟩

end Groups

section FirstGroup

variable (s : State) (j : ReadJob) (readings : List Reading)

/-- R75: the first group of reading `j` ends. -/
def State.firstRead (s : State) (j : ReadJob) (readings : List Reading) : State :=
  ({ s with straps := { s.straps with job := some { j with half := true } } }).sampleHearthGroup j.hearth false readings

theorem exec_strapGroupEnd_half {s : State} {j : ReadJob} (hseq : s.straps.seq = none) (hjob : s.straps.job = some j)
    (hhalf : j.half = false) (hrun : s.running = true) :
    exec (.strapGroupEnd readings) s = .next ((s.advanceTo (tickPlus j.start 2499)).firstRead j readings) := by
  show execStrapGroupEnd readings s = _
  rw [execStrapGroupEnd, hseq]
  show Host.Outcome.next (s.halfRead readings) = _
  rw [State.halfRead, hjob]
  exact congrArg Host.Outcome.next (if_pos ⟨hrun, by rw [hhalf]; rfl⟩)

theorem firstRead_hearth : (s.firstRead j readings).hearth j.hearth =
    { s.hearth j.hearth with balls := groupBalls false readings (s.hearth j.hearth).balls } := sampleHearthGroup_hearth _ _ _ _

theorem firstRead_ne {m : HearthId} (hm : m ≠ j.hearth) : (s.firstRead j readings).hearth m = s.hearth m :=
  sampleHearthGroup_ne _ _ _ _ hm

theorem firstRead_tally : vget (s.firstRead j readings).straps.groupTally (firstGroup j.hearth) = (s.firstRead j readings).now :=
  vget_vset_self _ _ _

theorem firstRead_standing : (s.firstRead j readings).standing =
    { s.standing with hearths := steadyHearths (s.firstRead j readings).hearths, straps := (s.firstRead j readings).straps } := rfl

end FirstGroup

/-! ### The second group -/

section SecondGroup

variable (s : State) (n : HearthId) (readings : List Reading)

/-- R75, R91: the second group of hearth `n` ends, and the reader is free. -/
def State.secondRead (s : State) (n : HearthId) (readings : List Reading) : State := s.readerFree.readHearth n readings

theorem hearthsOnly_secondRead : HearthsOnly [n] s (s.secondRead n readings) :=
  (hearthsOnly_readerFree s _).trans (hearthsOnly_readHearth _ n readings)

theorem secondRead_job : (s.secondRead n readings).straps.job = none := rfl

theorem settled_secondRead : (s.secondRead n readings).settled = s.settled := by
  rw [State.secondRead, settled_readHearth, settled_readerFree]

theorem secondRead_hearth : (s.secondRead n readings).hearth n = { s.hearth n with balls := s.checkedBalls n readings } :=
  readHearth_hearth s.readerFree n readings

theorem secondRead_pos : (s.secondRead n readings).pos = s.pos := pos_of_settled (settled_secondRead s n readings)

/-- R75: the settings that hearth `n` shows. -/
def State.shownCfg (s : State) (n : HearthId) : HearthCfg := hearthCfgOf s.pos (s.hearth n).balls

theorem secondRead_shownCfg : (s.secondRead n readings).shownCfg n = hearthCfgOf s.pos (s.checkedBalls n readings) := by
  rw [State.shownCfg, secondRead_pos, secondRead_hearth]

end SecondGroup

theorem checkedBalls_advanceTo (s : State) (t : Tally) (n : HearthId) (readings : List Reading) :
    (s.advanceTo t).checkedBalls n readings = s.checkedBalls n readings := by
  have hmode : (s.advanceTo t).strapMode = s.strapMode := congrArg Settled.strapMode (settled_advanceTo s t)
  have hcfg : (s.advanceTo t).cfg = s.cfg := congrArg Settled.cfg (settled_advanceTo s t)
  rw [State.checkedBalls, hmode, hcfg, advanceTo_balls, advanceTo_barCode, advanceTo_barFallback, State.checkedBalls]

/-! ### Settings that are applied -/

theorem strapPart_of_steady {x y : Hearth} (h : x.steady = y.steady) : x.strapPart = y.strapPart :=
  congrArg (·.strapPart) h

theorem slot_of_steady {x y : Hearth} (h : x.steady = y.steady) : x.slot = y.slot := congrArg (·.slot) h

theorem entered_parts (x : Slot) (t : Tally) (h : Hearth) : (h.entered x t).slot = x ∧ (h.entered x t).strapPart = h.strapPart := ⟨rfl, rfl⟩

section Entries

variable (s : State) (n : HearthId)

theorem collapseActions_strapPart : ((s.collapseActions n).hearth n).strapPart = { (s.hearth n).strapPart with reload := none } :=
  strapPart_of_steady (collapseActions_steady s n)

/-- R213: hearth `h` in STRAP_FAULT from tick `t` on. -/
def Hearth.faulted (t : Tally) (h : Hearth) : Hearth := { h.entered .strapFault t with goodNew := false, fell := false }

theorem hearthsOnly_strapFault : HearthsOnly [n] s (s.strapFault n) :=
  (hearthsOnly_enter s n .strapFault true).trans (hearthsOnly_modHearth _ n _)

theorem strapFault_hearth : (s.strapFault n).hearth n = (s.hearth n).faulted s.now := by
  rw [State.strapFault, hearth_modHearth_self, enter_hearth]
  rfl

theorem faulted_parts (t : Tally) (h : Hearth) : (h.faulted t).slot = .strapFault ∧ (h.faulted t).strapPart = h.strapPart := ⟨rfl, rfl⟩

/-- R216: HnBREQ_N of hearth `h` stays high until tick `t`. -/
def Hearth.holdsOff (t : Tally) (h : Hearth) : Hearth := { h with bus := { h.bus with breqFrom := some t, breqHold := true } }

theorem holdsOff_parts (t : Tally) (h : Hearth) : (h.holdsOff t).slot = h.slot ∧ (h.holdsOff t).strapPart = h.strapPart := ⟨rfl, rfl⟩

/-- R216: the hearth is in its slot state `x`, and its pads are asked for. -/
def State.padsAsked (s : State) (n : HearthId) (x : Slot) (event : Bool) : State := (s.enter n x event).padsOn n

theorem standing_padsAsked (x : Slot) (event : Bool) : (s.padsAsked n x event).standing = (s.enter n x event).standing :=
  standing_padsOn _ n

theorem padsAsked_parts (x : Slot) (event : Bool) : ((s.padsAsked n x event).hearth n).slot = x ∧
    ((s.padsAsked n x event).hearth n).strapPart = (s.hearth n).strapPart := by
  have hsteady := hearth_steady_of_standing (standing_padsAsked s n x event) n
  rw [enter_hearth] at hsteady
  obtain ⟨hslot, hstraps⟩ := entered_parts x s.now (s.hearth n)
  exact ⟨(slot_of_steady hsteady).trans hslot, (strapPart_of_steady hsteady).trans hstraps⟩

theorem enterService_eq : s.enterService n = ((s.padsAsked n .inService true).modHearth n
    (Hearth.holdsOff ((s.padsAsked n .inService true).breqAfter n))).contribute n := rfl

theorem hearthsOnly_padsAsked (x : Slot) (event : Bool) : HearthsOnly [n] s (s.padsAsked n x event) :=
  (hearthsOnly_enter s n x event).trans (.of_standing (standing_padsAsked s n x event))

theorem hearthsOnly_putReady : HearthsOnly [n] s (s.putReady n) := by
  unfold State.putReady
  split
  · rw [enterService_eq]
    exact ((hearthsOnly_padsAsked s n _ _).trans (hearthsOnly_modHearth _ n _)).trans (.of_standing (standing_contribute _ n))
  · exact hearthsOnly_padsAsked s n .ready false

/-- R91, R214: a resampled hearth is READY, or IN_SERVICE from the gate on. -/
theorem putReady_hearth : ((s.putReady n).hearth n).slot = (if s.gate then .inService else .ready) ∧
    ((s.putReady n).hearth n).strapPart = (s.hearth n).strapPart := by
  unfold State.putReady
  split
  · obtain ⟨hslot, hstraps⟩ := padsAsked_parts s n .inService true
    obtain ⟨hslot', hstraps'⟩ := holdsOff_parts ((s.padsAsked n .inService true).breqAfter n) ((s.padsAsked n .inService true).hearth n)
    have hsteady := hearth_steady_of_standing (standing_contribute ((s.padsAsked n .inService true).modHearth n
      (Hearth.holdsOff ((s.padsAsked n .inService true).breqAfter n))) n) n
    rw [hearth_modHearth_self] at hsteady
    rw [enterService_eq]
    exact ⟨(slot_of_steady hsteady).trans (hslot'.trans hslot), (strapPart_of_steady hsteady).trans (hstraps'.trans hstraps)⟩
  · exact padsAsked_parts s n .ready false

end Entries

/-! ### The end of a reload -/

section ReloadEnd

variable (s : State) (n : HearthId)

/-- R242: the sources of a hearth in service move to their new entries. -/
def State.sourcesMoved (s : State) (n : HearthId) : State :=
  if (s.hearth n).slot.sources then s.moveSources n (s.shownCfg n) else s

theorem standing_sourcesMoved : (s.sourcesMoved n).standing = s.standing := by
  unfold State.sourcesMoved
  split
  · exact standing_moveSources s n _
  · rfl

/-- R72, R75: the settings that hearth `n` shows apply, and its reload is counted. -/
def State.reloadSettled (s : State) (n : HearthId) : State :=
  (s.sourcesMoved n).modHearth n fun h => { h with cfg := s.shownCfg n, reload := none, reloads := h.reloads + 1 }

/-- R214: with settings that are not VALID the hearth is in STRAP_FAULT. -/
def State.reloadEnd (s : State) (n : HearthId) : State :=
  if (s.shownCfg n).ok then (s.reloadSettled n).releaseHeld n
  else (((s.reloadSettled n).collapseActions n).strapFault n).releaseHeld n

/-- What a reload makes of the straps of a hearth. -/
def HearthStraps.reloaded (x : HearthStraps) (cfg : HearthCfg) : HearthStraps :=
  { x with cfg := cfg, reload := none, reloads := x.reloads + 1 }

theorem hearthsOnly_reloadSettled : HearthsOnly [n] s (s.reloadSettled n) :=
  (HearthsOnly.of_standing (standing_sourcesMoved s n)).trans (hearthsOnly_modHearth _ n _)

theorem reloadSettled_hearth : ((s.reloadSettled n).hearth n).slot = (s.hearth n).slot ∧
    ((s.reloadSettled n).hearth n).strapPart = (s.hearth n).strapPart.reloaded (s.shownCfg n) := by
  have hsteady := hearth_steady_of_standing (standing_sourcesMoved s n) n
  have hslot := slot_of_steady hsteady
  have hstraps := congrArg (HearthStraps.reloaded · (s.shownCfg n)) (strapPart_of_steady hsteady)
  rw [State.reloadSettled, hearth_modHearth_self]
  generalize (s.sourcesMoved n).hearth n = h at hslot hstraps
  exact ⟨hslot, hstraps⟩

theorem hearthsOnly_reloadEnd : HearthsOnly [n] s (s.reloadEnd n) := by
  have hsettled := hearthsOnly_reloadSettled s n
  unfold State.reloadEnd
  split
  · exact hsettled.trans (.of_standing (standing_releaseHeld _ n))
  · exact ((hsettled.trans (hearthsOnly_collapseActions _ n)).trans (hearthsOnly_strapFault _ n)).trans
      (.of_standing (standing_releaseHeld _ n))

theorem reloadEnd_hearth : ((s.reloadEnd n).hearth n).slot = (if (s.shownCfg n).ok then (s.hearth n).slot else .strapFault) ∧
    ((s.reloadEnd n).hearth n).strapPart = (s.hearth n).strapPart.reloaded (s.shownCfg n) := by
  obtain ⟨hslot, hstraps⟩ := reloadSettled_hearth s n
  unfold State.reloadEnd
  split
  · have hsteady := hearth_steady_of_standing (standing_releaseHeld (s.reloadSettled n) n) n
    exact ⟨(slot_of_steady hsteady).trans hslot, (strapPart_of_steady hsteady).trans hstraps⟩
  · have hsteady := hearth_steady_of_standing (standing_releaseHeld (((s.reloadSettled n).collapseActions n).strapFault n) n) n
    rw [strapFault_hearth] at hsteady
    obtain ⟨hfault, hfaultStraps⟩ := faulted_parts ((s.reloadSettled n).collapseActions n).now
      (((s.reloadSettled n).collapseActions n).hearth n)
    refine ⟨(slot_of_steady hsteady).trans hfault, (strapPart_of_steady hsteady).trans (hfaultStraps.trans ?_)⟩
    rw [collapseActions_strapPart, hstraps]
    rfl

theorem exec_reloadApply {s : State} {j : ReadJob} (readings : List Reading) (hjob : s.straps.job = some j)
    (hreload : j.isReload = true) (hhalf : j.half = true) (hrun : s.running = true) :
    exec (.reloadApply j.hearth readings) s =
      .next (((s.advanceTo (tickPlus j.start 4999)).secondRead j.hearth readings).reloadEnd j.hearth) := by
  show execReloadApply j.hearth readings s = _
  rw [execReloadApply, hjob]
  refine (if_pos ⟨hrun, rfl, hreload, hhalf⟩).trans ?_
  rw [State.reloadEnd, apply_ite Host.Outcome.next]
  rfl

end ReloadEnd

/-! ### The end of a resample -/

section ResampleEnd

variable (s : State) (n : HearthId)

/-- R91, R214: the settings that hearth `n` shows apply, with no level of an input counted. -/
def State.resampleSettled (s : State) (n : HearthId) : State :=
  s.modHearth n fun h => { h with cfg := s.shownCfg n, goodNew := false, irqLow := 0 }

/-- R91, R214: a resampled hearth is ready, or in STRAP_FAULT with settings that are not VALID. -/
def State.resampleEnd (s : State) (n : HearthId) : State :=
  if (s.shownCfg n).ok then ((s.resampleSettled n).putReady n).releaseHeld n else ((s.resampleSettled n).strapFault n).releaseHeld n

theorem hearthsOnly_resampleEnd : HearthsOnly [n] s (s.resampleEnd n) := by
  have hsettled : HearthsOnly [n] s (s.resampleSettled n) := hearthsOnly_modHearth s n _
  unfold State.resampleEnd
  split
  · exact (hsettled.trans (hearthsOnly_putReady _ n)).trans (.of_standing (standing_releaseHeld _ n))
  · exact (hsettled.trans (hearthsOnly_strapFault _ n)).trans (.of_standing (standing_releaseHeld _ n))

theorem resampleEnd_hearth : ((s.resampleEnd n).hearth n).slot =
      (if (s.shownCfg n).ok then (if s.gate then .inService else .ready) else .strapFault) ∧
    ((s.resampleEnd n).hearth n).strapPart = { (s.hearth n).strapPart with cfg := s.shownCfg n } := by
  have hsettled : ((s.resampleSettled n).hearth n).strapPart = { (s.hearth n).strapPart with cfg := s.shownCfg n } := by
    rw [State.resampleSettled, hearth_modHearth_self]
    rfl
  unfold State.resampleEnd
  split
  · have hsteady := hearth_steady_of_standing (standing_releaseHeld ((s.resampleSettled n).putReady n) n) n
    obtain ⟨hslot, hstraps⟩ := putReady_hearth (s.resampleSettled n) n
    exact ⟨(slot_of_steady hsteady).trans hslot, ((strapPart_of_steady hsteady).trans hstraps).trans hsettled⟩
  · have hsteady := hearth_steady_of_standing (standing_releaseHeld ((s.resampleSettled n).strapFault n) n) n
    rw [strapFault_hearth] at hsteady
    obtain ⟨hfault, hfaultStraps⟩ := faulted_parts (s.resampleSettled n).now ((s.resampleSettled n).hearth n)
    exact ⟨(slot_of_steady hsteady).trans hfault, (strapPart_of_steady hsteady).trans (hfaultStraps.trans hsettled)⟩

theorem exec_resampleEnd {s : State} {j : ReadJob} (readings : List Reading) (hjob : s.straps.job = some j)
    (hreload : j.isReload = false) (hhalf : j.half = true) (hrun : s.running = true) :
    exec (.resampleEnd readings) s =
      .next (((s.advanceTo (tickPlus j.start 4999)).secondRead j.hearth readings).resampleEnd j.hearth) := by
  show execResampleEnd readings s = _
  rw [execResampleEnd, hjob]
  refine (if_pos ⟨hrun, by rw [hreload]; rfl, hhalf⟩).trans ?_
  rw [State.resampleEnd, apply_ite Host.Outcome.next]
  rfl

end ResampleEnd

/-! ### The statement -/

section Reading

variable {s t : State} {n : HearthId} {readings : List Reading} {at' : Tally}

/-- Of what stands, the end of a reading changes its hearth, the reader and the domains. -/
theorem reading_frame {u : State} (h : HearthsOnly [n] (u.secondRead n readings) t) : t.clk = u.clk ∧ t.straps.job = none ∧
    (∀ m, m ≠ n → (t.hearth m).steady = (u.hearth m).steady) ∧
    t.standing = { u.standing with hearths := steadyHearths t.hearths, straps := t.straps, doms := t.doms } := by
  have honly := (hearthsOnly_secondRead u n readings).trans h
  exact ⟨congrArg Standing.clk honly.standing, h.job (secondRead_job u n readings),
    fun m hm => honly.others m (mt List.mem_singleton.mp hm), honly.standing⟩

/-- R75: the settings that the reading shows are those of the balls checked as the clock stood before it. -/
theorem reading_shownCfg (s : State) (at' : Tally) (n : HearthId) (readings : List Reading) :
    ((s.advanceTo at').secondRead n readings).shownCfg n = hearthCfgOf s.pos (s.checkedBalls n readings) := by
  rw [secondRead_shownCfg, checkedBalls_advanceTo, pos_of_settled (settled_advanceTo s at')]

theorem reading_strapPart (s : State) (at' : Tally) (n : HearthId) (readings : List Reading) :
    (((s.advanceTo at').secondRead n readings).hearth n).strapPart =
      { (s.hearth n).strapPart with balls := s.checkedBalls n readings } := by
  rw [secondRead_hearth, checkedBalls_advanceTo, ← advanceTo_strapPart s at' n]
  generalize (s.advanceTo at').hearth n = x, s.checkedBalls n readings = v
  rfl

theorem reading_slot (u : State) (n : HearthId) (readings : List Reading) : ((u.secondRead n readings).hearth n).slot = (u.hearth n).slot := by
  rw [secondRead_hearth]

theorem reading_gate (s : State) (at' : Tally) (n : HearthId) (readings : List Reading) :
    ((s.advanceTo at').secondRead n readings).gate = s.gate :=
  congrArg Settled.gate ((settled_secondRead _ n readings).trans (settled_advanceTo s at'))

end Reading

section Parts

variable {x y : Hearth} {v : Vector Ball 69} {cfg : HearthCfg}

theorem reloaded_parts (h : x.strapPart = HearthStraps.reloaded { y.strapPart with balls := v } cfg) :
    x.balls = v ∧ x.cfg = cfg ∧ x.barCode = y.barCode ∧ x.reload = none ∧ x.reloads = y.reloads + 1 :=
  ⟨congrArg HearthStraps.balls h, congrArg HearthStraps.cfg h, congrArg HearthStraps.barCode h, congrArg HearthStraps.reload h,
    congrArg HearthStraps.reloads h⟩

theorem resampled_parts (h : x.strapPart = { y.strapPart with balls := v, cfg := cfg }) :
    x.balls = v ∧ x.cfg = cfg ∧ x.barCode = y.barCode :=
  ⟨congrArg HearthStraps.balls h, congrArg HearthStraps.cfg h, congrArg HearthStraps.barCode h⟩

end Parts

theorem clk_of_standing {s t : State} (h : t.standing = s.standing) : t.clk = s.clk := congrArg Standing.clk h

/-- Settles O50: a reload backs cycles off (`Damps`) and its open work ends at the watchdog (`expireWork_over`); a reading is its two
groups (`firstRead`, `secondRead`), after which the settings apply (`reloadEnd`, `resampleEnd`). -/
theorem reloadsAndResamples : Obligations.ReloadsAndResamples := by
  unfold Obligations.ReloadsAndResamples
  refine ⟨fun n held high s hrun hready hheld => ⟨fun hnot => ?_, fun hseen hlast hslot hnone => ?_⟩,
    fun n r s hr hsampling hrun => ?_, fun j p s hasked hrun hpaid hon hjob => ⟨fun hreload hidle hlock r hr => ?_, fun hreload => ?_⟩,
    fun j readings s hseq hjob hhalf hrun => ?_, fun j readings s hjob hhalf hrun v hv => ?_⟩
  · exact ⟨_, exec_reloadRequest_not hnot, slotEdge_eq s n⟩
  · have hexec := exec_reloadRequest_counts hrun hready hheld hseen hslot hnone (armed_of_last hlast)
    obtain ⟨hreload, hsload, hslot'⟩ := reloadBegun_self s n
    refine ⟨s.reloadBegun n, hexec, hreload, hsload, ?_, ?_, ?_, ?_, ?_, reloadBegun_reqs s n, reloadBegun_standing s n⟩
    · rw [hslot', hslot]
    · exact fun k c hc hp hkind hm => reloadBegun_toward hc hp hkind hm
    · exact fun c hc hp => reloadBegun_own hc hp
    · exact fun c hc hp => reloadBegun_kept hc hp
    · exact fun m hm => reloadBegun_others hm
  · obtain ⟨hclosed, hjobs, hlock⟩ := expireWork_over (s.advanceTo (tickPlus r.start (s.hearth n).cfg.wdog)) n
    have hstanding := standing_expireWork (s.advanceTo (tickPlus r.start (s.hearth n).cfg.wdog)) n
    refine ⟨_, exec_reloadDrainExpiry hr hsampling hrun, clk_of_standing hstanding, hlock, hclosed, hjobs, ?_, hstanding⟩
    rw [expireWork_reload, advanceTo_reload, hr]
  · refine ⟨_, exec_reloadSamplingStart hasked hpaid hrun hon hjob hreload hidle hlock (by rw [hr]; rfl),
      reloadSampling_reload (by rw [advanceTo_reload, hr]), fun m hm => reloadSampling_ne hm, reloadSampling_eq _ j⟩
  · exact ⟨_, exec_resampleStart hasked hpaid hrun hon hjob hreload, rfl⟩
  · have hhearth := firstRead_hearth (s.advanceTo (tickPlus j.start 2499)) j readings
    refine ⟨_, exec_strapGroupEnd_half readings hseq hjob hhalf hrun, rfl, ?_, rfl, rfl, firstRead_tally _ j readings, ?_,
      fun m hm => firstRead_ne _ j readings hm, firstRead_standing _ j readings⟩
    · rw [hhearth, advanceTo_balls]
      rfl
    · rw [hhearth, advanceTo_hearthCfg]
  · have hv' : v = s.checkedBalls j.hearth readings := hv
    have hcfg := reading_shownCfg s (tickPlus j.start 4999) j.hearth readings
    have hread := reading_strapPart s (tickPlus j.start 4999) j.hearth readings
    rw [← hv'] at hcfg hread
    cases hreload : j.isReload
    case true =>
      obtain ⟨hclk, hfree, hothers, hstanding⟩ := reading_frame (hearthsOnly_reloadEnd
        ((s.advanceTo (tickPlus j.start 4999)).secondRead j.hearth readings) j.hearth)
      obtain ⟨hslot, hstraps⟩ := reloadEnd_hearth ((s.advanceTo (tickPlus j.start 4999)).secondRead j.hearth readings) j.hearth
      rw [hcfg, reading_slot] at hslot
      rw [hcfg, hread] at hstraps
      obtain ⟨hballs, hset, hbar, hover, hcount⟩ := reloaded_parts hstraps
      refine ⟨_, exec_reloadApply readings hjob hreload hhalf hrun, hclk, hballs, hset, hbar, hfree, fun _ => ⟨hover, hcount⟩,
        fun hok => ?_, fun hok => ?_, hothers, hstanding⟩
      · rw [hslot, if_neg (Bool.eq_false_iff.mp hok)]
      · rw [hslot, if_pos hok, if_pos rfl]
    case false =>
      obtain ⟨hclk, hfree, hothers, hstanding⟩ := reading_frame (hearthsOnly_resampleEnd
        ((s.advanceTo (tickPlus j.start 4999)).secondRead j.hearth readings) j.hearth)
      obtain ⟨hslot, hstraps⟩ := resampleEnd_hearth ((s.advanceTo (tickPlus j.start 4999)).secondRead j.hearth readings) j.hearth
      rw [hcfg, reading_gate] at hslot
      rw [hcfg, hread] at hstraps
      obtain ⟨hballs, hset, hbar⟩ := resampled_parts hstraps
      refine ⟨_, exec_resampleEnd readings hjob hreload hhalf hrun, hclk, hballs, hset, hbar, hfree, nofun,
        fun hok => ?_, fun hok => ?_, hothers, hstanding⟩
      · rw [hslot, if_neg (Bool.eq_false_iff.mp hok)]
      · rw [hslot, if_pos hok, if_neg Bool.false_ne_true]

end Sys2Proof.Machine
end

-- ==== Proofs of 03_strap_language: the windows of the codes ====
section
/-! The windows of R57: `windowOf` names the one window that holds a mean, and `classify` reports it. -/

namespace Sys2Proof.Machine

open Sys2Proof

/-- R57: the mean of `n` readings that add up to `sum` lies in the window of code `c`. -/
def InWindow (n sum c : Nat) : Prop :=
  (c = 0 ∧ sum < n * 40000) ∨ (c = 15 ∧ n * 1540000 ≤ sum) ∨
    (1 ≤ c ∧ c ≤ 14 ∧ n * (100000 * c) ≤ sum + n * 40000 ∧ sum ≤ n * (100000 * c) + n * 40000)

section Windows

variable {n sum c : Nat}

/-- R57: the code that `windowOf` tries is that of the only window the mean can lie in. -/
theorem triedCode_eq (hn : 0 < n) (hlow : n * (100000 * c) ≤ sum + n * 40000) (hhigh : sum ≤ n * (100000 * c) + n * 40000) :
    (sum + n * 50000) / (n * 100000) = c := by
  have hc : c * (n * 100000) = n * (100000 * c) := by ring
  refine Nat.div_eq_of_lt_le ?_ ?_
  · omega
  · rw [Nat.succ_mul]
    omega

theorem windowOf_eq_some_iff (hn : 0 < n) : windowOf n sum = some c ↔ InWindow n sum c := by
  unfold windowOf InWindow
  split
  next hzero =>
    constructor
    · rintro ⟨⟩
      exact .inl ⟨rfl, hzero⟩
    · rintro (⟨rfl, -⟩ | ⟨-, hge⟩ | ⟨hone, -, hlow, -⟩)
      · rfl
      · omega
      · have := Nat.mul_le_mul_left n (Nat.mul_le_mul_left 100000 hone)
        omega
  next hzero =>
    split
    next htop =>
      constructor
      · rintro ⟨⟩
        exact .inr (.inl ⟨rfl, htop⟩)
      · rintro (⟨-, hlt⟩ | ⟨rfl, -⟩ | ⟨-, hc, -, hhigh⟩)
        · exact absurd hlt hzero
        · rfl
        · have := Nat.mul_le_mul_left n (Nat.mul_le_mul_left 100000 hc)
          omega
    next htop =>
      constructor
      · intro h
        obtain ⟨hin, hc⟩ := Option.ite_none_right_eq_some.mp h
        exact .inr (.inr (Option.some.inj hc ▸ hin))
      · rintro (⟨-, hlt⟩ | ⟨-, hge⟩ | hin)
        · exact absurd hlt hzero
        · exact absurd hge htop
        · obtain ⟨hone, hc, hlow, hhigh⟩ := hin
          rw [triedCode_eq hn hlow hhigh]
          exact if_pos ⟨hone, hc, hlow, hhigh⟩

theorem InWindow.lt_sixteen (h : InWindow n sum c) : c < 16 := by
  unfold InWindow at h
  omega

end Windows

section Classify

variable {r : Reading}

theorem classify_of_window {c : Nat} (hdriven : r.checkUv ≤ 150000) (h : windowOf r.convertUv.length r.convertUv.sum = some c) :
    classify r = (BitVec.ofNat 4 c, .valid) := by
  rw [classify, if_neg (by omega)]
  simp only [h]

theorem classify_of_no_window (hdriven : r.checkUv ≤ 150000) (h : windowOf r.convertUv.length r.convertUv.sum = none) :
    (classify r).2 = .gap := by
  rw [classify, if_neg (by omega)]
  simp only [h]

theorem length_of_wf (h : r.wf = true) : r.convertUv.length = 300 := of_decide_eq_true h

/-- R57: a reading is VALID with code `c` when its mean lies in the window of `c`. -/
theorem classify_valid_iff {c : Nat} (hwf : r.wf = true) (hdriven : r.checkUv ≤ 150000) (hc : c < 16) :
    classify r = (BitVec.ofNat 4 c, .valid) ↔ InWindow 300 r.convertUv.sum c := by
  have hlen := length_of_wf hwf
  rw [← windowOf_eq_some_iff (by decide), ← hlen]
  refine ⟨fun h => ?_, classify_of_window hdriven⟩
  cases hw : windowOf r.convertUv.length r.convertUv.sum with
  | none =>
    have hgap := classify_of_no_window hdriven hw
    rw [h] at hgap
    cases hgap
  | some k =>
    have hk : k < 16 := ((windowOf_eq_some_iff (by omega)).mp hw).lt_sixteen
    have hcode := congrArg (fun x => x.1.toNat) ((classify_of_window hdriven hw).symm.trans h)
    simp only [BitVec.toNat_ofNat] at hcode
    congr 1
    omega

theorem classify_gap_iff (hwf : r.wf = true) (hdriven : r.checkUv ≤ 150000) :
    (classify r).2 = .gap ↔ ∀ k, windowOf 300 r.convertUv.sum ≠ some k := by
  rw [← length_of_wf hwf, ← Option.eq_none_iff_forall_ne_some]
  refine ⟨fun h => ?_, classify_of_no_window hdriven⟩
  cases hw : windowOf r.convertUv.length r.convertUv.sum with
  | none => rfl
  | some k =>
    rw [classify_of_window hdriven hw] at h
    cases h

end Classify

/-- Settles O11: `windowOf` holds the windows of R57 for any count of readings (`windowOf_eq_some_iff`), taken at one reading and
at the 300 of R56. -/
theorem codeWindows : Obligations.CodeWindows := by
  unfold Obligations.CodeWindows
  refine ⟨fun uv c => ?_, fun r c hwf hdriven hc => ⟨?_, classify_gap_iff hwf hdriven⟩⟩
  · rw [windowCode, windowOf_eq_some_iff Nat.one_pos, InWindow]
    simp only [Nat.one_mul]
  · rw [classify_valid_iff hwf hdriven hc, InWindow, Nat.mul_add]

end Sys2Proof.Machine
end

-- ==== Proofs of 03_strap_language: what the groups leave alone ====
section
/-! What the end of a later strap group (R61, R75) leaves alone: what the sequence records of itself, the settings that its checks
give, the clock and the straps of the hearths (`KeepsStraps`), through each operation that a group's end calls. -/

namespace Sys2Proof.Machine

open Sys2Proof

/-! ### What the sequence records, and the settings checked -/

/-- How far the strap sequence is, with what its groups leave alone but for what ends with a tick. -/
structure Sequence where
  seq : Option Nat
  seqDone : Bool
  lastGroup : Nat
  stone : List Host.Cell
  pending : List Instr
  link : HostLink
  dll : Dll

def State.sequence (s : State) : Sequence :=
  { seq := s.straps.seq, seqDone := s.straps.seqDone, lastGroup := s.straps.lastGroup, stone := s.stone, pending := s.pending,
    link := { s.link with clkreqReleased := false }, dll := { s.dll with ackDue := false } }

/-- The global straps and what their check gives. -/
structure GlobalPart where
  globals : Vector Ball 180
  checkedOnce : Bool
  checked : Bool
  cfg : GlobalCfg
  prot : Prot

def State.globalPart (s : State) : GlobalPart :=
  { globals := s.straps.globals, checkedOnce := s.straps.checkedOnce, checked := s.straps.checked, cfg := s.cfg, prot := s.prot }

/-- From `s` to `t` neither the clock nor the sequence moves, and the straps with what they give stand. -/
structure KeepsStraps (s t : State) : Prop where
  clk : t.clk = s.clk
  sequence : t.sequence = s.sequence
  globalPart : t.globalPart = s.globalPart
  hearths : ∀ m, (t.hearth m).strapPart = (s.hearth m).strapPart

section KeepsStraps

variable {s t u : State}

theorem KeepsStraps.refl (s : State) : KeepsStraps s s := ⟨rfl, rfl, rfl, fun _ => rfl⟩

theorem KeepsStraps.trans (h : KeepsStraps s t) (k : KeepsStraps t u) : KeepsStraps s u :=
  ⟨k.clk.trans h.clk, k.sequence.trans h.sequence, k.globalPart.trans h.globalPart, fun m => (k.hearths m).trans (h.hearths m)⟩

theorem KeepsStraps.forList {α : Type} (xs : List α) (f : α → State → State) (h : ∀ x s, KeepsStraps s (f x s)) (s : State) :
    KeepsStraps s (forList xs f s) := by
  induction xs generalizing s with
  | nil => exact .refl s
  | cons x xs ih => exact (h x s).trans (ih (f x s))

/-- What `Standing` shows is enough. -/
theorem KeepsStraps.of_standing (h : t.standing = s.standing) : KeepsStraps s t where
  clk := clk_of_standing h
  sequence := congrArg (fun x : Standing => Sequence.mk x.straps.seq x.straps.seqDone x.straps.lastGroup x.stone x.pending
    { x.link with clkreqReleased := false } { x.dll with ackDue := false }) h
  globalPart := congrArg (fun x : Standing => GlobalPart.mk x.straps.globals x.straps.checkedOnce x.straps.checked x.cfg x.prot) h
  hearths m := strapPart_of_steady (hearth_steady_of_standing h m)

theorem keepsStraps_modHearth (s : State) (n : HearthId) (f : Hearth → Hearth) (hf : ∀ h, (f h).strapPart = h.strapPart) :
    KeepsStraps s (s.modHearth n f) := by
  refine ⟨rfl, rfl, rfl, fun m => ?_⟩
  rw [hearth_modHearth]
  split
  next hm => rw [hf, hm]
  · rfl

end KeepsStraps

/-! ### The sequence alone, through ticks -/

section Ticks

variable (s : State)

theorem tick_sequence : s.tick.sequence = s.sequence := by
  cases h : s.running
  · rw [tick_of_not_running h]
  · rw [tick_eq h]
    rfl

theorem tick_globalPart : s.tick.globalPart = s.globalPart := by
  cases h : s.running
  · rw [tick_of_not_running h]
  · rw [tick_eq h]
    rfl

theorem advanceTS_sequence (n : Nat) : (s.advanceTS n).sequence = s.sequence :=
  advanceTo_eq State.sequence tick_sequence (fun _ _ => rfl) s _

theorem advanceTS_globalPart (n : Nat) : (s.advanceTS n).globalPart = s.globalPart :=
  advanceTo_eq State.globalPart tick_globalPart (fun _ _ => rfl) s _

theorem tick_clk : s.tick.clk = if s.running then { s.clk with tally := s.nextTally } else s.clk := by
  cases h : s.running
  · rw [tick_of_not_running h, if_neg Bool.false_ne_true]
  · rw [tick_eq h, if_pos rfl]
    rfl

/-- The clock alone says what a tick makes of it. -/
theorem tick_clk_congr {s t : State} (h : t.clk = s.clk) : t.tick.clk = s.tick.clk := by
  rw [tick_clk, tick_clk, State.running, State.nextTally, h]
  rfl

end Ticks

/-! ### Entry to a slot state -/

section Slots

variable (s : State) (n : HearthId) (x : Slot) (event : Bool)

theorem keepsStraps_enter : KeepsStraps s (s.enter n x event) :=
  (keepsStraps_modHearth s n (Hearth.entered x s.now) fun _ => rfl).trans (.of_standing (standing_enter s n x event))

theorem keepsStraps_padsAsked : KeepsStraps s (s.padsAsked n x event) :=
  (keepsStraps_enter s n x event).trans (.of_standing (standing_padsAsked s n x event))

theorem keepsStraps_strapFault : KeepsStraps s (s.strapFault n) :=
  (keepsStraps_enter s n .strapFault true).trans (keepsStraps_modHearth _ n _ fun _ => rfl)

theorem keepsStraps_enterSampling : KeepsStraps s (s.enterSampling n) :=
  (keepsStraps_modHearth s n (fun h => { h with slot := .sampling }) fun _ => rfl).trans ⟨rfl, rfl, rfl, fun _ => rfl⟩

/-- R87, R214: what the PARKED row does with a hearth: in a mode without service nothing; else it goes to a slot state other than
READY, or is READY in the next tick. -/
theorem leaveParked_cases : (s.mode.serves = false ∧ s.leaveParked n = s) ∨
    (KeepsStraps s (s.leaveParked n) ∧ ((s.leaveParked n).hearth n).slot ≠ .ready) ∨
    (KeepsStraps s.tick (s.leaveParked n) ∧ ((s.leaveParked n).hearth n).slot = .ready) := by
  have hentered : ∀ x event, ((s.enter n x event).hearth n).slot = x := fun x event => by rw [enter_hearth]; rfl
  unfold State.leaveParked
  dsimp only
  split
  next hmode => exact .inl ⟨by simpa using hmode, rfl⟩
  refine .inr ?_
  (repeat' split)
  · exact .inl ⟨keepsStraps_strapFault s n, by rw [strapFault_hearth]; nofun⟩
  · exact .inl ⟨keepsStraps_enter s n _ _, by rw [hentered]; nofun⟩
  · exact .inr ⟨keepsStraps_padsAsked s.tick n _ _, (padsAsked_parts s.tick n _ _).1⟩
  · exact .inl ⟨keepsStraps_enterSampling s n, by rw [hearth_enterSampling, if_pos rfl]; nofun⟩
  · exact .inl ⟨keepsStraps_enter s n _ _, by rw [hentered]; nofun⟩
  · exact .inl ⟨keepsStraps_enter s n _ _, by rw [hentered]; nofun⟩

theorem leaveParked_strapPart (m : HearthId) : ((s.leaveParked n).hearth m).strapPart = (s.hearth m).strapPart := by
  obtain ⟨-, h⟩ | ⟨h, -⟩ | ⟨h, -⟩ := leaveParked_cases s n
  · rw [h]
  · exact h.hearths m
  · exact (h.hearths m).trans (tick_strapPart s m)

theorem leaveParked_sequence : (s.leaveParked n).sequence = s.sequence := by
  obtain ⟨-, h⟩ | ⟨h, -⟩ | ⟨h, -⟩ := leaveParked_cases s n
  · rw [h]
  · exact h.sequence
  · exact h.sequence.trans (tick_sequence s)

theorem leaveParked_clk : (((s.leaveParked n).hearth n).slot ≠ .ready → (s.leaveParked n).clk = s.clk) ∧
    (s.mode.serves = true → ((s.leaveParked n).hearth n).slot = .ready → (s.leaveParked n).clk = s.tick.clk) := by
  obtain ⟨hmode, h⟩ | ⟨h, hslot⟩ | ⟨h, hslot⟩ := leaveParked_cases s n
  · exact ⟨fun _ => by rw [h], fun hserves => absurd (hmode.symm.trans hserves) Bool.false_ne_true⟩
  · exact ⟨fun _ => h.clk, fun _ hready => absurd hready hslot⟩
  · exact ⟨fun hnot => absurd hslot hnot, fun _ _ => h.clk⟩

end Slots

/-! ### The flues and the change to M7 -/

section Checks

variable (s : State)

theorem keepsStraps_sleepDom (d : DomainId) : KeepsStraps s (s.sleepDom d) := by
  unfold State.sleepDom
  dsimp only
  split
  · exact ⟨rfl, rfl, rfl, fun _ => rfl⟩
  · exact ⟨rfl, rfl, rfl, fun _ => rfl⟩

theorem keepsStraps_modFlue (f : FlueId) (g : Flue → Flue) : KeepsStraps s (s.modFlue f g) := by
  cases f
  · exact ⟨rfl, rfl, rfl, fun _ => rfl⟩
  · exact ⟨rfl, rfl, rfl, fun _ => rfl⟩

theorem keepsStraps_checkFlues : KeepsStraps s s.checkFlues := by
  unfold State.checkFlues
  split
  · exact .refl s
  · exact .forList _ _ (fun f s => (keepsStraps_modFlue s f _).trans (.forList _ _ (fun d s => keepsStraps_sleepDom s d) _)) s

theorem keepsStraps_quarantine : KeepsStraps s s.quarantine := ⟨rfl, rfl, rfl, fun _ => rfl⟩

/-- R64, R67, R75, R278: the state with the global straps checked and their settings in use. -/
def State.globalsChecked (s : State) : State :=
  let v := finishGlobals s.strapMode s.mode s.straps.globals
  { s with
    straps := { s.straps with globals := v, checkedOnce := true, checked := true }
    cfg := globalsOf s.mode v
    prot := if s.mode.tests then s.prot else protOf v (globalsOf s.mode v).regions
    tests := if s.mode.tests then testsOf s.mode v else s.tests }

/-- R64, R67: what the check of the global balls `v` gives in mode `m`, `sel` being the mode S_MODE selects. -/
def checkedPart (sel m : Mode) (v : Vector Ball 180) (prot : Prot) : GlobalPart :=
  { globals := finishGlobals sel m v, checkedOnce := true, checked := true, cfg := globalsOf m (finishGlobals sel m v)
    prot := if m.tests then prot else protOf (finishGlobals sel m v) (globalsOf m (finishGlobals sel m v)).regions }

theorem globalsChecked_globalPart : s.globalsChecked.globalPart = checkedPart s.strapMode s.mode s.straps.globals s.prot := rfl

theorem keepsStraps_endGroup15 : KeepsStraps s.globalsChecked s.endGroup15 := by
  have h : s.endGroup15 =
      if s.globalsChecked.mode.exposes ∧ s.globalsChecked.mode ≠ .m7 ∧ !configUnitOk s.globalsChecked.straps.globals
      then s.globalsChecked.quarantine else s.globalsChecked.checkFlues := rfl
  rw [h]
  split
  · exact keepsStraps_quarantine _
  · exact keepsStraps_checkFlues _

end Checks

end Sys2Proof.Machine
end

-- ==== Proofs of 03_strap_language: the ends of the later groups ====
section
/-! The ends of groups 1 to 47 (R61, R63, R64, R75, R181, R278): the readings of a group, what its end decides, and the
obligation. -/

namespace Sys2Proof.Machine

open Sys2Proof

/-! ### The parts of a group's end -/

/-- R61: the strap sequence goes on behind group `k`. -/
def State.groupPassed (s : State) (k : Fin 48) : State :=
  { s with straps := { s.straps with seq := if k.val = 47 then none else some (k.val + 1), seqDone := k.val = 47 } }

/-- The hearth of group `k` from 16 on. -/
def groupHearth (k : Fin 48) : HearthId := Fin.ofNat 16 ((k.val - 16) / 2)

/-- R61: the clock at the end of group `k`. -/
def State.atGroup (s : State) (k : Fin 48) : State := s.advanceTS (2500 * k.val + 2499)

/-- R61, R75: at the end of group `k` its readings are taken, and the sequence goes on. -/
def State.groupTaken (s : State) (k : Fin 48) (readings : List Reading) : State :=
  ((s.atGroup k).sampleGroup k readings).groupPassed k

/-- What the end of a later group decides: group 15 the global settings, the second group of a hearth its own. -/
def State.groupDecides (s : State) (k : Fin 48) : State :=
  if k.val = 15 then s.endGroup15 else if 16 ≤ k.val ∧ k.val % 2 = 1 then s.endHearthGroups (groupHearth k) else s

/-- R89: the groups of the next hearth start. -/
def State.nextHearthStarts (s : State) (k : Fin 48) : State :=
  if 15 ≤ k.val ∧ k.val < 47 ∧ k.val % 2 = 1 then s.startHearthGroups (Fin.ofNat 16 ((k.val - 15) / 2)) else s

/-- R98: with the last group the last use of the strap reader's domain ends. -/
def State.readerRests (s : State) (k : Fin 48) : State := (if k.val = 47 then s.setDom 161 (.on s.now) else s).woken

/-- The state after the end of the later group `k`. -/
def State.groupEnded (s : State) (k : Fin 48) (readings : List Reading) : State :=
  (((s.groupTaken k readings).groupDecides k).nextHearthStarts k).readerRests k

theorem endGroup_later {k : Fin 48} (hk : 0 < k.val) (s : State) :
    s.endGroup k = ((s.groupPassed k).groupDecides k).nextHearthStarts k := by
  have hsucc : (if k.val = 47 then none else some (Fin.ofNat 48 (k.val + 1)).val) = if k.val = 47 then none else some (k.val + 1) := by
    split
    · rfl
    next h => exact congrArg some (Nat.mod_eq_of_lt (by omega))
  rw [State.endGroup, hsucc]
  dsimp only
  rw [if_neg (by omega : ¬k.val = 0)]
  rfl

theorem exec_strapGroupEnd_group {s : State} {k : Fin 48} (readings : List Reading) (hrun : s.running = true)
    (hperst : s.island.perstLow = false) (hseq : s.straps.seq = some k.val) (hk : 0 < k.val) :
    exec (.strapGroupEnd readings) s = .next (s.groupEnded k readings) := by
  have hofNat : Fin.ofNat 48 k.val = k := Fin.ext (Nat.mod_eq_of_lt k.isLt)
  show execStrapGroupEnd readings s = _
  rw [execStrapGroupEnd, hseq]
  refine (if_pos ⟨hrun, by rw [hperst]; rfl⟩).trans ?_
  show Host.Outcome.next (State.readerRests (State.endGroup _ (Fin.ofNat 48 k.val)) (Fin.ofNat 48 k.val)) = _
  rw [hofNat, endGroup_later hk]
  rfl

/-! ### The readings -/

section Taken

variable (s : State) (k : Fin 48) (readings : List Reading)

theorem groupHearth_group : 16 ≤ k.val → (if k.val % 2 = 1 then secondGroup (groupHearth k) else firstGroup (groupHearth k)) = k := by
  revert k
  decide

/-- R61: group `k` is recorded, and the global balls read as `v`. -/
def State.groupRecorded (s : State) (k : Fin 48) (v : Vector Ball 180) : State :=
  { s with straps := { s.straps with groupTally := vset s.straps.groupTally k s.now, lastGroup := k.val, globals := v } }

/-- R61: the global balls with those of group `k` read. -/
def State.globalsRead (s : State) (k : Fin 48) (readings : List Reading) : Vector Ball 180 :=
  sampleBalls (assignedGlobal s.mode) (groupStart k.val) (groupSize k.val) readings s.straps.globals

section Recorded

variable (v : Vector Ball 180) (n : HearthId) (second : Bool)

theorem groupRecorded_parts :
    (s.groupRecorded k v).sequence = { s.sequence with lastGroup := k.val } ∧ (s.groupRecorded k v).clk = s.clk ∧
    (s.groupRecorded k v).standing = { s.standing with straps := (s.groupRecorded k v).straps } := ⟨rfl, rfl, rfl⟩

theorem sampleHearthGroup_parts : (s.sampleHearthGroup n second readings).sequence =
      { s.sequence with lastGroup := (if second then secondGroup n else firstGroup n).val } ∧
    (s.sampleHearthGroup n second readings).clk = s.clk := ⟨rfl, rfl⟩

end Recorded

theorem sampleGroup_global (h : k.val < 16) : s.sampleGroup k readings = s.groupRecorded k (s.globalsRead k readings) := if_pos h

theorem sampleGroup_hearth (h : 16 ≤ k.val) :
    s.sampleGroup k readings = s.sampleHearthGroup (groupHearth k) (k.val % 2 = 1) readings := if_neg (by omega)

theorem sampleGroup_parts :
    (s.sampleGroup k readings).sequence = { s.sequence with lastGroup := k.val } ∧ (s.sampleGroup k readings).clk = s.clk := by
  by_cases h : k.val < 16
  · obtain ⟨hseq, hclk, -⟩ := groupRecorded_parts s k (s.globalsRead k readings)
    rw [sampleGroup_global s k readings h]
    exact ⟨hseq, hclk⟩
  · obtain ⟨hseq, hclk⟩ := sampleHearthGroup_parts s readings (groupHearth k) (k.val % 2 = 1)
    rw [sampleGroup_hearth s k readings (by omega)]
    refine ⟨hseq.trans ?_, hclk⟩
    simp only [decide_eq_true_eq, groupHearth_group k (by omega)]

theorem sampleGroup_standing (h : k.val < 16) : (s.sampleGroup k readings).standing =
    { s.standing with straps := (s.sampleGroup k readings).straps } := by
  obtain ⟨-, -, hstanding⟩ := groupRecorded_parts s k (s.globalsRead k readings)
  rw [sampleGroup_global s k readings h]
  exact hstanding

theorem groupPassed_standing : (s.groupPassed k).standing = { s.standing with straps := (s.groupPassed k).straps } := rfl

theorem groupTaken_clk : (s.groupTaken k readings).clk = (s.atGroup k).clk := (sampleGroup_parts _ k readings).2

theorem groupTaken_sequence : (s.groupTaken k readings).sequence =
    { s.sequence with seq := if k.val = 47 then none else some (k.val + 1), seqDone := k.val = 47, lastGroup := k.val } := by
  obtain ⟨h, -⟩ := sampleGroup_parts (s.atGroup k) k readings
  rw [State.atGroup, advanceTS_sequence] at h
  exact congrArg (fun x : Sequence =>
    { x with seq := if k.val = 47 then none else some (k.val + 1), seqDone := decide (k.val = 47) }) h

theorem groupTaken_settled : (s.groupTaken k readings).settled = s.settled :=
  (settled_sampleGroup _ k readings).trans (settled_advanceTS s _)

theorem groupTaken_mode : (s.groupTaken k readings).mode = s.mode := congrArg Settled.mode (groupTaken_settled s k readings)

theorem atGroup_globalsRead : (s.atGroup k).globalsRead k readings = s.globalsRead k readings := by
  have hmode : (s.atGroup k).mode = s.mode := congrArg Settled.mode (settled_advanceTS s _)
  have hglobals : (s.atGroup k).straps.globals = s.straps.globals := congrArg GlobalPart.globals (advanceTS_globalPart s _)
  rw [State.globalsRead, hmode, hglobals, State.globalsRead]

theorem groupTaken_globals (h : k.val < 16) : (s.groupTaken k readings).straps.globals = s.globalsRead k readings := by
  have hread := congrArg (·.straps.globals) (sampleGroup_global (s.atGroup k) k readings h)
  exact hread.trans (atGroup_globalsRead s k readings)

/-- R61: at the end of a global group the straps alone change. -/
theorem groupTaken_standing (h : k.val < 16) : (s.groupTaken k readings).standing =
    { (s.atGroup k).standing with straps := (s.groupTaken k readings).straps } := by
  rw [State.groupTaken, groupPassed_standing, sampleGroup_standing _ k readings h]

theorem groupHearth_second {n : HearthId} (hk : k.val = 17 + 2 * n.val) : groupHearth k = n :=
  Fin.ext (by rw [groupHearth, Fin.val_ofNat, hk]; omega)

theorem second_groupHearth (h : 16 ≤ k.val ∧ k.val % 2 = 1) : k.val = 17 + 2 * (groupHearth k).val := by
  rw [groupHearth, Fin.val_ofNat]
  omega

/-- R75: the end of a hearth's second group reads 34 balls of that hearth. -/
theorem groupTaken_hearth {n : HearthId} (hk : k.val = 17 + 2 * n.val) (m : HearthId) : (s.groupTaken k readings).hearth m =
    if m = n then { (s.atGroup k).hearth n with
      balls := groupBalls true readings ((s.atGroup k).hearth n).balls }
    else (s.atGroup k).hearth m := by
  have hsecond : decide (k.val % 2 = 1) = true := decide_eq_true (by omega)
  have hsample := sampleGroup_hearth (s.atGroup k) k readings (by omega)
  rw [groupHearth_second k hk, hsecond] at hsample
  have htaken : (s.groupTaken k readings).hearth m = ((s.atGroup k).sampleGroup k readings).hearth m := rfl
  rw [htaken, hsample]
  split
  next hm => rw [hm, sampleHearthGroup_hearth]
  next hm => rw [sampleHearthGroup_ne _ _ _ _ hm]

end Taken

/-! ### What a group's end decides -/

section Decides

variable (s : State) (k : Fin 48)

theorem groupDecides_checks (hk : k.val = 15) : s.groupDecides k = s.endGroup15 := if_pos hk

theorem groupDecides_second {n : HearthId} (hk : k.val = 17 + 2 * n.val) : s.groupDecides k = s.endHearthGroups n := by
  rw [State.groupDecides, if_neg (by omega), if_pos (by omega), groupHearth_second k hk]

theorem groupDecides_nothing (h15 : k.val ≠ 15) (hsecond : ¬(16 ≤ k.val ∧ k.val % 2 = 1)) : s.groupDecides k = s := by
  rw [State.groupDecides, if_neg h15, if_neg hsecond]

/-- R68, R75, R181, R212: hearth `n` with its straps checked and their settings in use. -/
def State.hearthChecked (s : State) (n : HearthId) : State :=
  let h := s.hearth n
  let ok := validField (spreadHearth h.balls) 0 5
  let code := codeAt h.balls 4 % 8
  let v := finishHearth s.strapMode s.cfg n (barSize (if ok then code else 0)) h.balls
  s.modHearth n fun h => { h with
    presLow := h.presLow || h.presBall
    barCode := if ok then code else 0
    barFallback := !ok
    balls := v
    cfg := hearthCfgOf s.pos v
    irqLow := 0 }

theorem endHearthGroups_eq (n : HearthId) : s.endHearthGroups n = (s.hearthChecked n).leaveParked n := rfl

theorem hearthChecked_barCode (n : HearthId) : ((s.hearthChecked n).hearth n).barCode =
    if validField (spreadHearth (s.hearth n).balls) 0 5 then codeAt (s.hearth n).balls 4 % 8 else 0 := by
  rw [State.hearthChecked, hearth_modHearth_self]

theorem hearthChecked_ne (n : HearthId) {m : HearthId} (hm : m ≠ n) : (s.hearthChecked n).hearth m = s.hearth m :=
  hearth_modHearth_ne _ _ _ _ hm

theorem endHearthGroups_clk (n : HearthId) :
    (((s.endHearthGroups n).hearth n).slot ≠ .ready → (s.endHearthGroups n).clk = s.clk) ∧
    (s.mode.serves = true → ((s.endHearthGroups n).hearth n).slot = .ready → (s.endHearthGroups n).clk = s.tick.clk) := by
  obtain ⟨hnot, hready⟩ := leaveParked_clk (s.hearthChecked n) n
  rw [endHearthGroups_eq]
  exact ⟨hnot, fun hmode hslot => (hready hmode hslot).trans (tick_clk_congr rfl)⟩

theorem groupDecides_sequence : (s.groupDecides k).sequence = s.sequence := by
  unfold State.groupDecides
  split
  · exact (keepsStraps_endGroup15 s).sequence
  split
  · rw [endHearthGroups_eq]
    exact leaveParked_sequence (s.hearthChecked (groupHearth k)) _
  · rfl

/-- Group 15 brings no tick, nor does any group but the second one of a hearth. -/
theorem groupDecides_clk (hsecond : ¬(16 ≤ k.val ∧ k.val % 2 = 1)) : (s.groupDecides k).clk = s.clk := by
  by_cases h15 : k.val = 15
  · rw [groupDecides_checks s k h15]
    exact (keepsStraps_endGroup15 s).clk
  · rw [groupDecides_nothing s k h15 hsecond]

theorem keepsStraps_next : KeepsStraps s ((s.nextHearthStarts k).readerRests k) := by
  have hstarts : KeepsStraps s (s.nextHearthStarts k) := by
    unfold State.nextHearthStarts
    split
    · exact keepsStraps_modHearth s _ _ fun _ => rfl
    · exact .refl s
  refine hstarts.trans ?_
  unfold State.readerRests
  split <;> exact ⟨rfl, rfl, rfl, fun _ => rfl⟩

theorem slot_next (m : HearthId) : (((s.nextHearthStarts k).readerRests k).hearth m).slot = (s.hearth m).slot := by
  have hrests : ∀ u : State, (u.readerRests k).hearth m = u.hearth m := by
    intro u
    unfold State.readerRests
    split <;> rfl
  rw [hrests, State.nextHearthStarts]
  split
  · rw [State.startHearthGroups, hearth_modHearth]
    split
    next hm => rw [hm]
    · rfl
  · rfl

end Decides

/-! ### The end of a later group -/

section Ended

variable (s : State) (k : Fin 48) (readings : List Reading)

theorem keepsStraps_groupEnded : KeepsStraps ((s.groupTaken k readings).groupDecides k) (s.groupEnded k readings) := keepsStraps_next _ k

theorem groupEnded_slot (m : HearthId) :
    ((s.groupEnded k readings).hearth m).slot = (((s.groupTaken k readings).groupDecides k).hearth m).slot := slot_next _ k m

theorem groupEnded_sequence : (s.groupEnded k readings).sequence =
    { s.sequence with seq := if k.val = 47 then none else some (k.val + 1), seqDone := k.val = 47, lastGroup := k.val } := by
  rw [(keepsStraps_groupEnded s k readings).sequence, groupDecides_sequence, groupTaken_sequence]

/-- R87: a group's end is a fixed tick, but a hearth that is READY then is so in the next. -/
theorem groupEnded_clk_ready {n : HearthId} (hk : k.val = 17 + 2 * n.val) (hmode : s.mode.serves = true)
    (hslot : ((s.groupEnded k readings).hearth n).slot = .ready) :
    (s.groupEnded k readings).clk = (s.atGroup k).tick.clk := by
  have hkeeps := keepsStraps_groupEnded s k readings
  rw [groupEnded_slot] at hslot
  rw [groupDecides_second _ k hk] at hkeeps hslot
  obtain ⟨-, hready⟩ := endHearthGroups_clk (s.groupTaken k readings) n
  rw [hkeeps.clk, hready (by rw [groupTaken_mode, hmode]) hslot]
  exact tick_clk_congr (groupTaken_clk s k readings)

theorem groupEnded_clk_not_ready (hslot : ∀ n : HearthId, k.val = 17 + 2 * n.val → ((s.groupEnded k readings).hearth n).slot ≠ .ready) :
    (s.groupEnded k readings).clk = (s.atGroup k).clk := by
  have hkeeps := keepsStraps_groupEnded s k readings
  rw [hkeeps.clk, ← groupTaken_clk s k readings]
  by_cases hsecond : 16 ≤ k.val ∧ k.val % 2 = 1
  · have hk := second_groupHearth k hsecond
    have hnot := hslot _ hk
    rw [groupEnded_slot] at hnot
    rw [groupDecides_second _ k hk] at hnot ⊢
    obtain ⟨hclk, -⟩ := endHearthGroups_clk (s.groupTaken k readings) (groupHearth k)
    exact hclk hnot
  · exact groupDecides_clk _ k hsecond

/-- R61: groups 1 to 14 decide nothing. -/
theorem groupEnded_early (h0 : 0 < k.val) (hk : k.val < 15) : s.groupEnded k readings = (s.groupTaken k readings).woken := by
  rw [State.groupEnded, groupDecides_nothing _ k (by omega) (by omega), State.nextHearthStarts, if_neg (by omega), State.readerRests,
    if_neg (by omega)]

/-- R64: at the end of group 15 the global straps are checked. -/
theorem groupEnded_checks (hk : k.val = 15) : (s.groupEnded k readings).globalPart = checkedPart s.strapMode s.mode
    (s.globalsRead k readings) s.prot := by
  have hkeeps := keepsStraps_groupEnded s k readings
  rw [groupDecides_checks _ k hk] at hkeeps
  have hsettled := groupTaken_settled s k readings
  have hsel : (s.groupTaken k readings).strapMode = s.strapMode := congrArg Settled.strapMode hsettled
  have hprot : (s.groupTaken k readings).prot = s.prot := congrArg Settled.prot hsettled
  rw [((keepsStraps_endGroup15 _).trans hkeeps).globalPart, globalsChecked_globalPart, hsel, hprot, groupTaken_mode,
    groupTaken_globals s k readings (by omega)]

/-- R75: the end of a hearth's second group checks its straps, and no hearth's straps change otherwise. -/
theorem groupEnded_strapPart {n : HearthId} (hk : k.val = 17 + 2 * n.val) (m : HearthId) :
    ((s.groupEnded k readings).hearth m).strapPart = (((s.groupTaken k readings).hearthChecked n).hearth m).strapPart := by
  have hkeeps := keepsStraps_groupEnded s k readings
  rw [groupDecides_second _ k hk] at hkeeps
  exact (hkeeps.hearths m).trans (leaveParked_strapPart _ n m)

theorem groupEnded_barCode {n : HearthId} (hk : k.val = 17 + 2 * n.val) : ((s.groupEnded k readings).hearth n).barCode =
    if validField (spreadHearth (groupBalls true readings (s.hearth n).balls)) 0 5
      then codeAt (groupBalls true readings (s.hearth n).balls) 4 % 8 else 0 := by
  have hballs : ((s.groupTaken k readings).hearth n).balls = groupBalls true readings (s.hearth n).balls := by
    rw [groupTaken_hearth s k readings hk, if_pos rfl, State.atGroup, State.advanceTS, advanceTo_balls]
  have hcode := congrArg HearthStraps.barCode (groupEnded_strapPart s k readings hk n)
  exact hcode.trans ((hearthChecked_barCode _ n).trans (by rw [hballs]))

theorem groupEnded_others {n m : HearthId} (hk : k.val = 17 + 2 * n.val) (hm : m ≠ n) :
    ((s.groupEnded k readings).hearth m).strapPart = (s.hearth m).strapPart := by
  rw [groupEnded_strapPart s k readings hk, hearthChecked_ne _ n hm, groupTaken_hearth s k readings hk, if_neg hm]
  exact advanceTo_strapPart s _ m

end Ended

/-! ### The statement -/

/-- Settles O13: a later group's end takes its readings and goes on (`groupTaken`), decides what the group gives (`groupDecides`), and
nothing behind it moves the clock, the sequence or a strap (`keepsStraps_groupEnded`). -/
theorem laterGroups : Obligations.LaterGroups := by
  unfold Obligations.LaterGroups
  intro g readings s hrun hperst hseq hpos hlt
  obtain ⟨k, rfl⟩ : ∃ k : Fin 48, k.val = g := ⟨⟨g, hlt⟩, rfl⟩
  have hsequence := groupEnded_sequence s k readings
  have hlink := congrArg Sequence.link hsequence
  have hdll := congrArg Sequence.dll hsequence
  refine ⟨_, exec_strapGroupEnd_group readings hrun hperst hseq hpos, groupEnded_clk_not_ready s k readings,
    fun n hk hmode => groupEnded_clk_ready s k readings hk hmode, congrArg Sequence.seq hsequence, congrArg Sequence.seqDone hsequence,
    congrArg Sequence.lastGroup hsequence, congrArg Sequence.stone hsequence,
    congrArg (fun x : HostLink => { x with clkreqReleased := (s.groupEnded k readings).link.clkreqReleased }) hlink,
    congrArg Sequence.pending hsequence,
    congrArg (fun x : Dll => { x with ackDue := (s.groupEnded k readings).dll.ackDue }) hdll,
    fun hk => ?_, fun hk => ?_, fun n hk => ⟨groupEnded_barCode s k readings hk, fun m hm => ?_⟩⟩
  · rw [groupEnded_early s k readings hpos hk]
    exact ⟨groupTaken_globals s k readings (by omega), groupTaken_standing s k readings (by omega)⟩
  · have hpart := groupEnded_checks s k readings hk
    rw [State.globalsRead, hk] at hpart
    have hglobals := congrArg GlobalPart.globals hpart
    have hcfg : (s.groupEnded k readings).cfg = globalsOf s.mode (s.groupEnded k readings).straps.globals :=
      (congrArg GlobalPart.cfg hpart).trans (congrArg (globalsOf s.mode) hglobals.symm)
    refine ⟨hglobals, congrArg GlobalPart.checkedOnce hpart, congrArg GlobalPart.checked hpart, hcfg, fun htests => ?_⟩
    rw [hcfg]
    refine (congrArg GlobalPart.prot hpart).trans ((if_neg (Bool.eq_false_iff.mp htests)).trans ?_)
    exact congrArg (fun v => protOf v (globalsOf s.mode v).regions) hglobals.symm
  · have hstraps := groupEnded_others s k readings hk hm
    exact ⟨congrArg HearthStraps.balls hstraps, congrArg HearthStraps.cfg hstraps⟩

end Sys2Proof.Machine
end

-- ==== Proofs of 04_supplies_domains_first_second: reset, and the hearthstone ====
section
/-! The state after reset (R78, R87, R88, R105, R213, R315), and a command that changes the hearthstone although the statement on
its bytes does not name it. -/

namespace Sys2Proof.Machine

open Sys2Proof

/-! ### The state after reset -/

/-- R315: D158, D159 and D161 are ON at T_S after a cold reset, and no other domain. -/
theorem vget_domsAtTS (tS : Tally) (d : DomainId) :
    vget (domsAtTS tS) d = if d.val = 158 ∨ d.val = 159 ∨ d.val = 161 then .on tS else .off := by
  have hval : ∀ e : DomainId, d.val = e.val ↔ d = e := fun e => Fin.ext_iff.symm
  have h158 : d.val = 158 ↔ d = 158 := hval 158
  have h159 : d.val = 159 ↔ d = 159 := hval 159
  have h161 : d.val = 161 ↔ d = 161 := hval 161
  have hset : domsAtTS tS = vset (vset (vset (Vector.replicate 162 DomState.off) 158 (.on tS)) 159 (.on tS)) 161 (.on tS) := rfl
  simp only [hset, vget_vset, vget_replicate, h158, h159, h161]
  split_ifs <;> simp_all

theorem waitingItems_of_reset {s : State} (h : s.items = Items.reset) : s.waitingItems = [] := by
  simp [State.waitingItems, h, Items.reset]

theorem countsOk_reset : countsOk State.reset := ⟨Nat.le_refl 0, ⟨Nat.zero_le _, Nat.zero_le _⟩, Nat.zero_le _⟩

theorem idsOk_reset : idsOk State.reset := ⟨fun _ h => absurd h List.not_mem_nil, List.nodup_nil⟩

/-- Settles O7: each clause reads one part of `State.reset`. -/
theorem resetState : Obligations.ResetState := by
  unfold Obligations.ResetState
  exact ⟨rfl, countsOk_reset, idsOk_reset, rfl, rfl, rfl, rfl, rfl, rfl, fun n => congrArg Hearth.slot (vget_replicate _ n), rfl,
    vget_domsAtTS 0, rfl, waitingItems_of_reset rfl, rfl, rfl, rfl, rfl, vget_replicate _, vget_replicate _⟩

/-! ### The hearthstone -/

theorem next_of_stoneAfter {o : Host.Outcome State Fault Refusal} {c : Host.Cell} {m : List Host.Cell} (h : stoneAfter o = c :: m) :
    ∃ t, o = .next t ∧ t.stone = c :: m := by
  cases o with
  | next t => exact ⟨t, rfl, h⟩
  | fault r => cases h
  | refused r => cases h

/-- Refutes O5: the end of group 0 changes a byte too. At a restart on another clock (R79, R94) every unit leaves service, and a
locked write that has been captured is performed whole (R267): from `lockedAtGroup0` byte 0 becomes 1. -/
theorem not_hearthstoneChangesOnlyThere : ¬ Obligations.HearthstoneChangesOnlyThere := by
  unfold Obligations.HearthstoneChangesOnlyThere
  intro h
  obtain ⟨t, hexec, hwritten⟩ := next_of_stoneAfter lockedAtGroup0_performed
  have hbyte : stoneRead t.stone 0 ≠ stoneRead lockedAtGroup0.stone 0 := by
    rw [hwritten]
    decide
  obtain hc | hc | ⟨-, ⟨_, hc⟩ | ⟨_, _, hc⟩⟩ | ⟨_, _, _, hc⟩ | ⟨_, hc⟩ | ⟨_, _, hc⟩ := h _ _ t 0 hexec hbyte <;> cases hc

end Sys2Proof.Machine
end

-- ==== Proofs of 04_supplies_domains_first_second: every unit leaves service, PERST_N ====
section
/-! PERST_N (R83, R86, R87, R115, R267, R315): every unit leaves service at its 16th low tick, and its 16th high tick is T_S. -/

namespace Sys2Proof.Machine

open Sys2Proof

/-! ### Every unit leaves service -/

section LeaveAll

variable (s : State)

/-- R267: the bytes of the hearthstone once the captured locked writes to it are performed whole. -/
def State.performed (s : State) : List Host.Cell := s.lockedStores.foldl (fun m p => stoneWriteAll m p.bytes) s.stone

theorem performed_of_none (h : s.lockedStores = []) : s.performed = s.stone := by
  rw [State.performed, h]
  rfl

/-- R86: `State.leaveAll` but for the taps it keeps and the locked writes it performs. -/
def State.unitsOut (s : State) : State :=
  { s with
    wake := false, upNow := [], slotPower := false, gate := false, items := Items.reset, dll := Dll.reset, fc := Fc.reset
    txq := [], reqs := [], tags := [], sw := Switch.reset, lockEnds := [], xtags := [], irq := Irq.reset, faultPrev := false
    clk := { s.clk with live := false }
    island := { s.island with clearFrom := none }
    straps := { s.straps with seq := none, seqDone := false, resampleQ := [], asked := none, paid := none, job := none }
    prot := { inService := false, overlap := false, badStrap := false, pairLo := 0, pairHi := 0 }
    doms := vmap (DomState.leave s.now) s.doms
    ledger := { s.ledger with st := .closed, low := false, refillDue := false, ltrAsked := false, ltrPending := false }
    link := { HostLink.reset with kept := s.link.kept }
    fns := vmap (fun (_ : FnId) c => FnCfg.noFlr c) s.fns
    hearths := vmap (fun (_ : HearthId) h => Hearth.park h) s.hearths
    banks := Vector.replicate 16 Bank.reset
    sampler := { s.sampler with queue := [], taken := false }
    flueA := s.flueA.leave
    flueB := s.flueB.leave
    chim := s.chim.leave
    lanes := vmap (fun (_ : LaneId) x => Lane.leave x) s.lanes
    tests := vmap (fun (_ : LaneId) (t : TestLane) => t.leave) s.tests }

theorem leaveAll_unitsOut : s.leaveAll = s.saveTaps.finishLocked.unitsOut := rfl

theorem finishLocked_eq : s.finishLocked = { s with stone := s.performed } := rfl

theorem saveTaps_eq : s.saveTaps = { s with link := s.saveTaps.link } := by
  unfold State.saveTaps
  rfl

theorem performed_setLink (link : HostLink) : ({ s with link := link } : State).performed = s.performed := rfl

/-- R86, R131, R267: what the units leave behind is the taps in the link's record and the bytes of the hearthstone. -/
theorem leaveAll_eq : ∃ link, s.leaveAll = ({ s with link := link, stone := s.performed } : State).unitsOut := by
  refine ⟨s.saveTaps.link, ?_⟩
  rw [leaveAll_unitsOut, finishLocked_eq, saveTaps_eq, performed_setLink]

theorem unitsOut_hearth (n : HearthId) : s.unitsOut.hearth n = (s.hearth n).park := by
  rw [State.hearth, State.unitsOut, vget_vmap, State.hearth]

theorem unitsOut_fn (f : FnId) : s.unitsOut.fn f = { s.fn f with flr := none } := by
  rw [State.fn, State.unitsOut, vget_vmap, State.fn, FnCfg.noFlr]

theorem unitsOut_dom (d : DomainId) : s.unitsOut.dom d = (s.dom d).leave s.now d := by
  rw [State.dom, State.unitsOut, vget_vmap, State.dom]

/-- R83: PERST_N is filtered low. -/
def State.perstLowered (s : State) : State := { s with island := { s.island with perstLow := true } }

end LeaveAll

/-! ### T_S -/

section StartTS

variable (s : State)

theorem startTS_doms : s.startTS.doms = vset (vset (if s.strapMode.exposes = true ∧ s.dom 158 = .off
    then vset s.doms 158 (.on s.clk.tally) else s.doms) 159 (.on s.clk.tally)) 161 (.on s.clk.tally) := rfl

/-- R87, R315: D159 and D161 are ON at T_S, and D158 where it was OFF in a mode with functions. -/
theorem startTS_dom (d : DomainId) : s.startTS.dom d =
    if d.val = 159 ∨ d.val = 161 ∨ (d.val = 158 ∧ s.strapMode.exposes = true ∧ s.dom 158 = .off) then .on s.clk.tally
    else s.dom d := by
  have hval : ∀ e : DomainId, d.val = e.val ↔ d = e := fun e => Fin.ext_iff.symm
  have h158 : d.val = 158 ↔ d = 158 := hval 158
  have h159 : d.val = 159 ↔ d = 159 := hval 159
  have h161 : d.val = 161 ↔ d = 161 := hval 161
  have hdom : s.dom d = vget s.doms d := rfl
  simp only [h158, h159, h161]
  rw [State.dom, startTS_doms, vget_vset, vget_vset, hdom]
  by_cases e161 : d = 161
  · simp [e161]
  by_cases e159 : d = 159
  · simp [e159]
  by_cases hoff : s.strapMode.exposes = true ∧ s.dom 158 = .off
  · simp [e161, e159, hoff, vget_vset]
  · rw [if_neg hoff, if_neg e161, if_neg e159, if_neg]
    rintro (h | h | ⟨-, h⟩)
    · exact e159 h
    · exact e161 h
    · exact hoff h

theorem startTS_fn (f : FnId) : s.startTS.fn f = { (s.fn f).functionReset with flr := none, bus := 0 } := by
  rw [State.fn, State.startTS, vget_vmap, State.fn]

theorem startTS_lane (l : LaneId) : s.startTS.lane l = { s.lane l with moves := 0, deferred := 0 } := by
  rw [State.lane, State.startTS, vget_vmap, State.lane, Lane.atTS]

theorem startTS_test (l : LaneId) : s.startTS.test l = TestLane.reset := by
  rw [State.test, State.startTS, vget_replicate]

/-- R315: of a function the sticky fields stand at T_S. -/
theorem startTS_fn_parts (f : FnId) : (s.startTS.fn f).bme = false ∧ (s.startTS.fn f).mse = false ∧ (s.startTS.fn f).power = .d0 ∧
    (s.startTS.fn f).flr = none ∧ (s.startTS.fn f).uncSta = (s.fn f).uncSta ∧ (s.startTS.fn f).corSta = (s.fn f).corSta ∧
    (s.startTS.fn f).pmeStatus = (s.fn f).pmeStatus := by
  rw [startTS_fn]
  exact ⟨rfl, rfl, rfl, rfl, rfl, rfl, rfl⟩

end StartTS

/-! ### The commands -/

section Commands

variable {held : Nat} {s : State}

/-- R83: a low of 16 ticks counts. -/
theorem exec_perstAssertion (hrun : s.running = true) (hhigh : s.island.perstLow = false) :
    exec (.perstAssertion held) s = if 16 ≤ held then .next s.leaveAll.perstLowered else .next s := by
  show execPerstAssertion held s = _
  rw [execPerstAssertion, hrun, hhigh]
  simp only [Bool.not_false, true_and, and_true]
  rfl

/-- R83: so does a high of 16 ticks. -/
theorem exec_perstDeassertion (hrun : s.running = true) (hlow : s.island.perstLow = true) :
    exec (.perstDeassertion held) s = if 16 ≤ held then .next s.perstHigh else .next s := by
  show execPerstDeassertion held s = _
  rw [execPerstDeassertion, hrun, hlow]
  simp only [true_and, and_true]
  rfl

end Commands

/-- R81, R83: PERST_N is filtered high and WAKE_N is released, before T_S. -/
def State.perstRaised (s : State) : State := { s with island := { s.island with perstLow := false, wakeLow := false } }

theorem perstHigh_eq (s : State) : s.perstHigh = s.perstRaised.startTS := rfl

/-- Settles O10: at the 16th low tick every unit leaves service (`leaveAll_eq`), and the 16th high tick is T_S
(`perstHigh_eq`). -/
theorem perstFilter : Obligations.PerstFilter := by
  unfold Obligations.PerstFilter
  refine ⟨fun held s hrun hhigh => ⟨fun hheld => ?_, fun hheld => ?_⟩, fun held s hrun hlow => ⟨fun hheld => ?_, fun hheld => ?_⟩⟩
  · obtain ⟨link, hleave⟩ := leaveAll_eq s
    have hexec := (exec_perstAssertion hrun hhigh).trans (if_pos hheld)
    rw [hleave] at hexec
    exact ⟨_, hexec, rfl, rfl, unitsOut_hearth _, rfl, rfl, rfl, rfl, rfl, rfl, rfl, rfl, rfl, rfl, rfl, rfl, rfl, rfl, rfl,
      unitsOut_fn _, unitsOut_dom _, rfl, rfl, rfl, rfl, rfl, performed_of_none s, rfl⟩
  · exact (exec_perstAssertion hrun hhigh).trans (if_neg (Nat.not_le.mpr hheld))
  · refine ⟨s.perstRaised.startTS, (exec_perstDeassertion hrun hlow).trans (if_pos hheld), rfl, rfl, rfl, rfl, rfl, rfl, rfl, rfl,
      startTS_test s.perstRaised, startTS_lane s.perstRaised, startTS_dom s.perstRaised, startTS_fn_parts s.perstRaised, ?_⟩
    exact ⟨rfl, rfl, rfl, rfl, rfl, rfl⟩
  · exact (exec_perstDeassertion hrun hlow).trans (if_neg (Nat.not_le.mpr hheld))

end Sys2Proof.Machine
end

-- ==== Proofs of 04_supplies_domains_first_second: the opening of the gate ====
section
/-! The opening of the gate on a member with a hearth whose FLR still runs. -/

namespace Sys2Proof.Machine

open Sys2Proof

/-- What the gate opens on at T_S + 200,000: hearth 0 of a member is READY, and the FLR of its function, which another position asked
for at tick 195,000, holds it in reset until tick 205,000. -/
def resetAtGate : State :=
  { State.reset with
    clk := { State.reset.clk with tally := 199999 }
    mode := .m3, strapMode := .m3, slotPower := true
    straps := { State.reset.straps with seq := none, seqDone := true }
    hearths := vset State.reset.hearths 0 { Hearth.reset with slot := .ready, resetFrom := some 195000 } }

/-- Slot state of hearth 0 and the tick from which its HnBREQ_N may fall, after a command. -/
def busAfter (o : Host.Outcome State Fault Refusal) : Option (Slot × Option Tally × Tally) :=
  match o with
  | .next t => some ((t.hearth 0).slot, (t.hearth 0).bus.breqFrom, t.now)
  | _ => none

/-- R216, R318: HnBREQ_N stays high for 1,000 ticks after the end of the hearth reset, until tick 206,000. -/
theorem resetAtGate_holdsOff : busAfter (exec .gateOpen resetAtGate) = some (.inService, some 206000, 200000) := by
  decide +kernel

theorem resetAtGate_ready : ((resetAtGate.advanceTS 200000).hearth 0).slot = .ready := by
  decide +kernel

/-- Refutes O14: HnBREQ_N need not fall 1,000 ticks after the gate. Where a hearth reset still runs (R318), the 1,000 ticks of R216
begin at its end: from `resetAtGate` it is tick 206,000, not 201,000. -/
theorem not_slotPowerAndGate : ¬ Obligations.SlotPowerAndGate := by
  unfold Obligations.SlotPowerAndGate
  rintro ⟨-, hgate⟩
  obtain ⟨t, hexec, -, -, -, -, -, hbreq, -⟩ := hgate resetAtGate rfl rfl rfl
  have hafter := resetAtGate_holdsOff
  rw [hexec] at hafter
  simp only [busAfter, Option.some.injEq, Prod.mk.injEq] at hafter
  obtain ⟨-, hfrom, hnow⟩ := hafter
  have hclaim := hbreq 0 resetAtGate_ready
  rw [hfrom, hnow] at hclaim
  exact absurd hclaim (by decide)

end Sys2Proof.Machine
end

-- ==== Proofs of 04_supplies_domains_first_second: the clocks of a member ====
section
/-! The clocks of a member (R79, R267, R296, R297, R302): the loss of the clock in use and of the other, and the return of a clock. -/

namespace Sys2Proof.Machine

open Sys2Proof

/-! ### A link that drops -/

theorem flue_steady_of_standing {s t : State} (h : t.standing = s.standing) (f : FlueId) : (t.flue f).steady = (s.flue f).steady := by
  cases f
  · exact congrArg Standing.flueA h
  · exact congrArg Standing.flueB h

section DropLink

variable (s : State) (f : FlueId) (cause : Nat)

theorem reacquire_flue (g : FlueId) : (s.reacquire f).flue g = s.flue g :=
  forList_eq (fun s => s.flue g) _ _ (fun l s => by split <;> cases g <;> rfl) s

theorem reacquire_clk : (s.reacquire f).clk = s.clk :=
  forList_eq State.clk _ _ (fun l s => by split <;> rfl) s

/-- R303: a flue event shows its cause. -/
theorem standing_flueEvent : (s.flueEvent f cause).standing =
    (s.modFlue f fun x => { x with cause := cause, eventTick := s.now }).standing := by
  unfold State.flueEvent
  dsimp only
  split
  · exact standing_setSoot _ _
  · exact (standing_logEvent _ _).trans (standing_setSoot _ _)

/-- R302, R303: the end of a link that drops is DOWN with its cause. -/
def Flue.dropped (t : Tally) (cause : Nat) (x : Flue) : Flue :=
  { x with st := .down, dropTick := t, retrains := satInc 0xFFFF x.retrains, cause := cause, eventTick := t }

/-- Only the lanes differ here from the link before its end drops. -/
theorem dropLink_steady : ((s.dropLink f cause).flue f).steady = ((s.flue f).dropped s.now cause).steady := by
  unfold State.dropLink
  rw [flue_steady_of_standing (standing_linksChanged s _) f, reacquire_flue, flue_steady_of_standing (standing_dropTransit _ f) f,
    flue_steady_of_standing (standing_flueEvent _ f cause) f]
  cases f <;> rfl

theorem dropLink_down : ((s.dropLink f cause).flue f).st = .down ∧ ((s.dropLink f cause).flue f).cause = cause :=
  ⟨congrArg Flue.st (dropLink_steady s f cause), congrArg Flue.cause (dropLink_steady s f cause)⟩

theorem dropLink_clk : (s.dropLink f cause).clk = s.clk := by
  unfold State.dropLink
  rw [clk_of_standing (standing_linksChanged s _), reacquire_clk, clk_of_standing (standing_dropTransit _ f),
    clk_of_standing (standing_flueEvent _ f cause)]
  cases f <;> rfl

/-! ### A clock-in that is lost -/

theorem clockDrop_of_active (h : (s.flue f).st = .active) : s.clockDrop f = s.dropLink f 3 := by
  rw [State.clockDrop, h]

theorem clockDrop_of_training (h : (s.flue f).st = .training) : s.clockDrop f = s.modFlue f fun x => { x with st := .detect } := by
  rw [State.clockDrop, h]

theorem clockDrop_of_other (ha : (s.flue f).st ≠ .active) (ht : (s.flue f).st ≠ .training) : s.clockDrop f = s := by
  unfold State.clockDrop
  split
  · next h => exact absurd h ha
  · next h => exact absurd h ht
  · rfl

theorem clockDrop_clk : (s.clockDrop f).clk = s.clk := by
  unfold State.clockDrop
  split
  · exact dropLink_clk s f 3
  · cases f <;> rfl
  · rfl

theorem clockDrop_down (h : (s.flue f).st = .active) : ((s.clockDrop f).flue f).st = .down ∧ ((s.clockDrop f).flue f).cause = 3 := by
  rw [clockDrop_of_active s f h]
  exact dropLink_down s f 3

end DropLink

/-! ### What toggles -/

section Toggles

variable (s : State) (f : FlueId) (toggles : Bool)

/-- R79, R296: the clock-in pair of flue `f` has stopped, and the other one toggles or not. -/
def State.clockGone (s : State) (f : FlueId) (toggles : Bool) : State := (s.setToggles f false).setToggles (FlueId.other f) toggles

theorem setToggles_eq (v : Bool) : s.setToggles f v = { s with clk := (s.setToggles f v).clk } := by
  cases f <;> rfl

/-- Only the two marks of what toggles change. -/
theorem clockGone_eq : s.clockGone f toggles = { s with clk := (s.clockGone f toggles).clk } := by
  cases f <;> rfl

theorem clockGone_running : (s.clockGone f toggles).running = s.running := by
  cases f <;> rfl

theorem clockGone_source : (s.clockGone f toggles).clk.source = s.clk.source := by
  cases f <;> rfl

theorem clockGone_tally : (s.clockGone f toggles).clk.tally = s.clk.tally := by
  cases f <;> rfl

theorem clockGone_offered (g : FlueId) : (s.clockGone f toggles).clockOffered g = s.clockOffered g := by
  cases f <;> cases g <;> rfl

theorem clockGone_flue (g : FlueId) : (s.clockGone f toggles).flue g = s.flue g := by
  cases f <;> cases g <;> rfl

theorem clockGone_performed : (s.clockGone f toggles).performed = s.performed := by
  cases f <;> rfl

end Toggles

/-! ### The commands -/

section Lost

variable {s : State} {f : FlueId} {toggles : Bool}

theorem exec_clockInLost_other (hrun : s.running = true) (hsource : s.clk.source ≠ FlueId.clock f) :
    exec (.clockInLost f toggles) s = .next ((s.clockGone f toggles).clockDrop f) := by
  have hrun' := (clockGone_running s f toggles).trans hrun
  have hsource' : (s.clockGone f toggles).clk.source ≠ FlueId.clock f := by rwa [clockGone_source]
  exact (if_pos hrun').trans (if_neg hsource')

/-- R297: a bridge that is no member pauses. -/
theorem exec_clockInLost_pauses (hrun : s.running = true) (hsource : s.clk.source = FlueId.clock f) (hmode : s.mode ≠ .m3) :
    exec (.clockInLost f toggles) s =
      .next { s.clockGone f toggles with clk := { (s.clockGone f toggles).clk with stopped := true } } := by
  have hrun' := (clockGone_running s f toggles).trans hrun
  have hsource' := (clockGone_source s f toggles).trans hsource
  have hmode' : (s.clockGone f toggles).mode ≠ .m3 := by rwa [clockGone_eq]
  exact ((if_pos hrun').trans (if_pos hsource')).trans (if_pos hmode')

/-- R296: a member takes the other flue's clock where that toggles and may be used, and leaves service where not. -/
theorem exec_clockInLost_member (hrun : s.running = true) (hsource : s.clk.source = FlueId.clock f) (hmode : s.mode = .m3) :
    exec (.clockInLost f toggles) s = if toggles = true ∧ s.clockOffered (FlueId.other f) = true then
        .next ({ s.clockGone f toggles with
          clk := { (s.clockGone f toggles).clk with source := FlueId.clock (FlueId.other f) } }.clockDrop f)
      else .next (s.clockGone f toggles).loseMember := by
  have hrun' := (clockGone_running s f toggles).trans hrun
  have hsource' := (clockGone_source s f toggles).trans hsource
  have hmode' : ¬(s.clockGone f toggles).mode ≠ .m3 := by rw [clockGone_eq]; exact not_not_intro hmode
  rw [← clockGone_offered s f toggles]
  exact ((if_pos hrun').trans (if_pos hsource')).trans (if_neg hmode')

end Lost

section Return

variable {s : State} {f : FlueId} {periods : Nat}

/-- R297: the clock of flue `f` is in use again. -/
def State.clockTaken (s : State) (f : FlueId) : State :=
  { s.setToggles f true with clk := { (s.setToggles f true).clk with source := FlueId.clock f, memberLost := false } }

theorem exec_clockReturn_member (hcount : s.clk.counting = true) (hlost : s.clk.memberLost = true) (hoffer : s.clockOffered f = true) :
    exec (.clockReturn f periods) s = if 1000 ≤ periods then .next (s.clockTaken f).perstHigh else .next s := by
  show execClockReturn f periods s = _
  unfold execClockReturn
  simp only [hcount, hlost, hoffer, true_and, and_true, Bool.not_true, Bool.false_eq_true, and_false, if_false]
  rfl

theorem exec_clockReturn_paused (hlost : s.clk.memberLost = false) (hstop : s.clk.stopped = true)
    (hsource : s.clk.source = FlueId.clock f) : exec (.clockReturn f periods) s =
      .next { s.setToggles f true with clk := { (s.setToggles f true).clk with stopped := false } } := by
  show execClockReturn f periods s = _
  unfold execClockReturn
  simp [hlost, hstop, hsource]

theorem clockTaken_perstHigh (s : State) (f : FlueId) : (s.clockTaken f).perstHigh.clk.source = FlueId.clock f ∧
    (s.clockTaken f).perstHigh.clk.memberLost = false ∧ (s.clockTaken f).perstHigh.clk.tally = s.clk.tally ∧
    (s.clockTaken f).perstHigh.clk.tS = s.clk.tally ∧ (s.clockTaken f).perstHigh.stone = s.stone := by
  cases f <;> exact ⟨rfl, rfl, rfl, rfl, rfl⟩

end Return

/-- R86, R297: a member that has lost its clock counts no tick, and every unit has left service. -/
theorem loseMember_parts (s : State) : s.loseMember.running = false ∧ s.loseMember.clk.tally = s.clk.tally ∧
    (∀ n, (s.loseMember.hearth n).slot = .parked) ∧ s.loseMember.items = Items.reset ∧ s.loseMember.reqs = [] ∧
    s.loseMember.stone = s.performed ∧ s.loseMember.mode = s.mode ∧ s.loseMember.cfg = s.cfg := by
  obtain ⟨link, hleave⟩ := leaveAll_eq s
  unfold State.loseMember
  rw [hleave]
  refine ⟨Bool.and_false _, rfl, fun n => ?_, rfl, rfl, rfl, rfl, rfl⟩
  exact congrArg Hearth.slot (unitsOut_hearth _ n)

/-- Settles O56: the five cases of the two commands, what is left of a link that drops (`clockDrop_down`), of a member that leaves
service (`loseMember_parts`), and of its T_S (`clockTaken_perstHigh`). -/
theorem memberClocks : Obligations.MemberClocks := by
  unfold Obligations.MemberClocks
  refine ⟨fun f toggles s hrun hsource hmode => ?_, fun f toggles s hrun hsource hmode => ⟨fun htoggles hoffer => ?_, fun hno => ?_⟩,
    fun f toggles s hrun hsource => ?_, fun f periods s hcount hlost hoffer => ⟨fun hperiods => ?_, fun hperiods => ?_⟩,
    fun f periods s hlost hstop hsource => ?_⟩
  · rw [exec_clockInLost_pauses hrun hsource hmode]
    cases f <;> rfl
  · subst htoggles
    refine ⟨_, (exec_clockInLost_member hrun hsource hmode).trans (if_pos ⟨rfl, hoffer⟩), clockDrop_clk _ f, fun hactive => ?_⟩
    refine clockDrop_down _ f ?_
    rw [← hactive, ← clockGone_flue s f true f]
    cases f <;> rfl
  · have hnot : ¬(toggles = true ∧ s.clockOffered (FlueId.other f) = true) := by
      rintro ⟨ht, ho⟩
      simp [ht, ho] at hno
    obtain ⟨hstops, htally, hslots, hitems, hreqs, hstone, hmode', hcfg⟩ := loseMember_parts (s.clockGone f toggles)
    have hperformed := hstone.trans (clockGone_performed s f toggles)
    refine ⟨_, (exec_clockInLost_member hrun hsource hmode).trans (if_neg hnot), hstops, htally.trans (clockGone_tally s f toggles), hslots,
      hitems, hreqs, hperformed, fun hnone => hperformed.trans (performed_of_none s hnone), ?_, ?_⟩
    · rw [hmode', clockGone_eq]
    · rw [hcfg, clockGone_eq]
  · refine ⟨_, exec_clockInLost_other hrun hsource, clockDrop_clk _ f, fun hactive htraining => ?_, fun htraining => ?_, fun hactive => ?_⟩
    · rw [← clockGone_flue s f toggles f] at hactive htraining
      rw [clockDrop_of_other _ f hactive htraining]
      exact clockGone_eq s f toggles
    · rw [← clockGone_flue s f toggles f] at htraining
      rw [clockDrop_of_training _ f htraining]
      cases f <;> exact ⟨rfl, rfl, rfl, rfl⟩
    · rw [← clockGone_flue s f toggles f] at hactive
      exact clockDrop_down _ f hactive
  · obtain ⟨hsource, hlost', htally, htS, hstone⟩ := clockTaken_perstHigh s f
    exact ⟨_, (exec_clockReturn_member hcount hlost hoffer).trans (if_pos hperiods), hsource, hlost', htally, htS, rfl, rfl, hstone, rfl⟩
  · exact (exec_clockReturn_member hcount hlost hoffer).trans (if_neg (Nat.not_le.mpr hperiods))
  · rw [exec_clockReturn_paused hlost hstop hsource]
    cases f <;> rfl

end Sys2Proof.Machine
end

-- ==== Proofs of 04_supplies_domains_first_second: sample records ====
section
/-! A sample record leaves to the ring (R257, R258, R272). -/

namespace Sys2Proof.Machine

open Sys2Proof

/-! ### One place in the queue -/

/-- Of the TLPs whose numbers differ from that of `x`, none is changed in its place. -/
theorem map_ne_id (x t : TxTlp) {l : List TxTlp} (h : ∀ y ∈ l, y.id ≠ x.id) :
    (l.map fun (u : TxTlp) => if u.id = x.id then t else u) = l :=
  (List.map_congr_left fun y hy => if_neg (h y hy)).trans (List.map_id' l)

theorem map_place {a b : List TxTlp} {x t : TxTlp} (h : ∀ y, y ∈ a ∨ y ∈ b → y.id ≠ x.id) :
    ((a ++ x :: b).map fun (u : TxTlp) => if u.id = x.id then t else u) = a ++ t :: b := by
  rw [List.map_append, List.map_cons, if_pos rfl, map_ne_id x t fun y hy => h y (.inl hy), map_ne_id x t fun y hy => h y (.inr hy)]

theorem find_awaitsRecord {a b : List TxTlp} {x : TxTlp} (ha : ∀ y ∈ a, y.awaitsRecord = false) (hx : x.awaitsRecord = true) :
    (a ++ x :: b).find? TxTlp.awaitsRecord = some x := by
  rw [List.find?_append, List.find?_eq_none.mpr fun y hy => by simp [ha y hy], List.find?_cons_of_pos hx]
  rfl

/-! ### The record's TLP -/

theorem image_length (r : Record) : r.image.length = 64 := by
  simp [Record.image, leBytes]

theorem recordTlp_bytes_length (s : State) (r : Record) : (s.recordTlp r).bytes.length = 64 := by
  simp [State.recordTlp, image_length]

/-- The MWr of record `r` in the place `x`. -/
def State.recordIn (s : State) (r : Record) (x : TxTlp) : TxTlp := { s.recordTlp r with id := x.id, readyAt := x.readyAt }

/-! ### The command -/

section Command

variable {s : State} {r : Record} {rest : List Record} {x : TxTlp}

/-- R92, R258: the record leaves when Bus Master Enable and the posted credits allow. -/
theorem exec_sampleRecordSend (hqueue : s.sampler.queue = r :: rest) (hplace : s.txq.find? TxTlp.awaitsRecord = some x) :
    exec .sampleRecordSend s = if s.running = true ∧ (s.fn 0).bme = true ∧ s.creditOk (s.recordTlp r) = true then
      .next { s with
        sampler := { s.sampler with queue := rest }
        txq := s.txq.map fun (u : TxTlp) => if u.id = x.id then s.recordIn r x else u }.woken
      else .next s := by
  show execSampleRecordSend s = _
  unfold execSampleRecordSend
  rw [hqueue, hplace]
  rfl

/-- R257: without a place taken by the switch no record leaves. -/
theorem exec_sampleRecordSend_noPlace (hplace : ∀ y ∈ s.txq, y.awaitsRecord = false) : exec .sampleRecordSend s = .next s := by
  have hnone : s.txq.find? TxTlp.awaitsRecord = none := List.find?_eq_none.mpr fun y hy => by simp [hplace y hy]
  show execSampleRecordSend s = _
  unfold execSampleRecordSend
  rw [hnone]
  split
  · next heq => cases heq
  · rfl

theorem exec_sampleRecordSend_waits (hqueue : s.sampler.queue = r :: rest)
    (hwait : (s.fn 0).bme = false ∨ s.creditOk (s.recordTlp r) = false) : exec .sampleRecordSend s = .next s := by
  cases hplace : s.txq.find? TxTlp.awaitsRecord with
  | none => exact exec_sampleRecordSend_noPlace fun y hy => by simpa using List.find?_eq_none.mp hplace y hy
  | some x =>
    rw [exec_sampleRecordSend hqueue hplace, if_neg]
    rintro ⟨-, hbme, hcredit⟩
    obtain h | h := hwait
    · exact absurd (hbme.symm.trans h) (by decide)
    · exact absurd (hcredit.symm.trans h) (by decide)

end Command

/-- Settles O53: the first place that waits for a record takes its TLP (`exec_sampleRecordSend`, `map_place`), or nothing leaves. -/
theorem recordsLeave : Obligations.RecordsLeave := by
  unfold Obligations.RecordsLeave
  intro r rest s hqueue
  refine ⟨fun a x b htxq ha hx hids hrun hbme hcredit => ?_, fun h => ?_⟩
  · have hplace : s.txq.find? TxTlp.awaitsRecord = some x := htxq ▸ find_awaitsRecord ha hx
    refine ⟨_, s.recordIn r x, (exec_sampleRecordSend hqueue hplace).trans (if_pos ⟨hrun, hbme, hcredit⟩), rfl, ?_, rfl, rfl, rfl,
      rfl, rfl, rfl, recordTlp_bytes_length s r, rfl, rfl, rfl, rfl⟩
    rw [← map_place hids, ← htxq]
    rfl
  · obtain h | h | h := h
    · exact exec_sampleRecordSend_waits hqueue (.inl h)
    · exact exec_sampleRecordSend_noPlace h
    · exact exec_sampleRecordSend_waits hqueue (.inr h)

end Sys2Proof.Machine
end

-- ==== Proofs of 04_supplies_domains_first_second: supplies ====
section
/-! The supplies (R76, R78 to R81, R84, R88): what the island senses, the filter of PERST_N before tally 0, the supply-valid event,
the loss of a supply, and the aux-only state. -/

namespace Sys2Proof.Machine

open Sys2Proof

/-! ### PERST_N before tally 0 -/

section Perst

variable {b : Bool}

/-- R83, R84: where PERST_N is filtered to `b`, or 16 periods of `b` complete, it ends at `b`. -/
theorem perst_settles (l : List Bool) (x : Bool × Nat) (hl : ∀ y ∈ l, y = b) (hx : x.1 = b ∨ (x.2 < 16 ∧ 16 ≤ x.2 + l.length)) :
    (l.foldl perstStep x).1 = b := by
  induction l generalizing x with
  | nil =>
    obtain h | ⟨hlt, hle⟩ := hx
    · exact h
    · exact absurd hle (Nat.not_le.mpr hlt)
  | cons y l ih =>
    have hy : y = b := hl y List.mem_cons_self
    refine ih (perstStep x y) (fun z hz => hl z (List.mem_cons_of_mem y hz)) ?_
    by_cases hsame : y = x.1
    · exact .inl (by rw [perstStep, if_pos hsame, ← hsame, hy])
    · by_cases hfull : x.2 + 1 = 16
      · exact .inl (by rw [perstStep, if_neg hsame, Config.perstFilter, if_pos hfull, hy])
      · obtain h | ⟨hlt, hle⟩ := hx
        · exact absurd (hy.trans h.symm) hsame
        · rw [perstStep, if_neg hsame, Config.perstFilter, if_neg hfull]
          exact .inr ⟨by omega, by rw [List.length_cons] at hle; omega⟩

/-- R84: fewer than 16 periods in a row are counted. -/
theorem perst_count_lt (l : List Bool) (x : Bool × Nat) (hx : x.2 < 16) : (l.foldl perstStep x).2 < 16 := by
  induction l generalizing x with
  | nil => exact hx
  | cons y l ih =>
    refine ih _ ?_
    unfold perstStep
    split_ifs with hsame hfull
    · exact Nat.zero_lt_succ _
    · exact Nat.zero_lt_succ _
    · exact Nat.lt_of_le_of_ne (Nat.succ_le_of_lt hx) hfull

/-- R84: the level `b` stands while, with the `k` periods already counted against it, no 16 periods in a row are without a `b`. -/
theorem perst_stands (l : List Bool) (k : Nat) (hk : k < 16)
    (hl : ∀ i, i + 16 ≤ k + l.length → ∃ j, j < 16 ∧ (List.replicate k (!b) ++ l).getD (i + j) b = b) :
    (l.foldl perstStep (b, k)).1 = b := by
  induction l generalizing k with
  | nil => rfl
  | cons y l ih =>
    by_cases hy : y = b
    · have hstep : perstStep (b, k) y = (b, 0) := if_pos hy
      rw [List.foldl_cons, hstep]
      refine ih 0 (Nat.zero_lt_succ _) fun i hi => ?_
      obtain ⟨j, hj, hb⟩ := hl (i + (k + 1)) (by rw [List.length_cons]; omega)
      refine ⟨j, hj, ?_⟩
      rw [List.getD_append_right _ _ _ _ (by rw [List.length_replicate]; omega), List.length_replicate,
        show i + (k + 1) + j - k = i + j + 1 by omega, List.getD_cons_succ] at hb
      simpa using hb
    · have hnot : y = !b := by revert hy; cases y <;> cases b <;> simp
      have hrun : List.replicate k (!b) ++ y :: l = List.replicate (k + 1) (!b) ++ l := by
        rw [hnot, List.replicate_succ', List.append_assoc]
        rfl
      have hfull : k + 1 ≠ 16 := by
        intro hfull
        obtain ⟨j, hj, hb⟩ := hl 0 (by rw [List.length_cons]; omega)
        rw [hrun, List.getD_append _ _ _ _ (by rw [List.length_replicate]; omega)] at hb
        rw [List.getD_eq_getElem _ _ (by rw [List.length_replicate]; omega), List.getElem_replicate] at hb
        exact absurd hb (Bool.not_ne_self b)
      have hstep : perstStep (b, k) y = (b, k + 1) := (if_neg hy).trans (if_neg hfull)
      rw [List.foldl_cons, hstep]
      refine ih (k + 1) (by omega) fun i hi => ?_
      rw [← hrun]
      exact hl i (by rw [List.length_cons]; omega)

theorem perstAtZero_cons {x : Bool} {rest : List Bool} (hlen : (x :: rest).length = 1000) :
    perstAtZero (x :: rest) = (rest.foldl perstStep (x, 0)).1 := by
  have htake : (x :: rest).take Config.startPeriods = x :: rest := List.take_of_length_le (le_of_eq hlen)
  rw [perstAtZero, htake]

/-- R84: the last 16 periods decide where they agree. -/
theorem perstAtZero_of_last {perst : List Bool} (hlen : perst.length = 1000)
    (hlast : ∀ i, 984 ≤ i → i < 1000 → perst.getD i b = b) : perstAtZero perst = b := by
  obtain ⟨x, rest, rfl⟩ := List.exists_cons_of_length_pos (by rw [hlen]; exact Nat.zero_lt_succ _ : 0 < perst.length)
  have hrest : rest.length = 999 := by simpa using hlen
  rw [perstAtZero_cons hlen, ← List.take_append_drop 983 rest, List.foldl_append]
  refine perst_settles _ _ (fun y hy => ?_) (.inr ⟨perst_count_lt _ _ (Nat.zero_lt_succ _), ?_⟩)
  · obtain ⟨i, hi, rfl⟩ := List.mem_iff_getElem.mp hy
    rw [List.length_drop] at hi
    have hb := hlast (983 + i + 1) (by omega) (by omega)
    rw [List.getD_cons_succ, List.getD_eq_getElem _ _ (by omega)] at hb
    rw [List.getElem_drop, hb]
  · rw [List.length_drop, hrest]
    omega

/-- R84: the first level stands where no 16 periods in a row leave it. -/
theorem perstAtZero_of_first {perst : List Bool} (hlen : perst.length = 1000) (hfirst : perst.getD 0 b = b)
    (hruns : ∀ i, i + 16 ≤ 1000 → ∃ j, j < 16 ∧ perst.getD (i + j) b = b) : perstAtZero perst = b := by
  obtain ⟨x, rest, rfl⟩ := List.exists_cons_of_length_pos (by rw [hlen]; exact Nat.zero_lt_succ _ : 0 < perst.length)
  have hx : x = b := hfirst
  have hrest : rest.length = 999 := by simpa using hlen
  rw [perstAtZero_cons hlen, hx]
  refine perst_stands rest 0 (Nat.zero_lt_succ _) fun i hi => ?_
  obtain ⟨j, hj, hb⟩ := hruns (i + 1) (by omega)
  refine ⟨j, hj, ?_⟩
  rw [show i + 1 + j = i + j + 1 by omega, List.getD_cons_succ] at hb
  simpa using hb

end Perst

/-! ### What the island senses -/

section Sense

variable (t : Config.Threshold) (mv : Nat) (valid : Bool)

theorem senseSupply_of_rising (h : t.rising < mv) : senseSupply t mv valid = true := if_pos h

theorem senseSupply_of_falling (ht : t.falling ≤ t.rising) (h : mv < t.falling) : senseSupply t mv valid = false := by
  rw [senseSupply, if_neg (by omega), if_pos h]

theorem senseSupply_stays (h : t.falling ≤ mv) : senseSupply t mv true = true := by
  unfold senseSupply
  split_ifs with hrise hfall
  · rfl
  · exact absurd h (Nat.not_le.mpr hfall)
  · rfl

end Sense

section Island

variable (i : Island) (v : Volts)

theorem supplies_iff : i.supplies = true ↔ i.vcore = true ∧ i.vphy = true ∧ i.vphyh = true ∧ i.vflue = true ∧ i.vaux = true ∧
    i.vstrap = true := by
  simp only [Island.supplies, Bool.and_eq_true, and_assoc]

/-- R76: a supply that is valid does not fall. -/
theorem falls_of_supplies {j : Island} (h : j.supplies = true) : i.falls j = false := by
  obtain ⟨h1, h2, h3, h4, h5, h6⟩ := (supplies_iff j).mp h
  simp [Island.falls, h1, h2, h3, h4, h5, h6]

theorem supplies_of_falls {j : Island} (h : i.falls j = true) : j.supplies = false := by
  by_contra hs
  rw [Bool.not_eq_false] at hs
  exact absurd (h.symm.trans (falls_of_supplies i hs)) (by decide)

theorem sense_rising (h1 : 690 < v.vcore) (h2 : 830 < v.vphy) (h3 : 1100 < v.vphyh) (h4 : 830 < v.vflue) (h5 : 3040 < v.vaux)
    (h6 : 1660 < v.vstrap) : (i.sense v).supplies = true :=
  (supplies_iff _).mpr ⟨senseSupply_of_rising _ _ _ h1, senseSupply_of_rising _ _ _ h2, senseSupply_of_rising _ _ _ h3,
    senseSupply_of_rising _ _ _ h4, senseSupply_of_rising _ _ _ h5, senseSupply_of_rising _ _ _ h6⟩

theorem sense_falling (h : v.vcore < 660 ∨ v.vphy < 790 ∨ v.vphyh < 1060 ∨ v.vflue < 790 ∨ v.vaux < 2900 ∨ v.vstrap < 1580) :
    (i.sense v).supplies = false := by
  by_contra hs
  rw [Bool.not_eq_false] at hs
  obtain ⟨h1, h2, h3, h4, h5, h6⟩ := (supplies_iff _).mp hs
  have habove : ∀ (t : Config.Threshold) mv valid, t.falling ≤ t.rising → senseSupply t mv valid = true → ¬mv < t.falling :=
    fun t mv valid ht hon hlow => absurd (hon.symm.trans (senseSupply_of_falling t mv valid ht hlow)) (by decide)
  obtain h | h | h | h | h | h := h
  · exact habove Config.vcore _ _ (by decide) h1 h
  · exact habove Config.vphy _ _ (by decide) h2 h
  · exact habove Config.vphyh _ _ (by decide) h3 h
  · exact habove Config.vflue _ _ (by decide) h4 h
  · exact habove Config.vaux _ _ (by decide) h5 h
  · exact habove Config.vstrap _ _ (by decide) h6 h

theorem sense_stays (h : i.supplies = true) (h1 : 660 ≤ v.vcore) (h2 : 790 ≤ v.vphy) (h3 : 1060 ≤ v.vphyh) (h4 : 790 ≤ v.vflue)
    (h5 : 2900 ≤ v.vaux) (h6 : 1580 ≤ v.vstrap) : (i.sense v).supplies = true := by
  obtain ⟨e1, e2, e3, e4, e5, e6⟩ := (supplies_iff i).mp h
  refine (supplies_iff _).mpr ⟨?_, ?_, ?_, ?_, ?_, ?_⟩
  · exact e1 ▸ senseSupply_stays Config.vcore v.vcore h1
  · exact e2 ▸ senseSupply_stays Config.vphy v.vphy h2
  · exact e3 ▸ senseSupply_stays Config.vphyh v.vphyh h3
  · exact e4 ▸ senseSupply_stays Config.vflue v.vflue h4
  · exact e5 ▸ senseSupply_stays Config.vaux v.vaux h5
  · exact e6 ▸ senseSupply_stays Config.vstrap v.vstrap h6

end Island

/-! ### Which clock goes first -/

section First

variable {a : Nat} {o : Option Nat}

theorem sooner_some (h : ∀ b, o = some b → a ≤ b) : sooner (some a) o = true := by
  cases o with
  | none => rfl
  | some b => exact decide_eq_true (h b rfl)

theorem sooner_later (h : ∀ b, o = some b → a < b) : sooner o (some a) = false := by
  cases o with
  | none => rfl
  | some b => exact decide_eq_false (Nat.not_le.mpr (h b rfl))

variable {g : Toggles}

theorem first_refclk (hr : g.refclk = some a) (ha : ∀ b, g.flueA = some b → a ≤ b) (hb : ∀ b, g.flueB = some b → a ≤ b) :
    Toggles.first g = some .refclk := by
  rw [Toggles.first, hr, sooner_some ha, sooner_some hb, if_pos ⟨rfl, rfl⟩]

theorem first_flueA (ha : g.flueA = some a) (hr : ∀ b, g.refclk = some b → a < b) (hb : ∀ b, g.flueB = some b → a ≤ b) :
    Toggles.first g = some .flueA := by
  rw [Toggles.first, ha, sooner_later hr, sooner_some hb, if_neg (fun h => Bool.false_ne_true h.1), if_pos rfl]

theorem first_flueB (hb : g.flueB = some a) (hr : ∀ b, g.refclk = some b → a < b) (ha : ∀ b, g.flueA = some b → a < b) :
    Toggles.first g = some .flueB := by
  rw [Toggles.first, hb, sooner_later hr, sooner_later ha, if_neg (fun h => Bool.false_ne_true h.2), if_neg Bool.false_ne_true]
  rfl

theorem first_none (hr : g.refclk = none) (ha : g.flueA = none) (hb : g.flueB = none) : Toggles.first g = none := by
  rw [Toggles.first, hr, ha, hb]
  rfl

end First

/-! ### Supplies sensed -/

section SenseAll

variable {s : State} {i : Island}

/-- R76, R81: the bridge with the island as `i` senses it, no supply having fallen. -/
def State.sensed (s : State) (i : Island) : State := { s with island := { i with haux := if s.island.vaux then i.haux else none } }

theorem senseAll_of_stays (h : s.island.falls i = false) : s.senseAll i = s.sensed i := by
  rw [State.senseAll, if_neg (by simp [h])]
  rfl

/-- R80: a supply has fallen, VAUX has not. -/
theorem senseAll_of_falls (h : s.island.falls i = true) (haux : s.island.vaux = false ∨ i.vaux = true) :
    s.senseAll i = (s.sensed i).cold := by
  have hkept : ¬(s.island.vaux = true ∧ (!i.vaux) = true) := by
    obtain h | h := haux <;> simp [h]
  rw [State.senseAll, if_pos h, if_neg hkept]
  rfl

/-- R81: VAUX has fallen. -/
theorem senseAll_of_aux_falls (h : s.island.falls i = true) (haux : s.island.vaux = true) (hlost : i.vaux = false) :
    s.senseAll i = (s.sensed i).cold.loseAux := by
  have hgone : s.island.vaux = true ∧ (!i.vaux) = true := ⟨haux, by simp [hlost]⟩
  rw [State.senseAll, if_pos h, if_pos hgone]
  rfl

theorem cold_hearth (s : State) (n : HearthId) : s.cold.hearth n = (s.hearth n).coldKept := by
  rw [State.hearth, State.cold, vget_vmap, State.hearth]

theorem cold_dom (s : State) (d : DomainId) : s.cold.dom d = .off := by
  rw [State.dom, State.cold, vget_replicate]

theorem cold_fn (s : State) (f : FnId) : s.cold.fn f = FnCfg.reset := vget_replicate _ f

theorem loseAux_hearth (s : State) (n : HearthId) : s.loseAux.hearth n = Hearth.reset := by
  rw [State.hearth, State.loseAux, vget_replicate]

end SenseAll

/-! ### The supply-valid event -/

section Begin

variable (s : State) (clock : ClockSource) (g : Toggles)

theorem begin_dom (perstLow : Bool) (d : DomainId) : (s.begin clock g perstLow).dom d = .off := cold_dom s d

/-- R78, R87: tally 0 is T_S where PERST_N is filtered high, else the ledger alone is ON. -/
def State.begun (s : State) (clock : ClockSource) (g : Toggles) (perstLow : Bool) : State :=
  if perstLow then (s.begin clock g perstLow).setDom 159 (.on 0) else (s.begin clock g perstLow).startTS

theorem begun_hearth (perstLow : Bool) (n : HearthId) : ((s.begun clock g perstLow).hearth n).slot = .parked := by
  have hcold : ((s.begin clock g perstLow).hearth n).slot = .parked := by
    have hkept : (s.begin clock g perstLow).hearth n = (s.hearth n).coldKept := cold_hearth s n
    rw [hkept]
    rfl
  unfold State.begun
  split
  · exact hcold
  · exact hcold

theorem begun_dom (perstLow : Bool) (d : DomainId) : (s.begun clock g perstLow).dom d =
    if d.val = 159 ∨ ((d.val = 158 ∨ d.val = 161) ∧ perstLow = false) then .on 0 else .off := by
  have hval : d.val = 159 ↔ d = 159 := (Fin.ext_iff (b := (159 : DomainId))).symm
  cases perstLow with
  | true =>
    have hset : (s.begun clock g true).dom d = vget (vset (s.begin clock g true).doms 159 (.on 0)) d := rfl
    have hoff : vget (s.begin clock g true).doms d = .off := begin_dom s clock g true d
    simp only [hset, vget_vset, hoff, hval, Bool.true_eq_false, and_false, or_false]
  | false =>
    have hstart : (s.begun clock g false).dom d = (s.begin clock g false).startTS.dom d := rfl
    have hmode : (s.begin clock g false).strapMode.exposes = true := rfl
    have htally : (s.begin clock g false).clk.tally = 0 := rfl
    rw [hstart, startTS_dom, hmode, htally]
    simp only [begin_dom, and_true]
    refine if_congr ?_ rfl rfl
    tauto

theorem begun_fn (perstLow : Bool) (f : FnId) : (s.begun clock g perstLow).fn f = FnCfg.reset := by
  have hreset : (s.begin clock g perstLow).fn f = FnCfg.reset := cold_fn s f
  unfold State.begun
  split
  · exact hreset
  · rw [startTS_fn, hreset]
    rfl

variable (perstLow : Bool)

theorem begun_clk : (s.begun clock g perstLow).clk =
    { tally := 0, counting := true, stopped := false, source := clock, tS := 0, live := !perstLow, memberLost := false,
      toggleA := g.flueA.isSome, toggleB := g.flueB.isSome } := by
  cases perstLow <;> rfl

theorem begun_mode : (s.begun clock g perstLow).mode = .m7 := by
  cases perstLow <;> rfl

/-- R84: with PERST_N low the sequence is abandoned. -/
theorem begun_seq : (s.begun clock g perstLow).straps.seq = if perstLow then none else some 0 := by
  cases perstLow <;> rfl

theorem begun_island : (s.begun clock g perstLow).island =
    { s.island with clearMark := true, clearFrom := none, perstLow := perstLow } := by
  cases perstLow <;> rfl

theorem begun_ledger : (s.begun clock g perstLow).ledger = Ledger.reset := by
  cases perstLow <;> rfl

theorem begun_work : (s.begun clock g perstLow).items = Items.reset ∧ (s.begun clock g perstLow).link = HostLink.reset ∧
    (s.begun clock g perstLow).dll = Dll.reset := by
  cases perstLow <;> exact ⟨rfl, rfl, rfl⟩

theorem begun_kept : (s.begun clock g perstLow).soot = Soot.reset ∧ (s.begun clock g perstLow).gate = false ∧
    (s.begun clock g perstLow).slotPower = false ∧ (s.begun clock g perstLow).pending = s.pending ∧
    (s.begun clock g perstLow).tap = s.tap := by
  cases perstLow <;> exact ⟨rfl, rfl, rfl, rfl, rfl⟩

end Begin

/-! ### The commands -/

section Commands

variable {s : State} {v : Volts} {g : Toggles} {perst : List Bool}

/-- R78: 1,000 periods with all six supplies begin tally 0. -/
theorem exec_supplyValidEvent_begins {clock : ClockSource} (hcount : s.clk.counting = false) (hperiods : 1000 ≤ g.periods)
    (hsupplies : (s.island.sense v).supplies = true) (hfirst : Toggles.first g = some clock) :
    exec (.supplyValidEvent v g perst) s = .next ((s.sensed (s.island.sense v)).begun clock g (perstAtZero perst)) := by
  show execSupplyValidEvent v g perst s = _
  have hcond : (!(s.sensed (s.island.sense v)).clk.counting) = true ∧ (s.sensed (s.island.sense v)).island.supplies = true ∧
      Config.startPeriods ≤ g.periods := ⟨by rw [State.sensed, hcount]; rfl, hsupplies, hperiods⟩
  simp only [execSupplyValidEvent, hfirst, senseAll_of_stays (falls_of_supplies s.island hsupplies), State.begun]
  rw [if_pos hcond]
  split <;> rfl

/-- R78: with a running tally, too few periods or no clock, the island only senses. -/
theorem exec_supplyValidEvent_senses (h : s.clk.counting = true ∨ g.periods < 1000 ∨ Toggles.first g = none)
    (hfalls : s.island.falls (s.island.sense v) = false) :
    exec (.supplyValidEvent v g perst) s = .next (s.sensed (s.island.sense v)) := by
  show execSupplyValidEvent v g perst s = _
  unfold execSupplyValidEvent
  rw [senseAll_of_stays hfalls]
  dsimp only
  split
  next clock hfirst =>
    refine if_neg ?_
    rintro ⟨hcount, -, hperiods⟩
    have hcount' : s.clk.counting = false := by simpa [State.sensed] using hcount
    obtain h | h | h := h
    · exact absurd (h.symm.trans hcount') (by decide)
    · exact absurd h (Nat.not_lt.mpr hperiods)
    · exact absurd (h.symm.trans hfirst) (by simp)
  next => rfl

theorem exec_supplyInvalid (s : State) : exec (.supplyInvalid v) s = .next (s.senseAll (s.island.sense v)) := rfl

/-- R76: VAUX past its rising threshold falls nothing. -/
theorem exec_vauxValid (s : State) : exec .vauxValid s = .next (s.sensed { s.island with vaux := true }) := by
  have hfalls : s.island.falls { s.island with vaux := true } = false := by simp [Island.falls]
  rw [← senseAll_of_stays hfalls]
  rfl

/-- R81: the level that the change of a slot leaves. -/
def State.slotLevel (s : State) (n : HearthId) : SlotInput → State
  | .presence low => s.modHearth n fun h => { h with presBall := low }
  | .press => s

/-- R81: the change, and WAKE_N with it. -/
def State.auxChanged (s : State) (n : HearthId) (what : SlotInput) : State :=
  { s.slotLevel n what with island := { s.island with wakeLow := s.island.wakeLow ||
      (s.island.vaux && !s.island.supplies && s.island.auxWakes && (s.hearth n).auxChange what) } }

theorem exec_auxOnlyWake (n : HearthId) (what : SlotInput) (hfalls : s.island.falls (s.island.sense v) = false) :
    exec (.auxOnlyWake v ⟨n, what⟩) s = .next ((s.sensed (s.island.sense v)).auxChanged n what) := by
  show execAuxOnlyWake v ⟨n, what⟩ s = _
  unfold execAuxOnlyWake
  rw [senseAll_of_stays hfalls]
  cases what <;> rfl

end Commands

section Parts

variable (s : State) (n : HearthId) (what : SlotInput)

/-- R81: of the hearths only the level of that one changes. -/
theorem auxChanged_hearth (m : HearthId) : (s.auxChanged n what).hearth m =
    if m = n then { s.hearth n with presBall := match what with | .presence low => low | .press => (s.hearth n).presBall }
    else s.hearth m := by
  cases what with
  | presence low => exact vget_vset s.hearths n m _
  | press =>
    split
    · next h => subst h; rfl
    · rfl

theorem auxChanged_standing : (s.auxChanged n what).standing =
    { s.standing with island := (s.auxChanged n what).island, hearths := (s.auxChanged n what).standing.hearths } := by
  cases what <;> rfl

end Parts

/-- R80: of the bridge `s`, no tick passes in `t` and everything outside the island is lost but the queue of commands. -/
structure Lost (s t : State) : Prop where
  stops : t.running = false
  tally : t.clk.tally = 0
  supplies : t.island.supplies = false
  mark : t.island.clearMark = true
  mode : t.mode = .m7
  doms : ∀ d, t.dom d = .off
  slots : ∀ n, (t.hearth n).slot = .parked
  fns : ∀ f, t.fn f = FnCfg.reset
  ledger : t.ledger = Ledger.reset
  items : t.items = Items.reset
  tlps : t.txq = [] ∧ t.reqs = [] ∧ t.tags = []
  gate : t.gate = false
  pending : t.pending = s.pending

theorem lost_cold {s : State} {i : Island} (h : i.supplies = false) : Lost s (s.sensed i).cold :=
  ⟨rfl, rfl, h, rfl, rfl, cold_dom _, fun n => congrArg Hearth.slot (cold_hearth _ n), cold_fn _, rfl, rfl, ⟨rfl, rfl, rfl⟩, rfl, rfl⟩

theorem Lost.loseAux {s t : State} (h : Lost s t) : Lost s t.loseAux :=
  { h with slots := fun n => congrArg Hearth.slot (loseAux_hearth t n) }

/-- R80, R81: a supply falls; the island keeps what it holds with VAUX, and loses it without. -/
theorem senseAll_lost {s : State} {i : Island} (hfalls : s.island.falls i = true) : Lost s (s.senseAll i) ∧
    (s.island.vaux = false ∨ i.vaux = true → (s.senseAll i).island.haux = (if s.island.vaux then i.haux else none) ∧
      (s.senseAll i).island.wakeLow = i.wakeLow ∧ (s.senseAll i).tap = s.tap ∧
      ∀ n, ((s.senseAll i).hearth n).presBall = (s.hearth n).presBall ∧ ((s.senseAll i).hearth n).pgood = (s.hearth n).pgood) ∧
    (s.island.vaux = true → i.vaux = false →
      (s.senseAll i).island.haux = none ∧ (s.senseAll i).island.wakeLow = false ∧ (s.senseAll i).tap = Tap.reset) := by
  have hcold : Lost s (s.sensed i).cold := lost_cold (supplies_of_falls s.island hfalls)
  by_cases hlost : s.island.vaux = true ∧ i.vaux = false
  · rw [senseAll_of_aux_falls hfalls hlost.1 hlost.2]
    refine ⟨hcold.loseAux, fun hkept => ?_, fun _ _ => ⟨rfl, rfl, rfl⟩⟩
    simp [hlost] at hkept
  · have hkept : s.island.vaux = false ∨ i.vaux = true := by
      rwa [not_and_or, Bool.not_eq_true, Bool.not_eq_false] at hlost
    rw [senseAll_of_falls hfalls hkept]
    refine ⟨hcold, fun _ => ⟨rfl, rfl, rfl, fun n => ?_⟩, fun haux hgone => absurd ⟨haux, hgone⟩ hlost⟩
    rw [cold_hearth]
    exact ⟨rfl, rfl⟩

/-- Settles O8: the filter of PERST_N (`perstAtZero_of_last`, `perstAtZero_of_first`), the thresholds, the first clock, and one equation
for each command. -/
theorem supplyEvents : Obligations.SupplyEvents := by
  unfold Obligations.SupplyEvents
  refine ⟨?_, ⟨fun i v => ⟨?_, sense_falling i v, fun h h1 h2 h3 h4 h5 h6 => ?_⟩, fun g a => ⟨first_refclk, first_flueA, first_flueB, first_none⟩⟩,
    fun v s => ⟨fun hfalls => ?_, fun hfalls => ?_⟩, fun v n what s hfalls i hi => ?_, exec_vauxValid⟩
  · rintro v g perst perstLow s rfl
    refine ⟨fun clock hcount hperiods hsupplies hfirst => ?_, exec_supplyValidEvent_senses, fun b hlen =>
      ⟨perstAtZero_of_last hlen, perstAtZero_of_first hlen⟩⟩
    obtain ⟨hitems, hlink, hdll⟩ := begun_work (s.sensed (s.island.sense v)) clock g (perstAtZero perst)
    obtain ⟨hsoot, hgate, hslot, hpending, htap⟩ := begun_kept (s.sensed (s.island.sense v)) clock g (perstAtZero perst)
    exact ⟨_, exec_supplyValidEvent_begins hcount hperiods hsupplies hfirst, begun_clk _ _ _ _, begun_mode _ _ _ _, begun_seq _ _ _ _,
      begun_hearth _ _ _ _, begun_island _ _ _ _, begun_dom _ _ _ _, begun_ledger _ _ _ _, hitems, hlink, hdll, begun_fn _ _ _ _,
      hsoot, hgate, hslot, hpending, htap⟩
  · exact fun h1 h2 h3 h4 h5 h6 => sense_rising i v h1 h2 h3 h4 h5 h6
  · have hs := sense_stays i v h h1 h2 h3 h4 h5 h6
    exact ⟨falls_of_supplies i hs, hs⟩
  · obtain ⟨h, hkeeps, hloses⟩ := senseAll_lost hfalls
    obtain ⟨htxq, hreqs, htags⟩ := h.tlps
    exact ⟨_, exec_supplyInvalid s, h.stops, h.tally, h.supplies, h.mark, h.mode, h.doms, h.slots, h.fns, h.ledger, h.items, htxq, hreqs,
      htags, h.gate, h.pending, hkeeps, hloses⟩
  · exact congrArg _ (senseAll_of_stays hfalls)
  · subst hi
    exact ⟨_, exec_auxOnlyWake n what hfalls, by cases what <;> rfl, auxChanged_hearth _ n what, auxChanged_standing _ n what⟩

end Sys2Proof.Machine
end

-- ==== Proofs of 04_supplies_domains_first_second: fields of a function ====
section
/-! The bits of a function that have a command of their own (R92, R118, R161, R162, R178, R179, R183, R184, R237, R270): what a member's
bridge and the host are told of them, and what clearing Bus Master Enable takes from the queue of TLPs. -/

namespace Sys2Proof.Machine

open Sys2Proof

/-! ### Who is told of a bit -/

/-- From `s` to `t` a member's bridge or the host may have been told something: functions, interrupts, the queue of TLPs, the service
items, the hearths' slots in the ledger and the standing parts are the same. -/
structure Told (s t : State) : Prop where
  fns : t.fns = s.fns
  txq : t.txq = s.txq
  irq : t.irq = s.irq
  service : t.items.service = s.items.service
  slots : t.items.slots = s.items.slots
  standing : t.standing = s.standing

section Told

variable (s : State)

theorem Told.refl : Told s s := ⟨rfl, rfl, rfl, rfl, rfl, rfl⟩

theorem Told.trans {s t u : State} (h : Told s t) (k : Told t u) : Told s u :=
  ⟨k.fns.trans h.fns, k.txq.trans h.txq, k.irq.trans h.irq, k.service.trans h.service, k.slots.trans h.slots,
    k.standing.trans h.standing⟩

theorem told_woken : Told s s.woken := ⟨rfl, rfl, rfl, rfl, rfl, rfl⟩

theorem told_presentIntx (f : FnId) (up : Bool) : Told s (s.presentIntx f up) := by
  unfold State.presentIntx
  split
  · exact .refl s
  · exact ⟨rfl, rfl, rfl, rfl, rfl, rfl⟩

/-- What a block for another position leaves alone: everything but the flue ends and what is owed to it. -/
theorem control_eq (q : Fin 4) (b : FlueBlk) : (s.control q b).fns = s.fns ∧ (s.control q b).items = s.items ∧
    (s.control q b).chim.held = s.chim.held := by
  unfold State.control
  split
  · next f _ => cases f <;> exact ⟨rfl, rfl, rfl⟩
  · exact ⟨rfl, rfl, rfl⟩

/-- R306: a FUNC block changes no function, no item and no arrival that waits. -/
theorem sendFuncOf_eq (f : FnId) (reset : Bool) : (s.sendFuncOf f reset).fns = s.fns ∧ (s.sendFuncOf f reset).items = s.items ∧
    (s.sendFuncOf f reset).chim.held = s.chim.held := by
  unfold State.sendFuncOf
  split
  · unfold State.sendFunc
    split
    · exact control_eq _ _ _
    · exact ⟨rfl, rfl, rfl⟩
  · exact ⟨rfl, rfl, rfl⟩

theorem untouched_sendFuncOf (f : FnId) (reset : Bool) : Untouched s (s.sendFuncOf f reset) := by
  unfold State.sendFuncOf
  split
  · exact untouched_sendFunc s _ reset
  · exact .refl s

theorem told_sendFuncOf (f : FnId) (reset : Bool) : Told s (s.sendFuncOf f reset) := by
  obtain ⟨hfns, hitems, -⟩ := sendFuncOf_eq s f reset
  have hun := untouched_sendFuncOf s f reset
  exact ⟨hfns, hun.txq, hun.irq, by rw [hitems], by rw [hitems], standing_sendFuncOf s f reset⟩

/-- R172: without an arrival that waits for the host's port nothing lands. -/
theorem landWaiting_of_none (h : ∀ x ∈ s.chim.held, x.2.dstPort.val ≠ 16) : s.landWaiting = s := by
  have hnone : (s.chim.held.filter fun x => x.2.dstPort.val = 16) = [] := List.filter_eq_nil_iff.mpr fun x hx => by simpa using h x hx
  unfold State.landWaiting
  rw [hnone]
  exact if_pos (.inl rfl)

end Told

/-! ### The functions when one of them is written -/

section Written

variable (s : State) (f : FnId) (g : FnCfg → FnCfg)

theorem modFn_fns : (s.modFn f g).fns = vset s.fns f (g (s.fn f)) := rfl

theorem modFn_standing : (s.modFn f g).standing = { s.standing with fns := steadyFns (s.modFn f g).fns } := rfl

/-- A write that changes nothing. -/
theorem vset_fn_self {c : FnCfg} (h : c = s.fn f) : vset s.fns f c = s.fns := h ▸ vset_vget s.fns f

variable {s f g}

/-- Where a function has been written and only errors and interrupts have been recorded since, each function's steady part is known. -/
theorem steady_of_written {t : State} (h : t.standing = (s.modFn f g).standing) (k : FnId) :
    (t.fn k).steady = if k = f then (g (s.fn f)).steady else (s.fn k).steady := by
  rw [State.fn, fn_steady_eq (congrArg Standing.fns h) k, modFn_fns, vget_vset]
  split <;> rfl

theorem standing_of_written {t : State} (h : t.standing = (s.modFn f g).standing) :
    t.standing = { s.standing with fns := steadyFns t.fns } := standing_own_fns (h.trans (modFn_standing s f g))

theorem Told.standing_written {t : State} (h : Told (s.modFn f g) t) : t.standing = { s.standing with fns := steadyFns t.fns } :=
  standing_of_written h.standing

end Written

/-! ### Unsent work that is cut -/

section Cut

variable (s : State)

theorem answer_txq (n : HearthId) (r : Resp) : (s.answer n r).txq = s.txq := by
  unfold State.answer
  split <;> rfl

theorem driveRead_txq (n : HearthId) (got : List (Nat × Byte)) : (s.driveRead n got).txq = s.txq := by
  unfold State.driveRead
  split <;> rfl

theorem farSide_txq (n : HearthId) (ev : Bool) : (s.farSide n ev).txq = s.txq := by
  cases hc : (s.hearth n).cyc with
  | none => rw [farSide_of_closed fun c h => by simp [hc] at h]
  | some c =>
    cases hopen : c.phase.isOpen with
    | false => rw [farSide_of_closed fun d h => by rw [hc] at h; cases h; exact hopen]
    | true =>
      rw [farSide_of_open hc hopen]
      have hlog := (untouched_farLogged s n ev c).txq
      refine Eq.trans ?_ hlog
      show ((s.farLogged n ev c).farAnswer n c).txq = _
      unfold State.farAnswer
      (repeat' split)
      · exact answer_txq _ n .berr
      · exact driveRead_txq _ n _
      · exact answer_txq _ n .ack

theorem completeCycle_txq (n : HearthId) (serial : Nat) (got : List (Nat × Byte)) (status : CplStatus) :
    (s.completeCycle n serial got status).txq = s.txq := by
  unfold State.completeCycle
  (repeat' split)
  · rfl
  · exact driveRead_txq s n got
  · exact answer_txq s n .ack
  · exact farSide_txq s n false
  · rfl

theorem endWork_txq (o : Origin) (got : List (Nat × Byte)) (status : CplStatus) : (s.endWork o got status).txq = s.txq := by
  unfold State.endWork
  split
  · exact completeCycle_txq s _ _ got status
  · rfl
  · rfl
  · exact (untouched_performedFrom s _ _).txq
  · rfl

theorem logged_endPosted_txq (f : FnId) (n : HearthId) (serial : Nat) : ((s.logEvent f).endPosted n serial).txq = s.txq :=
  (untouched_logEvent s f).txq

theorem logged_performed_txq (f : FnId) (q : Fin 4) (num : BitVec 16) : ((s.logEvent f).performedFrom q num).txq = s.txq :=
  (untouched_performedFrom _ q num).txq.trans (untouched_logEvent s f).txq

theorem cutPiece_txq (h : Fin 64) (p : Piece) : (s.cutPiece h p).txq = s.txq := by
  unfold State.cutPiece
  dsimp only
  split
  · next n serial _ =>
    have hwaits : ∀ waits : Bool,
        (if waits then s.farSide n false else (s.logEvent (fnOfChimney h)).endPosted n serial).txq = s.txq := fun waits => by
      cases waits
      · exact logged_endPosted_txq s _ n serial
      · exact farSide_txq s n false
    exact hwaits _
  · (repeat' split)
    · exact farSide_txq s _ false
    · rfl
    · rfl
  · exact logged_performed_txq s _ _ _
  · rfl
  · rfl

theorem cutTlp_txq (h : Fin 64) (mine : List TxTlp) (u : TxTlp) : (s.cutTlp h mine u).txq = s.txq := by
  unfold State.cutTlp
  split
  · split
    · exact logged_endPosted_txq s _ _ _
    · exact logged_performed_txq s _ _ _
    · rfl
  · exact endWork_txq s _ _ _
  · exact endWork_txq s _ _ _
  · rfl

theorem cutKind0_eq (h : Fin 64) : s.cutKind0 h =
    forList (s.txq.filter (TxTlp.kind0Of h)) (fun t s' => s'.cutTlp h (s.txq.filter (TxTlp.kind0Of h)) t)
      (forList (s.gather (Piece.kind0Of h)) (fun p s => s.cutPiece h p) (s.cutsKind0 h)) := rfl

/-- R237: the unsent kind-0 TLPs leave the queue, and no other. -/
theorem cutKind0_txq (h : Fin 64) : (s.cutKind0 h).txq = s.txq.filter fun u => !TxTlp.kind0Of h u := by
  rw [cutKind0_eq, forList_eq State.txq _ _ fun u s' => cutTlp_txq s' h _ u, forList_eq State.txq _ _ fun p s' => cutPiece_txq s' h p,
    cutsKind0_txq]

end Cut

/-! ### Bus Master Enable -/

section Bme

variable {s : State} {f : FnId}

def FnCfg.setBme (v : Bool) (c : FnCfg) : FnCfg := { c with bme := v }

theorem modFn_of_same {g : FnCfg → FnCfg} (h : g (s.fn f) = s.fn f) : s.modFn f g = s := by
  rw [State.modFn, vset_fn_self s f h]

/-- R306: Bus Master Enable has changed; the member's bridge hears of it, and requests that wait for it land. -/
theorem writeBme_set (h : (s.fn f).bme = false) :
    s.writeBme f true = ((s.modFn f (FnCfg.setBme true)).sendFuncOf f false).landWaiting.woken := by
  rw [State.writeBme, if_neg (by simp [h])]
  rfl

theorem writeBme_same (h : (s.fn f).bme = true) : s.writeBme f true = s.modFn f (FnCfg.setBme true) := by
  rw [State.writeBme, if_pos h, modFn_of_same]
  rw [FnCfg.setBme, ← h]

theorem writeBme_true_standing : (s.writeBme f true).standing = (s.modFn f (FnCfg.setBme true)).standing := by
  cases h : (s.fn f).bme with
  | true => rw [writeBme_same h]
  | false => rw [writeBme_set h, standing_woken, standing_landWaiting, standing_sendFuncOf]

theorem writeBme_true_untouched : Untouched s (s.writeBme f true) := by
  cases h : (s.fn f).bme with
  | true =>
    rw [writeBme_same h]
    exact untouched_modFn s f _
  | false =>
    rw [writeBme_set h]
    exact (((untouched_modFn s f _).trans (untouched_sendFuncOf _ f false)).trans (untouched_landWaiting _)).trans (untouched_woken _)

/-- R172: where no request waits for the host's port, nothing but the function changes. -/
theorem writeBme_true_of_none (hheld : ∀ x ∈ s.chim.held, x.2.dstPort.val ≠ 16) :
    (s.writeBme f true).fns = vset s.fns f { s.fn f with bme := true } ∧ (s.writeBme f true).items = s.items := by
  cases h : (s.fn f).bme with
  | true =>
    rw [writeBme_same h]
    exact ⟨rfl, rfl⟩
  | false =>
    obtain ⟨hfns, hitems, hsame⟩ := sendFuncOf_eq (s.modFn f (FnCfg.setBme true)) f false
    rw [writeBme_set h, landWaiting_of_none _ fun x hx => hheld x (hsame ▸ hx)]
    exact ⟨hfns, hitems⟩

/-- R237, R270: what clearing Bus Master Enable takes away. -/
def State.bmeCut (s : State) (f : FnId) : State :=
  match hearthOfFn f with
  | some h => (s.modFn f (FnCfg.setBme false)).cutKind0 h
  | none => (s.modFn f (FnCfg.setBme false)).dropRecords

theorem bmeCut_standing : (s.bmeCut f).standing = (s.modFn f (FnCfg.setBme false)).standing := by
  unfold State.bmeCut
  split
  · exact standing_cutKind0 _ _
  · exact standing_dropRecords _

theorem bmeCut_txq {h : Fin 64} (hf : hearthOfFn f = some h) : (s.bmeCut f).txq = s.txq.filter fun u => !TxTlp.kind0Of h u := by
  rw [State.bmeCut, hf]
  exact cutKind0_txq _ h

theorem hearthOfFn_zero (hf : f.val = 0) : hearthOfFn f = none := by
  rw [hearthOfFn, if_neg (by omega)]

theorem bmeCut_zero (hf : f.val = 0) : s.bmeCut f = (s.modFn f (FnCfg.setBme false)).dropRecords := by
  rw [State.bmeCut, hearthOfFn_zero hf]

theorem writeBme_clear (h : (s.fn f).bme = true) : s.writeBme f false = ((s.bmeCut f).sendFuncOf f false).landWaiting.woken := by
  rw [State.writeBme, if_neg (by simp [h])]
  rfl

theorem untouched_writeBme_clear (h : (s.fn f).bme = true) : Untouched (s.bmeCut f) (s.writeBme f false) := by
  rw [writeBme_clear h]
  exact ((untouched_sendFuncOf _ f false).trans (untouched_landWaiting _)).trans (untouched_woken _)

theorem writeBme_false_standing (h : (s.fn f).bme = true) :
    (s.writeBme f false).standing = (s.modFn f (FnCfg.setBme false)).standing := by
  rw [writeBme_clear h, standing_woken, standing_landWaiting, standing_sendFuncOf, bmeCut_standing]

end Bme

/-! ### The other bits -/

section Bits

variable (s : State) (f : FnId) (v : Bool) (p : PowerState)

def FnCfg.setMse (v : Bool) (c : FnCfg) : FnCfg := { c with mse := v }
def FnCfg.setIntd (v : Bool) (c : FnCfg) : FnCfg := { c with intd := v }
def FnCfg.setPower (p : PowerState) (c : FnCfg) : FnCfg := { c with power := p }

/-- R179, R306: Memory Space Enable takes its value, and the member's bridge hears of a change. -/
theorem told_writeMse : Told (s.modFn f (FnCfg.setMse v)) (s.writeMse f v) := by
  unfold State.writeMse
  split
  · next h =>
    rw [modFn_of_same (g := FnCfg.setMse v) (by rw [FnCfg.setMse, ← h])]
    exact .refl s
  · exact (told_sendFuncOf _ f false).trans (told_woken _)

theorem writeMse_items : (s.writeMse f v).items = s.items := by
  unfold State.writeMse
  split
  · rfl
  · obtain ⟨-, hitems, -⟩ := sendFuncOf_eq (s.modFn f (FnCfg.setMse v)) f false
    exact hitems

/-- R178: Interrupt Disable takes its value in a hearth function. -/
theorem told_writeIntd (hf : f.val ≠ 0) : Told (s.modFn f (FnCfg.setIntd v)) (s.writeIntd f v) := by
  unfold State.writeIntd
  split
  · next h =>
    rw [modFn_of_same (g := FnCfg.setIntd v) (by rw [FnCfg.setIntd, ← h.resolve_left hf])]
    exact .refl s
  · dsimp only
    (repeat' split)
    · exact told_presentIntx _ f false
    · exact .refl _
    · exact told_presentIntx _ f true
    · exact .refl _

theorem writeIntd_zero (hf : f.val = 0) : s.writeIntd f v = s := if_pos (.inl hf)

/-- R183, R245: PowerState takes its value; the member's bridge and the host may hear of it. -/
theorem told_writePower : Told (s.modFn f (FnCfg.setPower p)) (s.writePower f p) := by
  have hsent : Told (s.modFn f (FnCfg.setPower p)) (if ((s.fn f).power = .d0) = (p = .d0) then s.modFn f (FnCfg.setPower p)
      else (s.modFn f (FnCfg.setPower p)).sendFuncOf f false) := by
    split
    · exact .refl _
    · exact told_sendFuncOf _ f false
  have hend : ∀ (u : State) (c : Prop) [Decidable c], Told (s.modFn f (FnCfg.setPower p)) u →
      Told (s.modFn f (FnCfg.setPower p)) (if c then u.presentIntx f true else u) := by
    intro u c _ hu
    split
    · exact hu.trans (told_presentIntx _ f true)
    · exact hu
  exact hend _ _ hsent

/-- R118, R184: a message is asked for where function 0's LTR Mechanism Enable is set. -/
theorem writeLtr_woken : (s.writeLtr f v).woken = { s with
    fns := vset s.fns f { s.fn f with ltr := v }, wake := true
    ledger := { s.ledger with ltrAsked := s.ledger.ltrAsked || (f.val = 0 && v && !(s.fn f).ltr) } } := by
  unfold State.writeLtr
  dsimp only
  split
  · next h => rw [h, Bool.or_true]; rfl
  · next h => rw [Bool.eq_false_iff.mpr h, Bool.or_false]; rfl

/-- R161: Extended Tag Enable is bit 8 of Device Control. -/
theorem extTag_bits (c : BitVec 16) (v : Bool) (i : Nat) : (if v then c ||| 0x0100 else c &&& ~~~0x0100).getLsbD i =
    if i = 8 then v else c.getLsbD i := by
  have hbit : (0x0100 : BitVec 16).getLsbD i = decide (i = 8) := by
    rw [show (0x0100 : BitVec 16) = BitVec.twoPow 16 8 from rfl, BitVec.getLsbD_twoPow]
    by_cases h : i = 8 <;> simp [h]
    omega
  cases v
  · simp only [Bool.false_eq_true, if_false, BitVec.getLsbD_and, BitVec.getLsbD_not, hbit]
    by_cases h : i = 8
    · simp [h]
    · by_cases hi : i < 16
      · simp [h, hi]
      · simp [h, BitVec.getLsbD_of_ge c i (by omega)]
  · simp only [if_true, BitVec.getLsbD_or, hbit]
    by_cases h : i = 8 <;> simp [h]

end Bits

/-- R17, R156: what a command of a function that configuration requests reach answers. -/
theorem exec_writes {f : FnId} {s : State} (h : s.cfgReaches f = true) :
    exec (.busMasterEnableSet f) s = .next (s.writeBme f true).woken ∧
    exec (.busMasterEnableClear f) s = .next (s.writeBme f false).woken ∧
    (∀ v, exec (.memorySpaceEnableWrite f v) s = .next (s.writeMse f v).woken) ∧
    (∀ v, exec (.interruptDisableWrite f v) s = .next (s.writeIntd f v).woken) ∧
    (∀ p, exec (.powerStateWrite f p) s = .next (s.writePower f p).woken) ∧
    (∀ v, exec (.ltrMechanismEnableWrite f v) s = .next (s.writeLtr f v).woken) ∧
    (∀ v, exec (.tenBitTagEnableWrite f v) s = .next (s.writeTenBit f v).woken) ∧
    (∀ v, exec (.extendedTagEnableWrite f v) s = .next (s.writeExtTag f v).woken) :=
  ⟨if_pos h, if_pos h, fun _ => if_pos h, fun _ => if_pos h, fun _ => if_pos h, fun _ => if_pos h, fun _ => if_pos h, fun _ => if_pos h⟩

/-- Settles O33: a bit is one change of its function, after which others are only told of it (`Told`); Bus Master Enable also lets
requests land or cuts unsent work (`bmeCut_txq`). -/
theorem fieldWrites : Obligations.FieldWrites := by
  unfold Obligations.FieldWrites
  intro f s hreach
  obtain ⟨hset, hclear, hmse, hintd, hpower, hltr, htenBit, hextTag⟩ := exec_writes hreach
  refine ⟨?_, fun hbme => ?_, fun v => ?_, fun v => ?_, fun p => ?_, fun v => ⟨_, hltr v, writeLtr_woken s f v⟩, htenBit, fun v => ?_⟩
  · have hstand := writeBme_true_standing (s := s) (f := f)
    have hun := writeBme_true_untouched (s := s) (f := f)
    exact ⟨_, hset, steady_of_written hstand, writeBme_true_of_none, hun.txq, hun.reqs, standing_of_written hstand⟩
  · have hstand := writeBme_false_standing hbme
    have hun := untouched_writeBme_clear hbme
    refine ⟨_, hclear, steady_of_written hstand, fun h hf => hun.txq.trans (bmeCut_txq hf), fun hf => ?_, standing_of_written hstand⟩
    have htxq := hun.txq
    have hsampler := hun.sampler
    rw [bmeCut_zero hf] at htxq hsampler
    exact ⟨htxq.trans (dropRecords_txq _), congrArg Sampler.queue hsampler,
      (congrArg Sampler.skipped hsampler).trans (dropRecords_skipped (s.modFn f (FnCfg.setBme false)))⟩
  · have htold := told_writeMse s f v
    exact ⟨_, hmse v, htold.fns, htold.txq, writeMse_items s f v, htold.standing_written⟩
  · refine ⟨_, hintd v, ?_⟩
    by_cases hf : f.val = 0
    · rw [writeIntd_zero s f v hf]
      exact ⟨(if_pos hf).symm, rfl, rfl, rfl, rfl, rfl⟩
    · have htold := told_writeIntd s f v hf
      exact ⟨htold.fns.trans (if_neg hf).symm, htold.txq, htold.irq, htold.service, htold.slots, htold.standing_written⟩
  · have htold := told_writePower s f p
    exact ⟨_, hpower p, htold.fns, htold.txq, htold.irq, htold.service, htold.slots, htold.standing_written⟩
  · refine ⟨_, hextTag v, ?_, fun i hi => ?_, ?_⟩
    · rw [woken_fn, State.writeExtTag, fn_modFn_self, extTag_bits, if_pos rfl]
    · rw [woken_fn, State.writeExtTag, fn_modFn_self, extTag_bits, if_neg hi]
    · rw [woken_fn, State.writeExtTag, fn_modFn_self]
      rfl

end Sys2Proof.Machine
end

-- ==== Proofs of 04_supplies_domains_first_second: domains ====
section
/-! A domain reaches ON, falls asleep and ends OFF or RETAINED (R95 to R101, R118, R121, R123, R130): what the end of a wake leaves,
the work it starts and the work that stays back, the fall of a lane the link needs no longer, and the two ends of a sleep. -/

namespace Sys2Proof.Machine

open Sys2Proof

/-! ### What ticks leave of the parts a wake reads -/

/-- The parts of a state that ticks leave: the link but for CLKREQ_N's release, the ledger but for LEDGER_N, and what those
parts stand on. -/
structure Lasting where
  mode : Mode
  cfg : GlobalCfg
  globals : Vector Ball 180
  stone : List Host.Cell
  items : Items
  tests : Vector TestLane 32
  ledger : Ledger
  link : HostLink

def State.lasting (s : State) : Lasting :=
  { mode := s.mode, cfg := s.cfg, globals := s.straps.globals, stone := s.stone, items := s.items, tests := s.tests
    ledger := { s.ledger with low := false, lowSeen := false }, link := { s.link with clkreqReleased := false } }

theorem tick_lasting (s : State) : s.tick.lasting = s.lasting := by
  cases h : s.running
  · rw [tick_of_not_running h]
  · rw [tick_eq h]
    rfl

theorem advanceTo_lasting (s : State) (t : Tally) : (s.advanceTo t).lasting = s.lasting :=
  advanceTo_eq State.lasting tick_lasting (fun _ _ => rfl) s t

/-! ### The lanes the link needs -/

/-- R326: what makes a lane one under test; its run and its checker are left out. -/
def TestLane.role (x : TestLane) : Bool × Nat × Nat := (x.valid, x.pattern, x.loop)

theorem underTest_of_role {x y : TestLane} (h : x.role = y.role) (m : Mode) : x.underTest m = y.underTest m := by
  obtain ⟨hvalid, hpattern, hloop⟩ : x.valid = y.valid ∧ x.pattern = y.pattern ∧ x.loop = y.loop := by simpa [TestLane.role] using h
  rw [TestLane.underTest, TestLane.underTest, hvalid, hpattern, hloop]

/-- R123, R130: the mode, the settings, the link and the tests say which lanes the link needs. -/
theorem laneNeeded_congr {s t : State} (hmode : t.mode = s.mode) (hcfg : t.cfg = s.cfg) (hst : t.link.st = s.link.st)
    (hwidth : t.link.width = s.link.width) (hreversed : t.link.reversed = s.link.reversed)
    (hrole : ∀ l, (t.test l).role = (s.test l).role) (d : DomainId) : t.laneNeeded d = s.laneNeeded d := by
  have hunder : ∀ l, (t.test l).underTest s.mode = (s.test l).underTest s.mode := fun l => underTest_of_role (hrole l) _
  have hvalid : ∀ l, (t.test l).valid = (s.test l).valid := fun l => congrArg Prod.fst (hrole l)
  have hlane : ∀ i, t.linkLane i = s.linkLane i := fun i => by rw [State.linkLane, State.linkLane, hmode, hunder, hvalid]
  have hmax : t.maxWidth = s.maxWidth := by rw [State.maxWidth, State.maxWidth, hmode, hcfg]
  have hlanes : t.linkLanes = s.linkLanes := by simp only [State.linkLanes, hmax, hlane]
  have htrained : t.trainedLanes = s.trainedLanes := by
    simp only [State.trainedLanes, State.physical, hmode, hwidth, hreversed]
  simp only [State.laneNeeded, hmode, hunder, hst, hlanes, htrained]

theorem laneNeeded_of_lane {d : DomainId} (h : 32 ≤ d.val) (s : State) : s.laneNeeded d = true := if_neg (by omega)

/-! ### What the end of a wake leaves -/

/-- From `s` to `t` only domains, lanes, the runs of tests, the clear, the strap work paid for and work on its way have changed. -/
structure Wakes (s t : State) : Prop where
  standing : t.standing = { s.standing with
    doms := t.doms, lanes := t.lanes, tests := t.tests, island := t.island, straps := t.straps }
  globals : t.straps.globals = s.straps.globals
  role : ∀ l, (t.test l).role = (s.test l).role

section Wakes

variable {s t u : State}

theorem Wakes.refl (s : State) : Wakes s s := ⟨rfl, rfl, fun _ => rfl⟩

theorem Wakes.trans (h : Wakes s t) (k : Wakes t u) : Wakes s u :=
  ⟨by rw [k.standing, h.standing], k.globals.trans h.globals, fun l => (k.role l).trans (h.role l)⟩

theorem Wakes.forList {α : Type} (xs : List α) (f : α → State → State) (h : ∀ x s, Wakes s (f x s)) (s : State) :
    Wakes s (forList xs f s) := by
  induction xs generalizing s with
  | nil => exact .refl s
  | cons x xs ih => exact (h x s).trans (ih (f x s))

theorem Wakes.clk (h : Wakes s t) : t.clk = s.clk := congrArg Standing.clk h.standing
theorem Wakes.mode (h : Wakes s t) : t.mode = s.mode := congrArg Standing.mode h.standing
theorem Wakes.cfg (h : Wakes s t) : t.cfg = s.cfg := congrArg Standing.cfg h.standing
theorem Wakes.ledger (h : Wakes s t) : t.ledger = s.ledger := congrArg Standing.ledger h.standing
theorem Wakes.link (h : Wakes s t) : t.link = s.link := congrArg Standing.link h.standing
theorem Wakes.dll (h : Wakes s t) : t.dll = s.dll := congrArg Standing.dll h.standing
theorem Wakes.stone (h : Wakes s t) : t.stone = s.stone := congrArg Standing.stone h.standing

theorem Wakes.account (h : Wakes s t) : t.account = s.account := by rw [State.account, h.ledger, State.account]

theorem Wakes.now (h : Wakes s t) : t.now = s.now := by rw [State.now, h.clk, State.now]

theorem Wakes.laneNeeded (h : Wakes s t) (d : DomainId) : t.laneNeeded d = s.laneNeeded d := by
  have hlink := h.link
  exact laneNeeded_congr h.mode h.cfg (by rw [hlink]) (by rw [hlink]) (by rw [hlink]) h.role d

end Wakes

/-! ### A receiver lane and the bellows engine -/

section Lanes

variable (s : State) (d : DomainId) (l : LaneId)

theorem wakes_setDom (x : DomState) : Wakes s (s.setDom d x) := ⟨rfl, rfl, fun _ => rfl⟩
theorem wakes_modLane (g : Lane → Lane) : Wakes s (s.modLane l g) := ⟨rfl, rfl, fun _ => rfl⟩

theorem wakes_wakeBellows : Wakes s s.wakeBellows := by
  unfold State.wakeBellows
  split
  · exact wakes_setDom s _ _
  · exact .refl s

/-- R131, R135: a lane that comes ON is the bellows engine's wake and one lane's change. -/
theorem laneOn_eq : ∃ g, s.laneOn l = s.wakeBellows.modLane l g := by
  unfold State.laneOn
  dsimp only
  (repeat' split) <;> exact ⟨_, rfl⟩

theorem wakes_laneOn : Wakes s (s.laneOn l) := by
  obtain ⟨g, hg⟩ := laneOn_eq s l
  rw [hg]
  exact (wakes_wakeBellows s).trans (wakes_modLane _ l g)

variable {s d l} {e : DomainId}

theorem setDom_dom_ne (x : DomState) (h : e ≠ d) : (s.setDom d x).dom e = s.dom e := by rw [dom_setDom, if_neg h]

theorem ne_bellows (h : e.val ≠ 160) : e ≠ domOf 160 := fun he => h (congrArg Fin.val he)

theorem wakeBellows_dom (h : e.val ≠ 160) : s.wakeBellows.dom e = s.dom e := by
  unfold State.wakeBellows
  split
  · exact setDom_dom_ne _ (ne_bellows h)
  · rfl

theorem wakeBellows_items : s.wakeBellows.items = s.items := by
  unfold State.wakeBellows
  split <;> rfl

theorem laneOn_dom (h : e.val ≠ 160) : (s.laneOn l).dom e = s.dom e := by
  obtain ⟨g, hg⟩ := laneOn_eq s l
  rw [hg]
  exact wakeBellows_dom h

theorem laneOn_items : (s.laneOn l).items = s.items := by
  obtain ⟨g, hg⟩ := laneOn_eq s l
  rw [hg]
  exact wakeBellows_items

/-- R96: a receiver lane's domain is not the bellows engine's. -/
theorem rxLane_none (h : 66 ≤ d.val) : rxLane d = none := by
  rw [rxLane, if_neg (by omega), if_neg (by omega), if_neg (by omega)]

theorem val_laneDom_ne (l : LaneId) : laneDom l ≠ domOf 160 := by
  intro h
  have hval := congrArg Fin.val h
  have hl := l.isLt
  unfold laneDom at hval
  (repeat' split at hval) <;> simp only [domOf] at hval <;> omega

end Lanes

/-! ### Work that starts -/

section Work

variable (s : State)

theorem wakes_startWork (w : Work) (t : Tally) : Wakes s (s.startWork w t) := by
  cases w with
  | change c =>
    have h := standing_pushChange s c t
    refine ⟨h.trans ?_, congrArg (fun x : Standing => x.straps.globals) h, fun l => congrArg (fun x : Standing => (vget x.tests l).role) h⟩
    rw [← h]
    rfl
  | _ => exact ⟨rfl, rfl, fun _ => rfl⟩

/-- R97: work that starts is no item any more, and changes no domain. -/
theorem startWork_items (w : Work) (t : Tally) : (s.startWork w t).items = s.items := by
  cases w with
  | change c =>
    show (s.pushChange c t).items = s.items
    unfold State.pushChange
    dsimp only
    split <;> rfl
  | _ => rfl

theorem startWork_doms (w : Work) (t : Tally) : (s.startWork w t).doms = s.doms := by
  cases w with
  | change c => exact congrArg Standing.doms (standing_pushChange s c t)
  | _ => rfl

/-- R97: the work of paid items starts, in their order. -/
def State.startItems (s : State) (l : List Item) : State := forList l (fun it s => s.startWork it.work (tickPlus s.now 1)) s

theorem wakes_startItems (l : List Item) : Wakes s (s.startItems l) :=
  .forList l (fun it s => s.startWork it.work (tickPlus s.now 1)) (fun it s => wakes_startWork s it.work _) s

theorem startItems_doms (l : List Item) : (s.startItems l).doms = s.doms :=
  forList_eq State.doms l _ (fun it s => startWork_doms s it.work _) s

theorem startItems_items (l : List Item) : (s.startItems l).items = s.items :=
  forList_eq State.items l _ (fun it s => startWork_items s it.work _) s

/-- R121: the admitted work that may not start yet. -/
def State.keepWaiting (s : State) : State :=
  { s with items := { s.items with admitted := s.items.admitted.filter fun it => !s.mayStart it } }

theorem startReady_eq : s.startReady = s.keepWaiting.startItems (s.items.admitted.filter s.mayStart) := rfl

theorem wakes_keepWaiting : Wakes s s.keepWaiting := ⟨rfl, rfl, fun _ => rfl⟩

theorem wakes_startReady : Wakes s s.startReady := (wakes_keepWaiting s).trans (wakes_startItems _ _)

theorem startReady_doms : s.startReady.doms = s.doms := by
  rw [startReady_eq, startItems_doms]
  rfl

theorem startReady_admitted : s.startReady.items.admitted = s.items.admitted.filter fun it => !s.mayStart it := by
  rw [startReady_eq, startItems_items]
  rfl

theorem wakes_setTests (v : Vector TestLane 32) (h : ∀ l, (vget v l).role = (s.test l).role) : Wakes s { s with tests := v } :=
  ⟨rfl, rfl, h⟩

theorem wakes_startTests : Wakes s s.startTests := by
  refine wakes_setTests s _ fun l => ?_
  rw [vget_vmap]
  split <;> rfl

theorem startTests_doms : s.startTests.doms = s.doms := by
  unfold State.startTests
  rfl

theorem startTests_items : s.startTests.items = s.items := by
  unfold State.startTests
  rfl

variable {s} {it : Item}

/-- R97, R121: work does not start while a domain of its path is not ON, or earlier work of its source keeps it back. -/
theorem mayStart_of_pathOff (h : s.pathOn it.path = false) : s.mayStart it = false := by rw [State.mayStart, h, Bool.false_and]

theorem keptBack_of_pathOn (h : s.mayStart it = false) (hpath : s.pathOn it.path = true) :
    ∃ x ∈ s.items.admitted, s.pathOn x.path = false ∧ x.work.keepsBack it.work = true := by
  rw [State.mayStart, hpath, Bool.true_and, List.all_eq_false] at h
  obtain ⟨x, hx, hback⟩ := h
  rw [Bool.not_eq_true, Bool.or_eq_false_iff, Bool.not_eq_false'] at hback
  obtain ⟨hoff, hkeeps⟩ := hback
  exact ⟨x, (List.takeWhile_prefix _).subset hx, hoff, hkeeps⟩

end Work

/-! ### The domain is ON -/

section DomainUp

variable (s : State) (d : DomainId)

/-- R97, R135: the domain is ON, and where it is a receiver lane's that lane with it. -/
def State.laneUp (s : State) (d : DomainId) : State :=
  let s1 := { (s.setDom d (.on s.now)).woken with upNow := d :: s.upNow }
  match rxLane d with
  | some l => s1.laneOn l
  | none => s1

theorem domainUp_eq : s.domainUp d = (s.laneUp d).startReady.startTests := rfl

theorem wakes_laneUp : Wakes s (s.laneUp d) := by
  have hon : Wakes s { (s.setDom d (.on s.now)).woken with upNow := d :: s.upNow } := ⟨rfl, rfl, fun _ => rfl⟩
  unfold State.laneUp
  dsimp only
  split
  · exact hon.trans (wakes_laneOn _ _)
  · exact hon

theorem wakes_domainUp : Wakes s (s.domainUp d) :=
  ((wakes_laneUp s d).trans (wakes_startReady _)).trans (wakes_startTests _)

theorem laneUp_items : (s.laneUp d).items = s.items := by
  unfold State.laneUp
  dsimp only
  split
  · exact laneOn_items
  · rfl

theorem laneUp_dom_self : (s.laneUp d).dom d = .on s.now := by
  unfold State.laneUp
  dsimp only
  split
  · next l h =>
    have hd : d.val ≠ 160 := fun hd => absurd ((rxLane_none (by omega)).symm.trans h) nofun
    exact (laneOn_dom hd).trans (dom_setDom_self s d _)
  · exact dom_setDom_self s d _

theorem laneUp_dom_ne {e : DomainId} (he : e ≠ d) (h160 : e.val ≠ 160) : (s.laneUp d).dom e = s.dom e := by
  unfold State.laneUp
  dsimp only
  split
  · exact (laneOn_dom h160).trans (setDom_dom_ne _ he)
  · exact setDom_dom_ne _ he

theorem domainUp_doms : (s.domainUp d).doms = (s.laneUp d).doms := by
  rw [domainUp_eq, startTests_doms, startReady_doms]

theorem domainUp_dom (e : DomainId) : (s.domainUp d).dom e = (s.laneUp d).dom e :=
  congrArg (fun v => vget v e) (domainUp_doms s d)

theorem domainUp_pathOn (path : List DomainId) : (s.domainUp d).pathOn path = (s.laneUp d).pathOn path := by
  simp only [State.pathOn, domainUp_dom]

/-- R97, R121: the admitted work left is the work that may not start. -/
theorem mem_domainUp (it : Item) :
    it ∈ (s.domainUp d).items.admitted ↔ it ∈ s.items.admitted ∧ (s.laneUp d).mayStart it = false := by
  rw [domainUp_eq, startTests_items, startReady_admitted, laneUp_items, List.mem_filter, Bool.not_eq_true']

theorem domainUp_waits {it : Item} (hit : it ∈ s.items.admitted) (hpath : (s.domainUp d).pathOn it.path = false) :
    it ∈ (s.domainUp d).items.admitted :=
  (mem_domainUp s d it).mpr ⟨hit, mayStart_of_pathOff (by rwa [← domainUp_pathOn])⟩

theorem domainUp_keptBack {it : Item} (hit : it ∈ (s.domainUp d).items.admitted) (hpath : (s.domainUp d).pathOn it.path = true) :
    ∃ x ∈ (s.domainUp d).items.admitted, (s.domainUp d).pathOn x.path = false ∧ x.work.keepsBack it.work = true := by
  obtain ⟨-, hstays⟩ := (mem_domainUp s d it).mp hit
  rw [domainUp_pathOn] at hpath
  obtain ⟨x, hx, hoff, hkeeps⟩ := keptBack_of_pathOn hstays hpath
  rw [laneUp_items] at hx
  rw [← domainUp_pathOn] at hoff
  exact ⟨x, domainUp_waits s d hx hoff, hoff, hkeeps⟩

end DomainUp

/-! ### The link needs the lane no longer -/

section Drop

variable (s : State) (d : DomainId)

theorem wakes_sleepDom : Wakes s (s.sleepDom d) := by
  unfold State.sleepDom
  dsimp only
  split
  · exact ⟨rfl, rfl, fun _ => rfl⟩
  · exact wakes_setDom s d _

theorem wakes_bellowsPower : Wakes s s.bellowsPower := by
  unfold State.bellowsPower
  split
  · exact .refl s
  · exact wakes_setDom s _ _

theorem wakes_dropUnneeded : Wakes s (s.dropUnneeded d) := by
  unfold State.dropUnneeded
  split
  · exact .refl s
  · exact (wakes_sleepDom s d).trans (wakes_bellowsPower _)

theorem sleepDom_dom (e : DomainId) : (s.sleepDom d).dom e = if e = d then (s.dom d).fall s.now else s.dom e := by
  unfold State.sleepDom
  dsimp only
  split
  · exact dom_setDom s d e _
  · exact dom_setDom s d e _

theorem bellowsPower_dom {e : DomainId} (h : e.val ≠ 160) : s.bellowsPower.dom e = s.dom e := by
  unfold State.bellowsPower
  split
  · rfl
  · exact setDom_dom_ne _ (ne_bellows h)

theorem dropUnneeded_of_needed (h : s.laneNeeded d = true) : s.dropUnneeded d = s := if_pos h

theorem dropUnneeded_dom_self (h : s.laneNeeded d = false) : (s.dropUnneeded d).dom d = (s.dom d).fall s.now := by
  have hd : d.val ≠ 160 := fun hd => absurd ((laneNeeded_of_lane (by omega) s).symm.trans h) (by decide)
  rw [State.dropUnneeded, if_neg (by rw [h]; decide), bellowsPower_dom _ hd, sleepDom_dom, if_pos rfl]

theorem dropUnneeded_dom_ne {e : DomainId} (he : e ≠ d) (h160 : e.val ≠ 160) : (s.dropUnneeded d).dom e = s.dom e := by
  unfold State.dropUnneeded
  split
  · rfl
  · rw [bellowsPower_dom _ h160, sleepDom_dom, if_neg he]

theorem dropUnneeded_items : (s.dropUnneeded d).items = s.items := by
  unfold State.dropUnneeded State.bellowsPower State.sleepDom
  dsimp only
  (repeat' split) <;> rfl

end Drop

/-! ### The end of a Recovery -/

/-- The parts of a state that the end of a Recovery leaves: all but the link, the lanes, the LTR's part of the ledger and the TLPs. -/
structure Recovered where
  clk : Clock
  mode : Mode
  globals : Vector Ball 180
  stone : List Host.Cell
  doms : Vector DomState 162
  items : Items
  dll : Dll
  account : Account

def State.recovered (s : State) : Recovered :=
  { clk := s.clk, mode := s.mode, globals := s.straps.globals, stone := s.stone, doms := s.doms, items := s.items, dll := s.dll
    account := s.account }

section Recovery

variable (s : State)

theorem deferredLtr_recovered : s.deferredLtr.recovered = s.recovered := by
  unfold State.deferredLtr
  dsimp only
  (repeat' split) <;> rfl

theorem deferredLtr_of_none (h : s.ledger.ltrPending = false) : s.deferredLtr = s := if_neg (by rw [h]; decide)

/-- R130, R131: the link is in L0, and lanes with settings that have tracked track again. -/
def State.linkBack (s : State) : State :=
  forList s.trainedLanes (fun i s => s.modLane (hostLane i) Lane.recover)
    { s with link := { s.link with st := .l0, keeper := false, fcTick := s.now } }

theorem linkBack_recovered : s.linkBack.recovered = s.recovered :=
  forList_eq State.recovered s.trainedLanes (fun i s => s.modLane (hostLane i) Lane.recover) (fun _ _ => rfl) _

theorem linkBack_ledger : s.linkBack.ledger = s.ledger :=
  forList_eq State.ledger s.trainedLanes (fun i s => s.modLane (hostLane i) Lane.recover) (fun _ _ => rfl) _

theorem endRecovery_cases : s.endRecovery = s ∨ s.endRecovery = s.linkBack.deferredLtr := by
  unfold State.endRecovery
  split
  · exact .inr rfl
  · exact .inl rfl

theorem endRecovery_of_not (h : s.link.st ≠ .recovery) : s.endRecovery = s := if_neg fun hc => h hc.1

theorem endRecovery_recovered : s.endRecovery.recovered = s.recovered := by
  obtain h | h := endRecovery_cases s
  · rw [h]
  · rw [h, deferredLtr_recovered, linkBack_recovered]

/-- R118: with no message put off the ledger stands. -/
theorem endRecovery_ledger (hltr : s.link.st ≠ .recovery ∨ s.ledger.ltrPending = false) : s.endRecovery.ledger = s.ledger := by
  obtain hst | hnone := hltr
  · rw [endRecovery_of_not s hst]
  obtain h | h := endRecovery_cases s
  · rw [h]
  · rw [h, deferredLtr_of_none _ (by rw [linkBack_ledger, hnone]), linkBack_ledger]

end Recovery

/-! ### The commands -/

/-- R97: the domain has come ON, unless the link needs it no longer. -/
def State.wakeDone (s : State) (d : DomainId) : State := (s.domainUp d).dropUnneeded d

section Wake

variable (s : State) (d : DomainId)

theorem wakes_wakeDone : Wakes s (s.wakeDone d) := (wakes_domainUp s d).trans (wakes_dropUnneeded _ d)

theorem wakeDone_items : (s.wakeDone d).items = (s.domainUp d).items := dropUnneeded_items _ d

theorem domainUp_dom_self : (s.domainUp d).dom d = .on s.now := (domainUp_dom s d d).trans (laneUp_dom_self s d)

theorem wakeDone_of_needed (h : s.laneNeeded d = true) : s.wakeDone d = s.domainUp d :=
  dropUnneeded_of_needed _ d (((wakes_domainUp s d).laneNeeded d).trans h)

theorem wakeDone_dom_needed (h : s.laneNeeded d = true) : (s.wakeDone d).dom d = .on s.now := by
  rw [wakeDone_of_needed s d h, domainUp_dom_self]

theorem wakeDone_dom_unneeded (h : s.laneNeeded d = false) : (s.wakeDone d).dom d = .goingDown (tickPlus s.now 8) := by
  have hup := wakes_domainUp s d
  rw [State.wakeDone, dropUnneeded_dom_self _ d ((hup.laneNeeded d).trans h), domainUp_dom_self, hup.now]
  rfl

theorem wakeDone_dom_ne {e : DomainId} (he : e ≠ d) (h160 : e.val ≠ 160) : (s.wakeDone d).dom e = s.dom e := by
  rw [State.wakeDone, dropUnneeded_dom_ne _ d he h160, domainUp_dom, laneUp_dom_ne s d he h160]

theorem exec_domainWakeComplete {s : State} {d : DomainId} {done : Tally} (hrun : s.running = true) (hdom : s.dom d = .waking done) :
    exec (.domainWakeComplete d) s = .next ((s.advanceTo done).wakeDone d).endRecovery := by
  show execDomainWakeComplete d s = _
  unfold execDomainWakeComplete
  rw [hdom]
  exact if_pos hrun

end Wake

section Sleep

variable (s : State) (d : DomainId)

/-- R98, R99: a domain whose idle period ends falls only if nothing has used it. -/
theorem exec_domainIdleExpiry_falls {s : State} {d : DomainId} {last : Tally} {p : Nat} (hrun : s.running = true) (hdom : s.dom d = .on last)
    (hp : Config.idlePeriod d.val = some p) (hidle : s.domBusy d = false)
    (hlast : (s.advanceTo (tickPlus last (p + 1))).dom d = .on last)
    (hstill : (s.advanceTo (tickPlus last (p + 1))).domBusy d = false) :
    exec (.domainIdleExpiry d) s = .next ((s.advanceTo (tickPlus last (p + 1))).setDom d
      (.goingDown (tickPlus (s.advanceTo (tickPlus last (p + 1))).now 8))) := by
  have hrow : execDomainIdleExpiry d s = .next (if (s.advanceTo (tickPlus last (p + 1))).dom d = .on last ∧
      !(s.advanceTo (tickPlus last (p + 1))).domBusy d then (s.advanceTo (tickPlus last (p + 1))).setDom d
        (.goingDown (tickPlus (s.advanceTo (tickPlus last (p + 1))).now Config.goingDownTicks))
      else s.advanceTo (tickPlus last (p + 1))) := by
    unfold execDomainIdleExpiry
    rw [hdom, hp]
    exact if_pos ⟨hrun, by rw [hidle]; rfl⟩
  exact hrow.trans (congrArg _ (if_pos ⟨hlast, by rw [hstill]; rfl⟩))

theorem exec_domainIdleExpiry_stays (h : Config.idlePeriod d.val = none ∨ s.domBusy d = true) : exec (.domainIdleExpiry d) s = .next s := by
  show execDomainIdleExpiry d s = _
  unfold execDomainIdleExpiry
  split
  · next hp =>
    have hbusy : s.domBusy d = true := h.resolve_left (by rw [hp]; nofun)
    exact if_neg fun hc => absurd hc.2 (by rw [hbusy]; decide)
  · rfl

/-- R88, R101: only the domain changes, and the clear mark where the mode gives a bank up. -/
theorem domDown_dom (e : DomainId) : (s.domDown d).dom e =
    if e = d then (if 140 ≤ d.val ∧ d.val < 156 ∧ s.mode.usable d.val then .retained else .off) else s.dom e := by
  unfold State.domDown
  split
  · next hbank =>
    obtain ⟨hlo, hhi⟩ := hbank
    split
    · next husable => rw [dom_setDom, if_pos (⟨hlo, hhi, husable⟩ : 140 ≤ d.val ∧ d.val < 156 ∧ _)]
    · next husable => rw [if_neg fun h : 140 ≤ d.val ∧ d.val < 156 ∧ _ => husable h.2.2]; exact dom_setDom s d e _
  · next hbank => rw [dom_setDom, if_neg fun h : 140 ≤ d.val ∧ d.val < 156 ∧ _ => hbank ⟨h.1, h.2.1⟩]

theorem domDown_standing : (s.domDown d).standing =
    { s.standing with doms := (s.domDown d).doms, island := (s.domDown d).island } := by
  unfold State.domDown
  (repeat' split) <;> rfl

theorem bellowsNeed_standing : s.bellowsNeed.standing = { s.standing with doms := s.bellowsNeed.doms } := by
  unfold State.bellowsNeed State.wakeBellows
  (repeat' split) <;> rfl

theorem bellowsNeed_dom_ne {e : DomainId} (h : e.val ≠ 160) : s.bellowsNeed.dom e = s.dom e := by
  unfold State.bellowsNeed
  split
  · exact wakeBellows_dom h
  · rfl

/-- R96: an engine that is OFF wakes for a receiver lane that is ON. -/
theorem bellowsNeed_dom_self {s : State} (h : s.dom (domOf 160) = .off) : s.bellowsNeed.dom (domOf 160) =
    if ∃ l : LaneId, (s.dom (laneDom l)).isOn = true then .waking (tickPlus s.now (Config.wakeLatency 160)) else .off := by
  have hany : ((List.finRange 32).any fun l => (s.dom (laneDom l)).isOn) = true ↔ ∃ l : LaneId, (s.dom (laneDom l)).isOn = true := by
    simp only [List.any_eq_true, List.mem_finRange, true_and]
  unfold State.bellowsNeed
  by_cases hon : ∃ l : LaneId, (s.dom (laneDom l)).isOn = true
  · rw [if_pos (hany.mpr hon), if_pos hon, State.wakeBellows, h]
    exact dom_setDom_self s _ _
  · rw [if_neg (mt hany.mp hon), if_neg hon, h]

/-- R95, R96, R100: the domain is down, and the bellows engine up again where a receiver lane needs it. -/
def State.sleepDone (s : State) (d : DomainId) : State := if d.val = 160 then (s.domDown d).bellowsNeed else s.domDown d

theorem sleepDone_standing : (s.sleepDone d).standing =
    { s.standing with doms := (s.sleepDone d).doms, island := (s.sleepDone d).island } := by
  have hdown := domDown_standing s d
  unfold State.sleepDone
  split
  · have hneed := bellowsNeed_standing (s.domDown d)
    have hisland : (s.domDown d).bellowsNeed.island = (s.domDown d).island := congrArg Standing.island hneed
    rw [hneed, hdown, hisland]
  · exact hdown

theorem sleepDone_dom_ne {e : DomainId} (he : e ≠ d) : (s.sleepDone d).dom e = s.dom e := by
  unfold State.sleepDone
  split
  · next hd => rw [bellowsNeed_dom_ne _ fun h => he (Fin.ext (h.trans hd.symm)), domDown_dom, if_neg he]
  · rw [domDown_dom, if_neg he]

theorem sleepDone_dom_self (hd : d.val ≠ 160) :
    (s.sleepDone d).dom d = if 140 ≤ d.val ∧ d.val < 156 ∧ s.mode.usable d.val then .retained else .off := by
  rw [State.sleepDone, if_neg hd, domDown_dom, if_pos rfl]

theorem sleepDone_dom_bellows (hd : d.val = 160) : (s.sleepDone d).dom d =
    if ∃ l : LaneId, (s.dom (laneDom l)).isOn = true then .waking (tickPlus s.now (Config.wakeLatency 160)) else .off := by
  obtain rfl : d = domOf 160 := Fin.ext hd
  have hlane : ∀ l, (s.domDown (domOf 160)).dom (laneDom l) = s.dom (laneDom l) := fun l => by
    rw [domDown_dom, if_neg (val_laneDom_ne l)]
  have hoff : (s.domDown (domOf 160)).dom (domOf 160) = .off := by
    rw [domDown_dom, if_pos rfl]
    exact if_neg fun h => absurd h.2.1 (by decide)
  have hnow : (s.domDown (domOf 160)).now = s.now := congrArg (fun x : Standing => x.clk.tally) (domDown_standing s (domOf 160))
  rw [State.sleepDone, if_pos hd, bellowsNeed_dom_self hoff, hnow]
  simp only [hlane]

theorem exec_goingDownEnd {s : State} {d : DomainId} {done : Tally} (hrun : s.running = true) (hdom : s.dom d = .goingDown done) :
    exec (.goingDownEnd d) s = .next ((s.advanceTo done).sleepDone d).woken := by
  show execGoingDownEnd d s = _
  unfold execGoingDownEnd
  rw [hdom]
  exact if_pos hrun

end Sleep

/-- Settles O18: the end of a wake is the domain's rise, the fall of a lane not needed (`Wakes`), and the end of a Recovery
(`endRecovery_recovered`); the ends of a sleep are one equation each. -/
theorem domainsWakeAndSleep : Obligations.DomainsWakeAndSleep := by
  unfold Obligations.DomainsWakeAndSleep
  refine ⟨fun d done s hrun hdom => ?_, ⟨fun d last s hrun hdom =>
    ⟨fun p hp hidle hlast hstill => exec_domainIdleExpiry_falls hrun hdom hp hidle hlast hstill, exec_domainIdleExpiry_stays s d⟩,
    fun d done s hrun hdom => ?_⟩⟩
  · have hlasting := advanceTo_lasting s done
    have hpaid := account_advanceTo s done
    have hexec := exec_domainWakeComplete hrun hdom
    generalize s.advanceTo done = a at hlasting hpaid hexec ⊢
    have hmode : a.mode = s.mode := congrArg Lasting.mode hlasting
    have hadmitted : a.items.admitted = s.items.admitted := congrArg (fun x : Lasting => x.items.admitted) hlasting
    have hst : a.link.st = s.link.st := congrArg (fun x : Lasting => x.link.st) hlasting
    have hneeded : a.laneNeeded d = s.laneNeeded d :=
      laneNeeded_congr hmode (congrArg Lasting.cfg hlasting) hst (congrArg (fun x : Lasting => x.link.width) hlasting)
        (congrArg (fun x : Lasting => x.link.reversed) hlasting) (fun l => congrArg (fun x : Lasting => (vget x.tests l).role) hlasting) d
    have hwakes := wakes_wakeDone a d
    have hend := endRecovery_recovered (a.wakeDone d)
    have hclk : (a.wakeDone d).endRecovery.clk = a.clk := (congrArg Recovered.clk hend).trans hwakes.clk
    have hnow : (a.wakeDone d).endRecovery.now = a.now := congrArg Clock.tally hclk
    have hdoms : ∀ e, (a.wakeDone d).endRecovery.dom e = (a.wakeDone d).dom e := fun e =>
      congrArg (fun x : Recovered => vget x.doms e) hend
    have hpath : ∀ path, (a.wakeDone d).endRecovery.pathOn path = (a.wakeDone d).pathOn path := fun path => by
      simp only [State.pathOn, hdoms]
    have hleft : (a.wakeDone d).endRecovery.items.admitted = (a.domainUp d).items.admitted :=
      (congrArg (fun x : Recovered => x.items.admitted) hend).trans (congrArg Items.admitted (wakeDone_items a d))
    have haccount : (a.wakeDone d).endRecovery.account = s.account :=
      ((congrArg Recovered.account hend).trans hwakes.account).trans hpaid
    refine ⟨_, hexec, hclk, fun h => ?_, fun h => ?_, fun h => laneNeeded_of_lane h s, fun e he h160 => ?_, ?_, ?_, ?_, ?_, fun h => ?_,
      fun it hit => ?_, fun _ h => ?_, ?_, fun h => ?_, ?_, ?_, ?_⟩
    · rw [hdoms, hnow, wakeDone_dom_needed a d (hneeded.trans h)]
    · rw [hdoms, hnow, wakeDone_dom_unneeded a d (hneeded.trans h)]
    · rw [hdoms, wakeDone_dom_ne a d he h160]
    · exact congrArg Account.st haccount
    · exact congrArg Account.balance haccount
    · exact congrArg Account.charged haccount
    · exact congrArg Account.windows haccount
    · refine (endRecovery_ledger _ ?_).trans hwakes.ledger
      rw [hwakes.link, hwakes.ledger, hst]
      exact h.imp_right (congrArg (fun x : Lasting => x.ledger.ltrPending) hlasting).trans
    · rw [hleft, mem_domainUp, hadmitted] at hit
      exact hit.1
    · simp only [hleft, hpath, ← hadmitted]
      rw [wakeDone_of_needed a d (hneeded.trans h)]
      exact ⟨fun it => domainUp_waits a d, fun it => domainUp_keptBack a d⟩
    · exact ((congrArg Recovered.stone hend).trans hwakes.stone).trans (congrArg Lasting.stone hlasting)
    · rw [endRecovery_of_not _ (by rw [hwakes.link, hst]; exact h), hwakes.link]
    · exact (congrArg Recovered.dll hend).trans hwakes.dll
    · exact ((congrArg Recovered.mode hend).trans hwakes.mode).trans hmode
    · exact ((congrArg Recovered.globals hend).trans hwakes.globals).trans (congrArg Lasting.globals hlasting)
  · have hlasting := advanceTo_lasting s done
    have hexec := exec_goingDownEnd hrun hdom
    generalize s.advanceTo done = a at hlasting hexec ⊢
    have hmode : a.mode = s.mode := congrArg Lasting.mode hlasting
    have hstanding := sleepDone_standing a d
    have hclk : (a.sleepDone d).woken.clk = a.clk := congrArg Standing.clk hstanding
    have hnow : (a.sleepDone d).woken.now = a.now := congrArg Clock.tally hclk
    refine ⟨_, hexec, hclk, fun hd => ?_, fun hd => ?_, fun e he => sleepDone_dom_ne a d he, ?_, ?_⟩
    · rw [woken_dom, sleepDone_dom_self a d hd, hmode]
    · rw [woken_dom, sleepDone_dom_bellows a d hd, hnow]
    · exact (congrArg Standing.stone hstanding).trans (congrArg Lasting.stone hlasting)
    · rw [standing_woken]
      exact hstanding

end Sys2Proof.Machine
end

-- ==== Proofs of 05_ember_ledger: messages from the host ====
section
/-! Messages from the host (R106, R153, R156): their credits return at once, and PME_Turn_Off leaves one item. -/

namespace Sys2Proof.Machine

open Sys2Proof

/-- R153: the credits of a posted TLP that needs no unit are taken and returned at once. -/
theorem passPosted_eq (s : State) (bytes : Nat) : s.passPosted bytes =
    { s with fc := { s.fc with alloc := { s.fc.alloc with ph := s.fc.alloc.ph + 1, pd := s.fc.alloc.pd + dataUnits bytes } } } := by
  simp [State.passPosted, Fc.take, Fc.giveBack]

/-- R109: an item enters its level once. -/
theorem insertItem_perm (it : Item) (l : List Item) : (insertItem it l).Perm (it :: l) := by
  induction l with
  | nil => exact .refl _
  | cons x xs ih =>
    unfold insertItem
    split
    · exact .refl _
    · exact (ih.cons x).trans (.swap it x xs)

theorem length_insertItem (it : Item) (l : List Item) : (insertItem it l).length = l.length + 1 := (insertItem_perm it l).length_eq

theorem mem_insertItem_self (it : Item) (l : List Item) : it ∈ insertItem it l := (insertItem_perm it l).mem_iff.mpr List.mem_cons_self

theorem exec_pmeTurnOff {s : State} (hup : s.hostLinkUp = true) : exec .pmeTurnOff s = .next s.pmeTurnOff := if_pos hup

theorem exec_setSlotPowerLimit {s : State} (hup : s.hostLinkUp = true) (v : Byte) :
    exec (.setSlotPowerLimit v) s = .next (s.passPosted 4).woken := if_pos hup

theorem exec_vendorDefinedType1 {s : State} (hup : s.hostLinkUp = true) :
    exec .vendorDefinedType1 s = .next (s.passPosted 0).woken := if_pos hup

/-- R106: the item of PME_TO_Ack, for the header received and its own. -/
def State.ackItem (s : State) : Item := s.newItem 16 [] (Config.costHeader + Config.costHeader) (.message (bareTlp .pmeToAck 0))

theorem pmeTurnOff_eq (s : State) : s.pmeTurnOff =
    { s.passPosted 0 with nextId := s.nextId + 1, wake := true, items := { s.items with host := insertItem s.ackItem s.items.host } } := rfl

/-- Settles O40: the credits come back in the tick they are taken (`passPosted_eq`), and PME_Turn_Off adds the item of its answer to
the host level (`pmeTurnOff_eq`). -/
theorem hostMessages : Obligations.HostMessages := by
  unfold Obligations.HostMessages
  refine fun s hup => ⟨⟨_, s.ackItem, exec_pmeTurnOff hup, ?_⟩, fun v => ⟨_, exec_setSlotPowerLimit hup v, ?_⟩,
    ⟨_, exec_vendorDefinedType1 hup, ?_⟩⟩
  · rw [pmeTurnOff_eq, passPosted_eq]
    exact ⟨length_insertItem _ _, mem_insertItem_self _ _, rfl, rfl, rfl, rfl, rfl, rfl, rfl, rfl, rfl, rfl, rfl, rfl, rfl⟩
  · rw [passPosted_eq]
    exact ⟨rfl, rfl⟩
  · rw [passPosted_eq]
    exact ⟨rfl, rfl⟩

end Sys2Proof.Machine
end

-- ==== Proofs of 05_ember_ledger: the first window ====
section
/-! The first ledger window (R102, R103, R105): what opens the ledger, and what the admission of its tick leaves alone. -/

namespace Sys2Proof.Machine

open Sys2Proof

/-! ### What admission leaves alone -/

/-- What stays as it is while items are admitted: the clock, the mode, the link, the hearthstone, and of the ledger what a window
start alone sets. -/
structure WindowPart where
  clk : Clock
  mode : Mode
  link : HostLink
  stone : List Host.Cell
  st : LedgerSt
  budget : Nat
  windows : Nat
  refills : Nat
  refillDue : Bool

def Standing.windowPart (x : Standing) : WindowPart :=
  { clk := x.clk, mode := x.mode, link := x.link, stone := x.stone, st := x.ledger.st, budget := x.ledger.budget
    windows := x.ledger.windows, refills := x.ledger.refills, refillDue := x.ledger.refillDue }

def State.windowPart (s : State) : WindowPart := s.standing.windowPart

theorem windowPart_of_standing {s t : State} (h : t.standing = s.standing) : t.windowPart = s.windowPart :=
  congrArg Standing.windowPart h

section

variable (s : State)

theorem wakePath_windowPart (path : List DomainId) : (s.wakePath path).windowPart = s.windowPart :=
  forList_eq State.windowPart path _ (fun d s => by split <;> rfl) s

theorem cyclePaid_windowPart (w : Work) : (s.cyclePaid w).windowPart = s.windowPart := by
  cases w with
  | piece p => exact windowPart_of_standing (standing_admitCycle s p)
  | _ => rfl

theorem startOrWait_windowPart (it : Item) : (s.startOrWait it).windowPart = s.windowPart := by
  unfold State.startOrWait
  split
  · cases it.work with
    | change c => exact windowPart_of_standing (standing_pushChange s c _)
    | _ => rfl
  · rfl

theorem admitOne_windowPart (it : Item) : (s.admitOne it).windowPart = s.windowPart := by
  rw [State.admitOne, startOrWait_windowPart, cyclePaid_windowPart, wakePath_windowPart]
  rfl

theorem stopAt_windowPart (b : Bar) : (s.stopAt b).windowPart = s.windowPart := by cases b <;> rfl

theorem admitService_windowPart (k : Nat) : (State.admitService k s).1.windowPart = s.windowPart := by
  induction k generalizing s with
  | zero => rfl
  | succ k ih =>
    unfold State.admitService
    (repeat' split)
    · rfl
    · exact stopAt_windowPart s _
    · exact (ih _).trans (admitOne_windowPart _ _)

theorem admitHost_windowPart (k : Nat) : (State.admitHost k s).1.windowPart = s.windowPart := by
  induction k generalizing s with
  | zero => rfl
  | succ k ih =>
    unfold State.admitHost
    (repeat' split)
    · rfl
    · exact stopAt_windowPart s _
    · exact (ih _).trans (admitOne_windowPart _ _)

theorem admitSlots_windowPart (k : Nat) : (State.admitSlots k s).1.windowPart = s.windowPart := by
  induction k generalizing s with
  | zero => rfl
  | succ k ih =>
    unfold State.admitSlots
    (repeat' split)
    · rfl
    · rfl
    · exact stopAt_windowPart s _
    · exact (ih _).trans (admitOne_windowPart _ _)

/-- R110: with no refill due, a tick's admission keeps all that a window start has set. -/
theorem admitAll_windowPart (h : s.ledger.refillDue = false) : s.admitAll.windowPart = s.windowPart := by
  have hrefill : s.refillIfDue = s := by rw [State.refillIfDue, h]; rfl
  have hservice := admitService_windowPart s s.waitingItems.length
  have hhost := (admitHost_windowPart _ s.waitingItems.length).trans hservice
  unfold State.admitAll State.admitTick
  rw [hrefill]
  dsimp only
  (repeat' split)
  · rfl
  · exact hservice
  · exact hhost
  · exact (admitSlots_windowPart _ _).trans hhost

theorem snapshot_windowPart : s.snapshot.windowPart = s.windowPart := rfl

theorem ltrAtWindow_windowPart : s.ltrAtWindow.windowPart = s.windowPart := by
  unfold State.ltrAtWindow
  (repeat' split) <;> rfl

/-- R102, R105: the ledger opens with its first window and its first refill, or is OFF with code 15. -/
theorem openLedger_windowPart : s.openLedger.windowPart =
    { s.windowPart with
      st := if s.cfg.budgetCode = 15 then .off else .opened
      budget := if s.cfg.budgetCode = 15 then 0 else (s.cfg.budgetCode.toNat + 1) * Config.budgetStep
      windows := 1, refills := 1, refillDue := false } := by
  unfold State.openLedger
  dsimp only
  split <;> rfl

end

/-! ### The statement -/

theorem exec_ledgerWindowStart_first {s : State} (hrun : s.running = true) (hpast : s.pastGroup0 = true)
    (hclosed : s.ledger.st = .closed) :
    exec .ledgerWindowStart s = .next s.atWindow.openLedger.admitAll.snapshot.ltrAtWindow := by
  have hclosed' : s.atWindow.ledger.st = .closed := (congrArg Account.st (atWindow_account s)).trans hclosed
  have hrefill : s.atWindow.openLedger.ledger.refillDue = false :=
    congrArg WindowPart.refillDue (openLedger_windowPart s.atWindow)
  show execLedgerWindowStart s = _
  rw [execLedgerWindowStart, if_pos ⟨hrun, hpast⟩]
  dsimp only
  rw [← State.atWindow, if_pos hclosed', hrefill]
  rfl

theorem exec_ledgerWindowStart_not {s : State} (h : s.running = false ∨ s.pastGroup0 = false) :
    exec .ledgerWindowStart s = .next s := by
  refine if_neg fun ⟨hrun, hpast⟩ => ?_
  rcases h with h | h
  · exact absurd (hrun.symm.trans h) (by decide)
  · exact absurd (hpast.symm.trans h) (by decide)

/-- Settles O15: the first window sets what `openLedger_windowPart` says, and the admission of its tick and the LTR message keep it
(`admitAll_windowPart`, `ltrAtWindow_windowPart`). -/
theorem firstWindow : Obligations.FirstWindow := by
  unfold Obligations.FirstWindow
  refine fun s hclosed => ⟨fun hrun hpast => ?_, exec_ledgerWindowStart_not⟩
  have hopen := openLedger_windowPart s.atWindow
  have hrefill : s.atWindow.openLedger.ledger.refillDue = false := congrArg WindowPart.refillDue hopen
  have hpart := (ltrAtWindow_windowPart _).trans ((snapshot_windowPart _).trans ((admitAll_windowPart _ hrefill).trans hopen))
  have hlasting : s.atWindow.lasting = s.lasting := advanceTo_lasting s _
  have hcfg : s.atWindow.cfg = s.cfg := congrArg Lasting.cfg hlasting
  rw [hcfg] at hpart
  refine ⟨_, exec_ledgerWindowStart_first hrun hpast hclosed, ?_⟩
  exact ⟨congrArg WindowPart.clk hpart, congrArg WindowPart.st hpart, congrArg WindowPart.budget hpart,
    congrArg WindowPart.windows hpart, congrArg WindowPart.refills hpart,
    (congrArg WindowPart.stone hpart).trans (congrArg Lasting.stone hlasting), congrArg WindowPart.link hpart,
    (congrArg WindowPart.mode hpart).trans (congrArg Lasting.mode hlasting)⟩

end Sys2Proof.Machine
end

-- ==== Proofs of 05_ember_ledger: requests that are served ====
section
/-! Host memory requests that are served (R107, R153, R160, R282, R310): the request received, one that faults, and the pieces of
one that is issued. -/

namespace Sys2Proof.Machine

open Sys2Proof

/-! ### An error recorded, and the Completer Abort -/

/-- R310: an error as `setUnc` records it. -/
theorem uncRecorded_setUnc_bit (c : FnCfg) (e : UncErr) (advisory : Bool) (hdr : Vector Dword 4) :
    uncRecorded c (c.setUnc e advisory hdr) e.bit advisory := by
  have hquiet : advisory = false ∨ c.fatal e = true → (advisory && !c.fatal e) = false := by
    rintro (h | h) <;> simp [h]
  refine ⟨fun h => ?_, fun hadvisory hfatal => ?_⟩
  · simp only [FnCfg.setUnc, hquiet h, Bool.false_and, Bool.false_eq_true, if_false]
  · have hcase : (advisory && !c.fatal e) = true := by
      rw [hadvisory, FnCfg.fatal, hfatal]
      rfl
    simp only [FnCfg.setUnc, hcase, Bool.true_and, if_true]
    exact ⟨rfl, rfl⟩

theorem uncRecorded_recordUnc {s : State} {f : FnId} (h : s.exposed f.val = true) (e : UncErr) (advisory : Bool) (hdr : Vector Dword 4) :
    uncRecorded (s.fn f) ((s.recordUnc f e advisory hdr).fn f) e.bit advisory := by
  obtain ⟨hunc, hcor⟩ := recordUnc_fn_self h e advisory hdr
  exact uncRecorded_congr hunc hcor (uncRecorded_setUnc_bit (s.fn f) e advisory hdr)

/-- R313: a bit of the Status register is no error status, and it is a bit of its function. -/
theorem setStatus_fn (s : State) (f k : FnId) (bit : Nat) :
    ((s.setStatus f bit).fn k).uncSta = (s.fn k).uncSta ∧ ((s.setStatus f bit).fn k).corSta = (s.fn k).corSta ∧
      (k ≠ f → (s.setStatus f bit).fn k = s.fn k) := by
  unfold State.setStatus
  split
  · rw [fn_modFn]
    split
    · next hk =>
      subst hk
      exact ⟨rfl, rfl, fun h => absurd rfl h⟩
    · exact ⟨rfl, rfl, fun _ => rfl⟩
  · exact ⟨rfl, rfl, fun _ => rfl⟩

theorem beside_setStatus (s : State) (f : FnId) (bit : Nat) : (s.setStatus f bit).beside = s.beside := by
  unfold State.setStatus
  split <;> rfl

section

variable (s : State) (r : HostReq) (status : CplStatus)

theorem beside_sendCpl (bytes : List (Nat × Byte)) (off len : Nat) : (s.sendCpl r status bytes off len).beside = s.beside := by
  unfold State.sendCpl
  dsimp only
  split
  · exact beside_setStatus _ _ _
  · rfl

/-- A completion records no error. -/
theorem sendCpl_fn (bytes : List (Nat × Byte)) (off len : Nat) (k : FnId) :
    ((s.sendCpl r status bytes off len).fn k).uncSta = (s.fn k).uncSta ∧
      ((s.sendCpl r status bytes off len).fn k).corSta = (s.fn k).corSta ∧
      (k ≠ r.fn → (s.sendCpl r status bytes off len).fn k = s.fn k) := by
  unfold State.sendCpl
  dsimp only
  split
  · exact setStatus_fn _ r.fn k 11
  · exact ⟨rfl, rfl, fun _ => rfl⟩

theorem refuseReq_beside (e : UncErr) : (s.refuseReq r status (some e)).beside = s.beside := by
  unfold State.refuseReq
  dsimp only
  split
  · exact (beside_sendCpl _ r status [] r.nextOff 0).trans (beside_recordUnc s r.fn e r.read r.hdr)
  · exact beside_recordUnc s r.fn e r.read r.hdr

/-- R310: of a refused request, the error is recorded in its function, and no other function changes. -/
theorem refuseReq_fn (e : UncErr) (hexposed : s.exposed r.fn.val = true) :
    uncRecorded (s.fn r.fn) ((s.refuseReq r status (some e)).fn r.fn) e.bit r.read ∧
      ∀ k, k ≠ r.fn → (s.refuseReq r status (some e)).fn k = s.fn k := by
  have hrecorded := uncRecorded_recordUnc hexposed e r.read r.hdr
  unfold State.refuseReq
  dsimp only
  split
  · have hcpl := sendCpl_fn (s.recordUnc r.fn e r.read r.hdr) r status [] r.nextOff 0
    obtain ⟨hunc, hcor, -⟩ := hcpl r.fn
    refine ⟨uncRecorded_congr hunc hcor hrecorded, fun k hk => ?_⟩
    obtain ⟨-, -, hne⟩ := hcpl k
    exact (hne hk).trans (recordUnc_fn_ne hk e r.read r.hdr)
  · exact ⟨hrecorded, fun k hk => recordUnc_fn_ne hk e r.read r.hdr⟩

theorem refuseReq_txq_of_write (e : UncErr) (h : r.read = false) : (s.refuseReq r status (some e)).txq = s.txq := by
  rw [State.refuseReq, h]
  exact (untouched_recordUnc s r.fn e false r.hdr).txq

theorem refuseReq_txq_of_read (e : UncErr) (h : r.read = true) : ∃ u : TxTlp, (s.refuseReq r status (some e)).txq = s.txq ++ [u] ∧
    u.kind = (if status = .sc then .cplD else .cpl) ∧ u.status = status ∧ u.tag = r.tag := by
  obtain ⟨u, hu, hkind, -, hstatus, htag, -⟩ := sendCpl_txq (s.recordUnc r.fn e r.read r.hdr) r status [] r.nextOff 0
  have htxq : (s.recordUnc r.fn e r.read r.hdr).txq = s.txq := (untouched_recordUnc s r.fn e r.read r.hdr).txq
  refine ⟨u, ?_, hkind, hstatus, htag⟩
  rw [State.refuseReq, if_pos h, hu, htxq]

end

/-! ### A request received -/

theorem turnedAway_none {s : State} {f : FnId} (hflr : (s.fn f).flr = none) (htests : s.mode.tests = false) (hm7 : s.mode ≠ .m7)
    (hmse : (s.fn f).mse = true) (hpower : (s.fn f).power = .d0) : s.turnedAway f = none := by
  simp [State.turnedAway, hflr, htests, hm7, hmse, hpower]

/-- R160, R310: a request that is not turned away, no Malformed TLP and not poisoned is served. -/
theorem arrive_served {s : State} {fn : FnId} {read : Bool} {q : MemReq} (stone : Bool) (serve : Nat → State → State)
    (hgood : read = true ∨ q.poisoned = false ∧ q.len ≤ (s.fn fn).mps) (haway : s.turnedAway fn = none) :
    s.arrive fn stone read q serve = serve s.nextId (s.received fn stone read q) := by
  have hfits : ¬((!read) = true ∧ (s.fn fn).mps < q.len) := by
    rintro ⟨hwrite, hlong⟩
    rcases hgood with hread | ⟨-, hshort⟩
    · simp [hread] at hwrite
    · exact Nat.not_lt.mpr hshort hlong
  have hclean : ¬(q.poisoned = true ∧ (!read) = true) := by
    rintro ⟨hpoisoned, hwrite⟩
    rcases hgood with hread | ⟨hclean, -⟩
    · simp [hread] at hwrite
    · simp [hclean] at hpoisoned
  rw [State.arrive, if_neg hfits, haway]
  dsimp only
  rw [if_neg hclean]
  rfl

section

variable {s : State} {fn : FnId} {stone read : Bool} {q : MemReq}

theorem received_req (hids : idsOk s) : (s.received fn stone read q).req s.nextId = some (s.newReq fn stone read q) :=
  req_received hids fn stone read q

/-- R222: a miss of the request just received. -/
theorem missReq_received (hids : idsOk s) : (s.received fn stone read q).missReq s.nextId = s.refusedAtOnce fn stone read true q := by
  rw [State.missReq, received_req hids]
  exact refuseReq_received s fn stone read true q

/-- The request just received is the last of the pool; so it stays while it changes. -/
theorem req_last {w : State} {x : HostReq} (hids : idsOk s) (hreqs : w.reqs = s.reqs ++ [x]) (hx : x.id = s.nextId) :
    w.req s.nextId = some x := by
  obtain ⟨hbelow, -⟩ := hids
  have hnone : s.reqs.find? (fun r => r.id = s.nextId) = none := by
    rw [List.find?_eq_none]
    exact fun r hr => by simpa using (hbelow r hr).ne
  rw [State.req, hreqs, List.find?_append, hnone]
  simp [hx]

theorem modReq_last {w : State} {x : HostReq} (hids : idsOk s) (hreqs : w.reqs = s.reqs ++ [x]) (hx : x.id = s.nextId)
    (f : HostReq → HostReq) : (w.modReq s.nextId f).reqs = s.reqs ++ [f x] := by
  obtain ⟨hbelow, -⟩ := hids
  have hold : s.reqs.map (fun r => if r.id = s.nextId then f r else r) = s.reqs :=
    (List.map_congr_left fun r hr => if_neg (hbelow r hr).ne).trans (List.map_id' s.reqs)
  have hmap : (w.modReq s.nextId f).reqs = w.reqs.map fun r => if r.id = s.nextId then f r else r := rfl
  rw [hmap, hreqs, List.map_append, hold, List.map_singleton, if_pos hx]

/-! ### A request that faults -/

/-- R282, R283: a fault entry is written, and the request just received ends with CA. -/
def State.faultedAtOnce (s : State) (fn : FnId) (stone read : Bool) (q : MemReq) (e : FaultEntry) : State :=
  (((s.received fn stone read q).writeFault e).refuseReq (s.newReq fn stone read q) .ca (some .cplAbort)).closeReq s.nextId

/-- R153: the pool and the credits are those of before, as for every request closed as it arrives. -/
theorem faultedAtOnce_pool (hids : idsOk s) (e : FaultEntry) :
    (s.faultedAtOnce fn stone read q e).reqs = s.reqs ∧ (s.faultedAtOnce fn stone read q e).fc.taken = s.fc.taken := by
  have hreqs := refuseReq_reqs ((s.received fn stone read q).writeFault e) (s.newReq fn stone read q) .ca (some .cplAbort)
  obtain ⟨hfc, -⟩ := (beside_eq_iff _ _).mp
    (refuseReq_beside ((s.received fn stone read q).writeFault e) (s.newReq fn stone read q) .ca .cplAbort)
  obtain ⟨hpool, htaken, -⟩ := closeReq_received hids hreqs hfc
  exact ⟨hpool, htaken⟩

/-- R283: of the Soot Report, the entry is written. -/
theorem faultedAtOnce_soot (e : FaultEntry) : (s.faultedAtOnce fn stone read q e).soot = (s.writeFault e).soot := by
  obtain ⟨-, hsoot, -⟩ := (beside_eq_iff _ _).mp
    (refuseReq_beside ((s.received fn stone read q).writeFault e) (s.newReq fn stone read q) .ca .cplAbort)
  obtain ⟨-, -, hclose, -⟩ := closeReq_frame
    (((s.received fn stone read q).writeFault e).refuseReq (s.newReq fn stone read q) .ca (some .cplAbort)) s.nextId
  exact hclose.trans hsoot

/-- R282, R310: Completer Abort is recorded in the function of the request, and no other function changes. -/
theorem faultedAtOnce_fn (hexposed : s.exposed fn.val = true) (e : FaultEntry) :
    uncRecorded (s.fn fn) ((s.faultedAtOnce fn stone read q e).fn fn) 15 read ∧
      ∀ k, k ≠ fn → (s.faultedAtOnce fn stone read q e).fn k = s.fn k := by
  obtain ⟨hrecorded, hother⟩ := refuseReq_fn ((s.received fn stone read q).writeFault e) (s.newReq fn stone read q) .ca .cplAbort hexposed
  have hfn : ∀ k, (s.faultedAtOnce fn stone read q e).fn k =
      (((s.received fn stone read q).writeFault e).refuseReq (s.newReq fn stone read q) .ca (some .cplAbort)).fn k :=
    fun k => congrArg (vget · k) (closeReq_fns _ _)
  exact ⟨hfn fn ▸ hrecorded, fun k hk => (hfn k).trans (hother k hk)⟩

theorem faultedAtOnce_txq_of_write (h : read = false) (e : FaultEntry) : (s.faultedAtOnce fn stone read q e).txq = s.txq :=
  (closeReq_txq _ _).trans (refuseReq_txq_of_write ((s.received fn stone read q).writeFault e) _ .ca .cplAbort h)

theorem faultedAtOnce_txq_of_read (h : read = true) (e : FaultEntry) : ∃ u : TxTlp,
    (s.faultedAtOnce fn stone read q e).txq = s.txq ++ [u] ∧ u.kind = .cpl ∧ u.status = .ca ∧ u.tag = q.tag := by
  obtain ⟨u, hu, hspec⟩ :=
    refuseReq_txq_of_read ((s.received fn stone read q).writeFault e) (s.newReq fn stone read q) .ca .cplAbort h
  exact ⟨u, (closeReq_txq _ _).trans hu, hspec⟩

/-- R222: what is left of a request that misses as it arrives. -/
theorem refusedAtOnce_effect (hids : idsOk s) (hexposed : s.exposed fn.val = true) :
    (s.refusedAtOnce fn stone read true q).reqs = s.reqs ∧ (s.refusedAtOnce fn stone read true q).soot = s.soot ∧
    uncRecorded (s.fn fn) ((s.refusedAtOnce fn stone read true q).fn fn) 20 read ∧
    (read = true → ∃ u : TxTlp, (s.refusedAtOnce fn stone read true q).txq = s.txq ++ [u] ∧ u.kind = .cpl ∧ u.status = .ur ∧
      u.tag = q.tag) := by
  obtain ⟨hreqs, -, -⟩ := refusedAtOnce_pool (fn := fn) (stone := stone) (read := read) (logged := true) (q := q) hids
  obtain ⟨hsoot, -, -⟩ := refusedAtOnce_beside (s := s) (fn := fn) (stone := stone) (read := read) (logged := true) (q := q)
  refine ⟨hreqs, hsoot, refusedAtOnce_logged hexposed, fun h => ?_⟩
  obtain ⟨u, hu, hkind, hstatus, htag, -⟩ :=
    refusedAtOnce_txq_of_read (s := s) (fn := fn) (stone := stone) (logged := true) (q := q) h
  exact ⟨u, hu, hkind, hstatus, htag⟩

end

theorem satInc_eq_min {top n : Nat} : satInc top n = min top (n + 1) := by
  unfold satInc
  split <;> omega

/-- R192, R283: what the Soot Report holds once a fault entry is written. -/
theorem writeFault_soot (s : State) (e : FaultEntry) : (s.writeFault e).soot.faults = min 0xFFFF (s.soot.faults + 1) ∧
    (s.writeFault e).soot.next = s.soot.next + 1 ∧ vget (s.writeFault e).soot.entries s.soot.next = some e :=
  ⟨satInc_eq_min, rfl, vget_vset_self _ _ _⟩

/-! ### A request that is issued -/

/-- R107, R109: one piece of `State.presentPieces`; the first one carries the header. -/
def State.presentPiece (p : (Piece × Nat) × Nat) (s : State) : State :=
  s.presentHost 16 (piecePath 16 p.1.1.dst p.1.1.addr) (p.1.2 + if p.2 = 0 then Config.costHeader else 0) (.piece p.1.1)

theorem presentPieces_eq (s : State) (l : List (Piece × Nat)) : s.presentPieces l = forList l.zipIdx State.presentPiece s := rfl

theorem length_presentPieces (s : State) (l : List (Piece × Nat)) :
    (s.presentPieces l).items.host.length = s.items.host.length + l.length := by
  rw [presentPieces_eq, ← List.length_zipIdx (l := l) (i := 0)]
  generalize l.zipIdx = ps
  induction ps generalizing s with
  | nil => rfl
  | cons p ps ih =>
    have hone : (State.presentPiece p s).items.host.length = s.items.host.length + 1 := length_insertItem _ _
    refine (ih (State.presentPiece p s)).trans ?_
    rw [hone, List.length_cons]
    omega

/-- R107: the pieces are host-level items and touch nothing but that level. -/
theorem presentPieces_frame (s : State) (l : List (Piece × Nat)) : (s.presentPieces l).beside = s.beside ∧
    (s.presentPieces l).fns = s.fns ∧ (s.presentPieces l).items.service = s.items.service ∧
    (s.presentPieces l).items.slots = s.items.slots :=
  have hkept {β : Type} (π : State → β) (hpiece : ∀ p s, π (State.presentPiece p s) = π s) : π (s.presentPieces l) = π s :=
    forList_eq π l.zipIdx State.presentPiece hpiece s
  ⟨hkept State.beside fun _ _ => rfl, hkept State.fns fun _ _ => rfl, hkept (·.items.service) fun _ _ => rfl,
    hkept (·.items.slots) fun _ _ => rfl⟩

/-- R171: a request that is issued as `k` pieces. -/
def HostReq.issuedAs (k : Nat) (r : HostReq) : HostReq := { r with st := .issued, left := k, openPieces := k }

theorem issueWith_reqs (s : State) (id : Nat) (l : List (Piece × Nat)) :
    (s.issueWith id l).reqs = (s.modReq id (HostReq.issuedAs l.length)).reqs :=
  (untouched_presentPieces (s.modReq id (HostReq.issuedAs l.length)) l).reqs

theorem issueWith_txq (s : State) (id : Nat) (l : List (Piece × Nat)) : (s.issueWith id l).txq = s.txq :=
  (untouched_presentPieces (s.modReq id (HostReq.issuedAs l.length)) l).txq

theorem length_issueWith (s : State) (id : Nat) (l : List (Piece × Nat)) :
    (s.issueWith id l).items.host.length = s.items.host.length + l.length :=
  length_presentPieces (s.modReq id (HostReq.issuedAs l.length)) l

theorem issueWith_frame (s : State) (id : Nat) (l : List (Piece × Nat)) : (s.issueWith id l).beside = s.beside ∧
    (s.issueWith id l).fns = s.fns ∧ (s.issueWith id l).items.service = s.items.service ∧
    (s.issueWith id l).items.slots = s.items.slots :=
  presentPieces_frame (s.modReq id (HostReq.issuedAs l.length)) l

end Sys2Proof.Machine
end

-- ==== Proofs of 05_ember_ledger: host requests to the hearthstone ====
section
/-! Host requests to the hearthstone (R107, R153, R160, R261, R279, R282, R283): a request to BAR-2 is issued block by block, faults,
or misses. -/

namespace Sys2Proof.Machine

open Sys2Proof

/-! ### The three ends of a request to BAR-2 -/

/-- R261: the bytes of a request that the hearthstone unit checks. -/
def stoneBytes (read : Bool) (q : MemReq) : List Nat :=
  if read then (List.range q.len).map (q.off + ·) else (enabledBytes q.off q.len q.be q.data).map (·.1)

section

variable {s : State} {read : Bool} {q : MemReq}

theorem serveBar2_miss (hids : idsOk s) (hbeyond : 1048576 < q.off + q.len) :
    (s.received 0 true read q).serveBar2 s.nextId = s.refusedAtOnce 0 true read true q := by
  rw [State.serveBar2, received_req hids]
  exact (if_pos hbeyond).trans (missReq_received hids)

/-- R283: the entry of a host request to the hearthstone whose lowest failing byte is `a`. -/
def State.hostStoneEntry (s : State) (a : Nat) (read : Bool) : FaultEntry :=
  s.stoneFaultEntry a 15 16 (if read then .read else .postedWrite)

theorem serveBar2_fault (hids : idsOk s) (hwithin : q.off + q.len ≤ 1048576) {a : Nat}
    (hfault : s.stoneFault 15 (stoneBytes read q) = some a) :
    (s.received 0 true read q).serveBar2 s.nextId = s.faultedAtOnce 0 true read q (s.hostStoneEntry a read) := by
  rw [State.serveBar2, received_req hids]
  refine (if_neg (Nat.not_lt.mpr hwithin)).trans ?_
  split
  · next b hb =>
    obtain rfl : b = a := Option.some.inj (hb.symm.trans hfault)
    rfl
  · next hb => exact nomatch hb.symm.trans hfault

theorem length_bar2Pieces (r : HostReq) : (s.bar2Pieces r).length = (blocks r.off r.len).length := List.length_map _

/-- A request of at least one byte has a block. -/
theorem blocks_ne_nil {off len : Nat} (h : 0 < len) : blocks off len ≠ [] := by
  rw [blocks, splitBlocks, if_neg (Nat.ne_of_gt h)]
  exact List.cons_ne_nil _ _

theorem serveBar2_passes (hids : idsOk s) (hlen : 0 < q.len) (hwithin : q.off + q.len ≤ 1048576)
    (hpasses : s.stoneFault 15 (stoneBytes read q) = none) :
    (s.received 0 true read q).serveBar2 s.nextId =
      (s.received 0 true read q).issueWith s.nextId (s.bar2Pieces (s.newReq 0 true read q)) := by
  have hsome : (s.bar2Pieces (s.newReq 0 true read q)).isEmpty = false := by
    rw [State.bar2Pieces, List.isEmpty_map, List.isEmpty_eq_false_iff]
    exact blocks_ne_nil hlen
  rw [State.serveBar2, received_req hids]
  refine (if_neg (Nat.not_lt.mpr hwithin)).trans ?_
  split
  · next b hb => exact nomatch hb.symm.trans hpasses
  · exact if_neg (Bool.eq_false_iff.mp hsome)

end

/-! ### The statement -/

/-- R160: a request of at least one byte. -/
theorem len_pos_of_wf {q : MemReq} {read : Bool} (h : q.wf read = true) : 0 < q.len := by
  simp only [MemReq.wf, Bool.and_eq_true, decide_eq_true_eq] at h
  omega

/-- R153: what a request takes of the credits. -/
theorem Fc.take_eq (fc : Fc) (read : Bool) (len : Nat) : (fc.take (!read) (if read then 0 else len)).alloc = fc.alloc ∧
    (read = true → (fc.take (!read) (if read then 0 else len)).taken.nph = fc.taken.nph + 1) ∧
    (read = false → (fc.take (!read) (if read then 0 else len)).taken.ph = fc.taken.ph + 1 ∧
      (fc.take (!read) (if read then 0 else len)).taken.pd = fc.taken.pd + dataUnits len) := by
  cases read <;> simp [Fc.take]

/-- Settles O37: a request to BAR-2 is received and then misses, faults, or is issued block by block (`serveBar2_miss`,
`serveBar2_fault`, `serveBar2_passes`). -/
theorem stoneRequests : Obligations.StoneRequests := by
  unfold Obligations.StoneRequests
  intro read q s hup hids hwf hgood hflr htests hm7 hmse hpower
  have hexec : exec (if read then .memoryReadBar2 q else .memoryWriteBar2 q) s =
      .next ((s.received 0 true read q).serveBar2 s.nextId) := by
    rw [exec_memoryBar2, State.bar2, if_pos hup, arrive_served true _ hgood (turnedAway_none hflr htests hm7 hmse hpower)]
  have hexposed := exposed_zero_of_hostLinkUp hup
  have hstanding : ((s.received 0 true read q).serveBar2 s.nextId).standing = s.standing := standing_serveBar2 _ _
  have hstone : ((s.received 0 true read q).serveBar2 s.nextId).stone = s.stone := congrArg Standing.stone hstanding
  refine ⟨_, hexec, hstanding, fun a => by rw [hstone], fun hwithin l hl => ⟨fun hpasses => ?_, fun a hfault => ?_⟩, fun hbeyond => ?_⟩
  · rw [hl] at hpasses
    rw [serveBar2_passes hids (len_pos_of_wf hwf) hwithin hpasses]
    obtain ⟨hbeside, hfns, hservice, hslots⟩ :=
      issueWith_frame (s.received 0 true read q) s.nextId (s.bar2Pieces (s.newReq 0 true read q))
    obtain ⟨hfc, hsoot, -⟩ := (beside_eq_iff _ _).mp hbeside
    obtain ⟨halloc, hread, hwrite⟩ := Fc.take_eq s.fc read q.len
    refine ⟨issueWith_txq _ _ _, hfns, hsoot, ?_, hservice, hslots, ⟨_, (issueWith_reqs _ _ _).trans (modReq_last hids rfl rfl _),
      rfl, rfl, rfl, rfl, rfl, length_bar2Pieces _, rfl⟩, ?_, ?_, ?_⟩
    · exact (length_issueWith _ _ _).trans (congrArg (s.items.host.length + ·) (length_bar2Pieces _))
    · rw [hfc]
      exact halloc
    · rw [hfc]
      exact hread
    · rw [hfc]
      exact hwrite
  · rw [hl] at hfault
    rw [serveBar2_fault hids hwithin hfault]
    obtain ⟨hreqs, htaken⟩ := faultedAtOnce_pool (fn := 0) (stone := true) (read := read) (q := q) hids (s.hostStoneEntry a read)
    obtain ⟨hrecorded, hother⟩ := faultedAtOnce_fn (stone := true) (read := read) (q := q) (fn := 0) hexposed (s.hostStoneEntry a read)
    obtain ⟨hfaults, hnext, hentry⟩ := writeFault_soot s (s.hostStoneEntry a read)
    rw [faultedAtOnce_soot]
    exact ⟨hreqs, htaken, hfaults, hnext, ⟨_, hentry, rfl, rfl, rfl, rfl, rfl⟩, hrecorded, hother,
      fun h => faultedAtOnce_txq_of_write h _, fun h => faultedAtOnce_txq_of_read h _⟩
  · rw [serveBar2_miss hids hbeyond]
    exact refusedAtOnce_effect hids hexposed

end Sys2Proof.Machine
end

-- ==== Proofs of 05_ember_ledger: host requests to a hearth ====
section
/-! Host requests to a hearth of this bridge (R107, R171, R174, R216, R221, R222, R274, R280, R282): a request to BAR-0 is held,
misses, faults, or waits to be issued. -/

namespace Sys2Proof.Machine

open Sys2Proof

/-! ### The hearth of a request -/

theorem posOf_chimneyOf (p : Fin 4) (n : HearthId) : posOf (chimneyOf p n) = p := by
  have := n.isLt
  apply Fin.ext
  simp only [posOf, chimneyOf]
  omega

theorem hearthOf_chimneyOf (p : Fin 4) (n : HearthId) : hearthOf (chimneyOf p n) = n := by
  have := n.isLt
  apply Fin.ext
  simp only [hearthOf, chimneyOf]
  omega

theorem chimneyHearth_of_fn {r : HostReq} {h : Fin 64} (hfn : r.fn = fnOfChimney h) : r.chimneyHearth = h := by
  have := h.isLt
  apply Fin.ext
  simp only [HostReq.chimneyHearth, hfn, fnOfChimney, Fin.val_ofNat]
  omega

theorem isLocal_of_fn {s : State} {r : HostReq} {n : HearthId} (hfn : r.fn = fnOfChimney (chimneyOf s.pos n)) : s.isLocal r = true := by
  rw [State.isLocal, chimneyHearth_of_fn hfn, posOf_chimneyOf]
  exact decide_eq_true rfl

theorem hearthOf_of_fn {r : HostReq} {p : Fin 4} {n : HearthId} (hfn : r.fn = fnOfChimney (chimneyOf p n)) :
    hearthOf r.chimneyHearth = n := by
  rw [chimneyHearth_of_fn hfn, hearthOf_chimneyOf]

/-! ### A request that waits to be issued -/

/-- R221, R225: a request decoded into `ps`, whose watchdog runs from `from'`. -/
def HostReq.decodedAs (ps : List (DWin × Nat × Nat)) (from' : Tally) (r : HostReq) : HostReq :=
  let np := !r.read && ps.any fun p => p.1.nonPosted
  { r with
    st := .waiting, nonPosted := np, pooled := true && (r.read || np), wdStart := from'
    parts := ps.map fun p => { off := p.2.1, len := p.2.2, errResp := p.1.errResp, ca := p.1.ca } }

theorem decoded_eq (s : State) (id : Nat) (ps : List (DWin × Nat × Nat)) (from' : Tally) :
    s.decoded id ps true from' = (s.modReq id (HostReq.decodedAs ps from')).tryIssue id := rfl

/-- R171, R216: a request that waits for a hearth of this bridge is issued if its bounds and the hold-off allow it. -/
theorem tryIssue_waiting {w : State} {id : Nat} {r : HostReq} {n : HearthId} {ps : List (DWin × Nat × Nat)} (hreq : w.req id = some r)
    (hst : r.st = .waiting) (hfn : r.fn = fnOfChimney (chimneyOf w.pos n)) (hparts : (w.hearth n).cfg.parts 8 r.off r.len = some ps) :
    w.tryIssue id = if w.mayIssue r (w.earlier id) = true ∧ w.holdoff n = false then
      w.issueWith id (w.bar0Pieces r n ps r.nonPosted) else w := by
  rw [State.tryIssue, hreq]
  dsimp only
  rw [if_pos hst, if_pos (isLocal_of_fn hfn), hearthOf_of_fn hfn, hparts]
  simp only [Bool.not_eq_true']

/-- R168, R170: alone in the pool, a request may be issued. -/
theorem mayIssue_alone {w : State} {r : HostReq} (hreqs : w.reqs = [r]) (hst : r.st = .waiting) : w.mayIssue r (w.earlier r.id) = true := by
  have hearlier : w.earlier r.id = [] := by simp [State.earlier, hreqs]
  have hpool : (w.reqs.filter fun x => x.st = .issued && x.pooled) = [] := by simp [hreqs, hst]
  have hhearth : (w.reqs.filter fun x => x.st = .issued && x.pooled && x.chimneyHearth = r.chimneyHearth) = [] := by simp [hreqs, hst]
  simp [State.mayIssue, hearlier, State.poolUsed, State.poolOf, hpool, hhearth, Config.poolNp, Config.poolPerHearth]

theorem length_bar0Pieces (s : State) (r : HostReq) (n : HearthId) (ps : List (DWin × Nat × Nat)) (np : Bool) :
    (s.bar0Pieces r n ps np).length = (ps.flatMap fun p => blocks p.2.1 p.2.2).length := by
  simp only [State.bar0Pieces, List.length_flatMap, List.length_map]

/-- R216: in the hold-off the watchdog runs from its end. -/
theorem watchFrom_of_holdoff {s : State} {n : HearthId} (h : s.holdoff n = true) : some (s.watchFrom n) = (s.hearth n).bus.breqFrom := by
  cases hfrom : (s.hearth n).bus.breqFrom with
  | none => simp [State.holdoff, hfrom] at h
  | some t => simp [State.watchFrom, hfrom, h]

/-! ### What becomes of the request -/

section

variable {s : State} {n : HearthId} {read : Bool} {q : MemReq}

/-- A request to BAR-0 of hearth `n` of this bridge, as it is received. -/
def State.receivedAt (s : State) (n : HearthId) (read : Bool) (q : MemReq) : State :=
  s.received (fnOfChimney (chimneyOf s.pos n)) false read q

theorem serveBar0_local : (s.receivedAt n read q).serveBar0 (chimneyOf s.pos n) s.nextId = (s.receivedAt n read q).placeReq s.nextId n := by
  have hlocal : posOf (chimneyOf s.pos n) = (s.receivedAt n read q).pos := posOf_chimneyOf s.pos n
  rw [State.serveBar0, if_pos hlocal, hearthOf_chimneyOf]

/-- R174, R284: while the hearth is re-read the request is held. -/
theorem placeReq_rereading (h : (s.hearth n).slot = .sampling ∨ ((s.hearth n).slot = .inService ∧ (s.hearth n).reload.isSome = true)) :
    (s.receivedAt n read q).placeReq s.nextId n = s.receivedAt n read q := by
  have hhearth : (s.receivedAt n read q).hearth n = s.hearth n := rfl
  rcases h with hsampling | ⟨hslot, hreload⟩
  · simp only [State.placeReq, hhearth, hsampling]
  · simp [State.placeReq, State.rereading, hhearth, hslot, hreload]

theorem placeReq_inService (hslot : (s.hearth n).slot = .inService) (hreload : (s.hearth n).reload = none) :
    (s.receivedAt n read q).placeReq s.nextId n = (s.receivedAt n read q).decodeReq s.nextId := by
  have hhearth : (s.receivedAt n read q).hearth n = s.hearth n := rfl
  simp [State.placeReq, State.rereading, hhearth, hslot, hreload]

theorem decodeReq_miss (hids : idsOk s) (hmiss : (s.hearth n).cfg.parts 8 q.off q.len = none) :
    (s.receivedAt n read q).decodeReq s.nextId = s.refusedAtOnce (fnOfChimney (chimneyOf s.pos n)) false read true q := by
  rw [State.decodeReq, State.receivedAt, received_req hids]
  dsimp only
  rw [hearthOf_of_fn rfl]
  split
  · exact missReq_received hids
  · next hparts => exact nomatch hparts.symm.trans hmiss

/-- R274, R283: the byte of a decoded request that fails the check of hearth `n`. -/
def State.downFault (s : State) (n : HearthId) (read : Bool) (q : MemReq) (ps : List (DWin × Nat × Nat)) : Option Nat :=
  if keyMatches (s.hearth n).cfg.hkey (s.hearth n).cfg.ktag then none
  else checkedByte (s.hearth n).cfg (s.newReq (fnOfChimney (chimneyOf s.pos n)) false read q) ps

theorem downFault_none {ps : List (DWin × Nat × Nat)} (h : keyMatches (s.hearth n).cfg.hkey (s.hearth n).cfg.ktag = true ∨
    checkedByte (s.hearth n).cfg (s.newReq (fnOfChimney (chimneyOf s.pos n)) false read q) ps = none) :
    s.downFault n read q ps = none := by
  rcases h with h | h <;> simp [State.downFault, h]

/-- R283: the entry of a host request to hearth `n` whose failing byte is `a`. -/
def State.hostDownEntry (s : State) (n : HearthId) (a : Nat) (read : Bool) : FaultEntry :=
  s.downFaultEntry n a (s.hearth n).cfg.hkey 16 0 (if read then .read else .postedWrite)

theorem decodeReq_fault (hids : idsOk s) {ps : List (DWin × Nat × Nat)} (hparts : (s.hearth n).cfg.parts 8 q.off q.len = some ps)
    {a : Nat} (hfault : s.downFault n read q ps = some a) : (s.receivedAt n read q).decodeReq s.nextId =
      s.faultedAtOnce (fnOfChimney (chimneyOf s.pos n)) false read q (s.hostDownEntry n a read) := by
  rw [State.decodeReq, State.receivedAt, received_req hids]
  dsimp only
  rw [hearthOf_of_fn rfl]
  split
  · next hmiss => exact nomatch hmiss.symm.trans hparts
  · next ps' hps' =>
    obtain rfl : ps' = ps := Option.some.inj (hps'.symm.trans hparts)
    split
    · next hnone => exact nomatch hnone.symm.trans hfault
    · next b hb =>
      obtain rfl : b = a := Option.some.inj (hb.symm.trans hfault)
      rfl

/-- The request once it is decoded into `ps`. -/
def State.decodedReq (s : State) (n : HearthId) (read : Bool) (q : MemReq) (ps : List (DWin × Nat × Nat)) : HostReq :=
  (s.newReq (fnOfChimney (chimneyOf s.pos n)) false read q).decodedAs ps (s.watchFrom n)

/-- R221: the request waits. -/
def State.decodedAt (s : State) (n : HearthId) (read : Bool) (q : MemReq) (ps : List (DWin × Nat × Nat)) : State :=
  (s.receivedAt n read q).modReq s.nextId (HostReq.decodedAs ps (s.watchFrom n))

theorem decodedAt_reqs (hids : idsOk s) (ps : List (DWin × Nat × Nat)) :
    (s.decodedAt n read q ps).reqs = s.reqs ++ [s.decodedReq n read q ps] := modReq_last hids rfl rfl _

theorem decodeReq_passes (hids : idsOk s) {ps : List (DWin × Nat × Nat)} (hparts : (s.hearth n).cfg.parts 8 q.off q.len = some ps)
    (hpasses : s.downFault n read q ps = none) :
    (s.receivedAt n read q).decodeReq s.nextId = (s.decodedAt n read q ps).tryIssue s.nextId := by
  rw [State.decodeReq, State.receivedAt, received_req hids]
  dsimp only
  rw [hearthOf_of_fn rfl]
  split
  · next hmiss => exact nomatch hmiss.symm.trans hparts
  · next ps' hps' =>
    obtain rfl : ps' = ps := Option.some.inj (hps'.symm.trans hparts)
    split
    · rfl
    · next b hb => exact nomatch hb.symm.trans hpasses

/-- The pieces of the request once it is decoded. -/
def State.decodedPieces (s : State) (n : HearthId) (read : Bool) (q : MemReq) (ps : List (DWin × Nat × Nat)) : List (Piece × Nat) :=
  (s.decodedAt n read q ps).bar0Pieces (s.decodedReq n read q ps) n ps (s.decodedReq n read q ps).nonPosted

/-- R171: the request that waits is issued with its pieces. -/
def State.issuedAt (s : State) (n : HearthId) (read : Bool) (q : MemReq) (ps : List (DWin × Nat × Nat)) : State :=
  (s.decodedAt n read q ps).issueWith s.nextId (s.decodedPieces n read q ps)

theorem tryIssue_decodedAt (hids : idsOk s) {ps : List (DWin × Nat × Nat)} (hparts : (s.hearth n).cfg.parts 8 q.off q.len = some ps) :
    (s.decodedAt n read q ps).tryIssue s.nextId =
      if (s.decodedAt n read q ps).mayIssue (s.decodedReq n read q ps) ((s.decodedAt n read q ps).earlier s.nextId) = true ∧
        s.holdoff n = false then s.issuedAt n read q ps else s.decodedAt n read q ps :=
  tryIssue_waiting (req_last hids (decodedAt_reqs hids ps) rfl) rfl rfl hparts

theorem issuedAt_reqs (hids : idsOk s) (ps : List (DWin × Nat × Nat)) : (s.issuedAt n read q ps).reqs =
    s.reqs ++ [(s.decodedReq n read q ps).issuedAs (s.decodedPieces n read q ps).length] :=
  (issueWith_reqs _ _ _).trans (modReq_last hids (decodedAt_reqs hids ps) rfl _)

theorem issuedAt_frame (ps : List (DWin × Nat × Nat)) : (s.issuedAt n read q ps).txq = s.txq ∧ (s.issuedAt n read q ps).fns = s.fns ∧
    (s.issuedAt n read q ps).soot = s.soot := by
  obtain ⟨hbeside, hfns, -, -⟩ := issueWith_frame (s.decodedAt n read q ps) s.nextId (s.decodedPieces n read q ps)
  obtain ⟨-, hsoot, -⟩ := (beside_eq_iff _ _).mp hbeside
  exact ⟨issueWith_txq _ _ _, hfns, hsoot⟩

end

/-! ### The statement -/

/-- Settles O38: a request to BAR-0 is received and then held while its hearth is re-read (`placeReq_rereading`), or decoded
(`decodeReq_miss`, `decodeReq_fault`, `decodeReq_passes`); one that waits is issued as its bounds allow (`tryIssue_decodedAt`). -/
theorem hearthRequests : Obligations.HearthRequests := by
  unfold Obligations.HearthRequests
  intro n h read q s hup hids _ hgood hh hexposed hflr htests hm7 hmse hpower
  subst hh
  have hexec : exec (if read then .memoryReadBar0 (chimneyOf s.pos n) q else .memoryWriteBar0 (chimneyOf s.pos n) q) s =
      .next ((s.receivedAt n read q).placeReq s.nextId n) := by
    rw [exec_memoryBar0, State.bar0, if_pos hup, if_pos hexposed,
      arrive_served false _ hgood (turnedAway_none hflr htests hm7 hmse hpower), ← serveBar0_local]
    rfl
  refine ⟨_, hexec, standing_placeReq _ _ _, fun hheld => ?_, fun hslot hreload => ?_⟩
  · rw [placeReq_rereading hheld]
    exact ⟨⟨_, rfl, rfl, rfl⟩, rfl, rfl, rfl⟩
  rw [placeReq_inService hslot hreload]
  refine ⟨fun hmiss => ?_, fun ps hparts => ⟨fun a hkey hbyte => ?_, fun hpasses => ?_⟩⟩
  · rw [decodeReq_miss hids hmiss]
    exact refusedAtOnce_effect hids hexposed
  · have hfault : s.downFault n read q ps = some a := by simp [State.downFault, hkey, hbyte]
    rw [decodeReq_fault hids hparts hfault]
    obtain ⟨hreqs, -⟩ := faultedAtOnce_pool (fn := fnOfChimney (chimneyOf s.pos n)) (stone := false) (read := read) (q := q) hids
      (s.hostDownEntry n a read)
    obtain ⟨hrecorded, -⟩ := faultedAtOnce_fn (stone := false) (read := read) (q := q) hexposed (s.hostDownEntry n a read)
    obtain ⟨-, hnext, hentry⟩ := writeFault_soot s (s.hostDownEntry n a read)
    rw [faultedAtOnce_soot]
    exact ⟨hreqs, hrecorded, hnext, ⟨_, hentry, rfl, rfl, rfl, rfl, rfl, rfl⟩, fun h => faultedAtOnce_txq_of_read h _⟩
  · rw [decodeReq_passes hids hparts (downFault_none hpasses), tryIssue_decodedAt hids hparts]
    obtain ⟨htxq, hfns, hsoot⟩ := issuedAt_frame (s := s) (n := n) (read := read) (q := q) ps
    have hwaits := decodedAt_reqs (n := n) (read := read) (q := q) hids ps
    have hissued := issuedAt_reqs (n := n) (read := read) (q := q) hids ps
    refine ⟨?_, ?_, ?_, ?_, fun hoff => ?_, fun hoff hempty => ?_⟩
    · split
      · exact htxq
      · rfl
    · split
      · exact hfns
      · rfl
    · split
      · exact hsoot
      · rfl
    · split
      · exact ⟨_, hissued, .inr rfl, rfl, rfl, rfl, rfl, rfl⟩
      · exact ⟨_, hwaits, .inl rfl, rfl, rfl, rfl, rfl, rfl⟩
    · rw [if_neg (fun h => absurd (hoff.symm.trans h.2) (by decide))]
      exact ⟨rfl, _, hwaits, rfl, watchFrom_of_holdoff hoff⟩
    · rw [hempty, List.nil_append] at hwaits hissued
      rw [if_pos ⟨mayIssue_alone hwaits rfl, hoff⟩]
      refine ⟨⟨_, hissued, rfl⟩, ?_⟩
      exact (length_issueWith _ _ _).trans (congrArg (s.items.host.length + ·) (length_bar0Pieces _ _ _ _ _))

end Sys2Proof.Machine
end

-- ==== Proofs of 05_ember_ledger: a cycle at its strobe ====
section
/-! A state that no run reaches, but that the statement on the start of a hearth cycle speaks of: the host level holds a piece
with the very number that the cycle at the strobe takes. -/

namespace Sys2Proof.Machine

open Sys2Proof

/-- A kind-0 window on the first 16 bytes of a hearth. -/
def hostWindow : UWin :=
  { base := 0, size := 16, kind := 0, nonPosted := false, errResp := false, dataInv := false, toff := 0, m := 0, pos := 0 }

/-- Hearth 0 is READY with its pads on, and a host-level item carries a piece of its cycle 0, the number next in use. -/
def numberTaken : State :=
  { State.reset with
    doms := vset State.reset.doms (padDom 0) (.on 0)
    items := { Items.reset with host := [bareItem 0 0 (.piece { barePiece with origin := .cycle 0 0 })] }
    hearths := vset State.reset.hearths 0
      { Hearth.reset with slot := .ready, cfg := { HearthCfg.reset with uw := vset HearthCfg.reset.uw 0 (some hostWindow) } } }

/-- A read strobe at address 0. -/
def readAtZero : Strobe := { rd := true, wr := false, addr := 0, be := 0, data := 0, lock := false }

/-- The cycle lies in the window, has a byte, and passes the protection check. -/
theorem numberTaken_cycle :
    (numberTaken.hearth 0).cfg.up (readAtZero.addr.toNat - readAtZero.addr.toNat % (numberTaken.hearth 0).cfg.lanes) = some hostWindow ∧
    ((numberTaken.lockLevel 0 false).newCycle 0 readAtZero hostWindow).bytes ≠ [] ∧
    (numberTaken.lockLevel 0 false).cycleFault 0 ((numberTaken.lockLevel 0 false).newCycle 0 readAtZero hostWindow) = none := by
  decide +kernel

/-- R204: the cycle is backed off, and with the work of its number the item leaves the host level. -/
theorem numberTaken_backsOff : (itemsAfter (exec (.hearthCycleStart 0 readAtZero) numberTaken)).host = [] := by
  decide +kernel

/-- Refutes O42: a cycle that is backed off need not leave the host level as it was. The back-off takes away every piece of its
number, and the statement does not ask that the number be fresh: from `numberTaken` the host level is empty afterwards. -/
theorem not_cycleStarts : ¬ Obligations.CycleStarts := by
  unfold Obligations.CycleStarts
  intro h
  obtain ⟨t, hexec, -, -, -, -, -, -, hcases⟩ := h 0 readAtZero numberTaken rfl (by decide +kernel) rfl
  obtain ⟨-, hruns⟩ := hcases (by decide)
  obtain ⟨hwindow, hbytes, hpasses⟩ := numberTaken_cycle
  obtain ⟨-, -, hpath⟩ := hruns hostWindow _ _ _ _ hwindow rfl rfl rfl rfl
  obtain ⟨hturned, -⟩ := hpath hbytes hpasses
  obtain ⟨-, -, -, -, hhost, -⟩ := hturned (.inl rfl)
  have hempty : t.items.host = [] := by
    rw [← numberTaken_backsOff, hexec]
    rfl
  rw [hempty] at hhost
  exact nomatch hhost

end Sys2Proof.Machine
end

-- ==== Proofs of 06_host_lanes_and_bellows: REFCLK stopped ====
section
/-! REFCLK stopped and back (R133, R134, R202): while no tick passes no timer comes to its end. -/

namespace Sys2Proof.Machine

open Sys2Proof

/-! ### Commands of a timer -/

/-- The timers of hearth `n`: the watchdogs of R211, the idle lock of R210, the drains of R72 and R215, the reset of R318, and the
indicator of R213. -/
def hearthTimers (n : HearthId) : List Instr :=
  [.watchdogTargetResponse n, .watchdogStrobeRelease n, .watchdogGrant n, .watchdogMasterResponse n, .lockIdleExpiry n,
    .reloadDrainExpiry n, .drainExpiry n, .drainRemovable n, .hearthResetRelease n, .indicatorBlink n]

section Paused

variable {t : State} (h : t.running = false)

include h

/-- The guard of a command that needs the clock fails. -/
theorem paused_guard {α : Sort*} {P : Prop} [Decidable P] (a b : α) : (if t.running = true ∧ P then a else b) = b :=
  if_neg fun hc => absurd (h.symm.trans hc.1) (by decide)

theorem paused_if {α : Sort*} (a b : α) : (if t.running = true then a else b) = b :=
  if_neg fun hc => absurd (h.symm.trans hc) (by decide)

/-- R103, R133: no ledger window starts. -/
theorem ledgerWindowStart_paused : exec .ledgerWindowStart t = .next t := paused_guard h _ _

/-- R133: a timer of a hearth whose start is recorded does not end, and without a start there is nothing to end. -/
theorem hearthTimer_paused (n : HearthId) : ∀ c ∈ hearthTimers n, exec c t = .next t := by
  simp only [hearthTimers, List.forall_mem_cons, List.not_mem_nil, false_imp_iff, implies_true, and_true, exec]
  refine ⟨?_, ?_, paused_guard h _ _, ?_, ?_, ?_, ?_, ?_, ?_, ?_⟩
  · unfold execWatchdogTargetResponse
    split
    · exact paused_guard h _ _
    · rfl
  · unfold execWatchdogStrobeRelease
    split
    · split
      · exact paused_if h _ _
      · rfl
    · rfl
  · unfold execWatchdogMasterResponse
    dsimp only
    split
    · exact paused_guard h _ _
    · rfl
  · unfold execLockIdleExpiry
    split
    · split
      · exact paused_if h _ _
      · rfl
    · exact paused_if h _ _
    · rfl
  · unfold execReloadDrainExpiry
    split
    · exact paused_guard h _ _
    · rfl
  · unfold execDrainExpiry
    split
    · exact paused_guard h _ _
    · rfl
  · unfold execDrainRemovable
    split
    · split
      · exact paused_if h _ _
      · rfl
    · rfl
  · unfold execHearthResetRelease
    split
    · exact paused_if h _ _
    · rfl
  · unfold execIndicatorBlink
    dsimp only
    split
    · exact paused_if h _ _
    · rfl

theorem step_paused (hq : t.pending = []) : step t = .next t := by
  unfold step
  rw [hq, tick_of_not_running h]

end Paused

/-! ### The statement -/

section Refclk

variable {s : State}

theorem exec_refclkStop (h : s.clk.source = .refclk) : exec .refclkStop s = .next { s with clk := { s.clk with stopped := true } } :=
  if_pos h

theorem exec_refclkReturn (h : s.clk.source = .refclk) : exec .refclkReturn s = .next { s with clk := { s.clk with stopped := false } } :=
  if_pos h

theorem running_of_stopped (h : s.clk.stopped = true) : s.running = false := by simp [State.running, h]

/-- R133: REFCLK that was not stopped before is back as it was. -/
theorem refclkReturn_refclkStop (hsource : s.clk.source = .refclk) (hgoes : s.clk.stopped = false) :
    exec .refclkReturn { s with clk := { s.clk with stopped := true } } = .next s := by
  refine (exec_refclkReturn (s := { s with clk := { s.clk with stopped := true } }) hsource).trans ?_
  rw [← hgoes]

end Refclk

/-- Settles O23: with REFCLK stopped no state runs (`running_of_stopped`), every timer's command waits for the clock
(`hearthTimer_paused`), and its return undoes the stop. -/
theorem stoppedClockPauses : Obligations.StoppedClockPauses := by
  unfold Obligations.StoppedClockPauses
  intro s hsource
  refine ⟨exec_refclkStop hsource, exec_refclkReturn hsource, fun t hstop => ?_⟩
  obtain rfl : { s with clk := { s.clk with stopped := true } } = t :=
    Host.Outcome.next.inj ((exec_refclkStop hsource).symm.trans hstop)
  have hpaused : State.running { s with clk := { s.clk with stopped := true } } = false := running_of_stopped rfl
  refine ⟨hpaused, step_paused hpaused, ledgerWindowStart_paused hpaused, fun n => ?_, refclkReturn_refclkStop hsource⟩
  simpa only [hearthTimers, List.forall_mem_cons, List.not_mem_nil, false_imp_iff, implies_true, and_true]
    using hearthTimer_paused hpaused n

end Sys2Proof.Machine
end

-- ==== Proofs of 06_host_lanes_and_bellows: margining ====
section
/-! Margining (R127, R142): a margin command changes the answer of its lane and nothing else, and the lane then shows it. -/

namespace Sys2Proof.Machine

open Sys2Proof

/-- R142: the margin command last answered on a lane is this one. -/
def State.margined (s : State) (lane : Fin 16) (cmd : MarginCmd) : State :=
  { s with link := { s.link with margin := vset s.link.margin lane (some cmd) } }

section Margin

variable (lane : Fin 16) (cmd : MarginCmd) (s : State)

theorem exec_marginCommand_cases : exec (.marginCommand lane cmd) s = .next (s.margined lane cmd) ∨ exec (.marginCommand lane cmd) s = .next s :=
  ite_eq_or_eq ..

variable {lane cmd s}

/-- R127: the steps in range are 16 of timing and 30 of voltage, to either side. -/
theorem inRange_iff : MarginCmd.inRange cmd = true ↔
    ∀ tm v e, cmd = .step tm v e → -16 ≤ tm ∧ tm ≤ 16 ∧ -30 ≤ v ∧ v ≤ 30 := by
  cases cmd with
  | report ask => simp [MarginCmd.inRange]
  | step tm v e =>
    rw [MarginCmd.inRange, decide_eq_true_eq]
    simp only [Config.marginTimingSteps, Config.marginVoltageSteps, MarginCmd.step.injEq]
    constructor
    · rintro hrange _ _ _ ⟨rfl, rfl, rfl⟩
      omega
    · intro hrange
      have := hrange tm v e ⟨rfl, rfl, rfl⟩
      omega

theorem exec_marginCommand_answered (hup : s.hostLinkUp = true) (hst : s.link.st = .l0) (hrate : s.link.rate = .g16 ∨ s.link.rate = .g32)
    (hlane : lane ∈ s.trainedLanes) (hrange : MarginCmd.inRange cmd = true) :
    exec (.marginCommand lane cmd) s = .next (s.margined lane cmd) :=
  if_pos ⟨hup, hst, hrate, List.contains_iff_mem.mpr hlane, hrange⟩

theorem exec_marginCommand_outOfRange (hrange : MarginCmd.inRange cmd = false) : exec (.marginCommand lane cmd) s = .next s :=
  if_neg fun hc => absurd (hrange.symm.trans hc.2.2.2.2) (by decide)

theorem exec_marginCommand_slow (h16 : s.link.rate ≠ .g16) (h32 : s.link.rate ≠ .g32) : exec (.marginCommand lane cmd) s = .next s :=
  if_neg fun hc => hc.2.2.1.elim h16 h32

/-- R142, R187: the status of the lane just margined. -/
theorem marginDword_margined : (s.margined lane cmd).marginDword (8 + 4 * lane.val) =
    match cmd with
    | .step _ _ errors => dword (field (min errors 63) 24 6 + 2 ^ 31)
    | .report ask => dword (field (s.marginReport ask) 24 8) := by
  have htable : inTable (8 + 4 * lane.val) 8 4 16 = true := by
    simp only [inTable, decide_eq_true_eq]
    omega
  have hentry : Fin.ofNat 16 ((8 + 4 * lane.val - 8) / 4) = lane := Fin.ext (by simp only [Fin.ofNat]; omega)
  rw [State.marginDword, if_pos htable, hentry]
  show (match vget (vset s.link.margin lane (some cmd)) lane with
    | some (.step _ _ errors) => _
    | some (.report ask) => _
    | none => _) = _
  rw [vget_vset_self]
  cases cmd <;> rfl

end Margin

/-- Settles O25: the command changes the lane's answer or nothing (`exec_marginCommand_cases`); R127's steps are `inRange_iff`, and
what the lane shows is `marginDword_margined`. -/
theorem marginChangesNoTap : Obligations.MarginChangesNoTap := by
  unfold Obligations.MarginChangesNoTap
  intro lane cmd s
  refine ⟨?_, fun hup hst hrate hlane hrange => ⟨_, exec_marginCommand_answered hup hst hrate hlane (inRange_iff.mpr hrange), rfl,
    ?_, ?_, ?_, ?_⟩, fun tm v e hcmd hout => exec_marginCommand_outOfRange ?_, exec_marginCommand_slow⟩
  · obtain h | h := exec_marginCommand_cases lane cmd s <;> exact ⟨_, h, rfl, rfl⟩
  · rintro rfl
    exact marginDword_margined
  · rintro rfl
    exact marginDword_margined
  · rintro rfl
    exact marginDword_margined
  · rintro tm v e rfl
    rw [marginDword_margined]
    have hmod : min e 63 % 2 ^ 6 = min e 63 := Nat.mod_eq_of_lt (by omega)
    simp only [dword, field, hmod]
  · rw [← Bool.not_eq_true, inRange_iff]
    intro hrange
    have := hrange tm v e hcmd
    omega

end Sys2Proof.Machine
end

-- ==== Proofs of 06_host_lanes_and_bellows: a test lane in the link ====
section
/-! A state that no run reaches, but that the statement on low power speaks of: a lane of the trained width that is under test, whose
taps are gathered at S_HRATE (R330) and not at the rate of the link. -/

namespace Sys2Proof.Machine

open Sys2Proof

/-- M5 with lane 0 under test, and the link in L0 at 2.5 GT/s on that very lane, which tracks; L1 has been asked for. -/
def testLaneInLink : State :=
  { State.reset with
    mode := .m5
    link := { HostLink.reset with st := .l0, width := 1, l1Asked := true }
    lanes := vset State.reset.lanes 0 { Lane.reset with st := .tracking }
    tests := vset State.reset.tests 0 { TestLane.reset with valid := true, pattern := 1 } }

/-- The record at the link's rate of lane 0 once a command has run. -/
def keptAfter (o : Host.Outcome State Fault Refusal) : Option Taps :=
  match o with
  | .next t => t.keptAt (hostLane 0) .g2p5
  | _ => none

/-- R131, R330: the taps are kept with S_HRATE, and the record at the link's rate stays empty. -/
theorem testLaneInLink_keepsNone : keptAfter (exec (.l1Entry .l10) testLaneInLink) = none := by decide +kernel

/-- Refutes O21: the taps of a lane that tracks need not be kept at the rate of the link when L1 is entered. Those of a lane under test
are kept with S_HRATE (R330), and the statement does not ask that the lanes of the trained width be none: from
`testLaneInLink` the record of lane 0 at 2.5 GT/s is empty afterwards. -/
theorem not_linkLowPower : ¬ Obligations.LinkLowPower := by
  unfold Obligations.LinkLowPower
  intro h
  obtain ⟨-, -, hentry, -⟩ := h
  obtain ⟨t, hexec, -, hlanes, -⟩ := hentry testLaneInLink (by decide) rfl (by decide)
  obtain ⟨-, -, htaps⟩ := hlanes 0 (by decide)
  obtain ⟨k, hk, -⟩ := htaps (by decide)
  have hnone := testLaneInLink_keepsNone
  rw [hexec] at hnone
  exact absurd (hk.symm.trans hnone) (by simp)

end Sys2Proof.Machine
end

-- ==== Proofs of 06_host_lanes_and_bellows: how a cycle ends ====
section
/-! How a hearth cycle ends (R195, R199, R201, R202, R211, R236, R338): withdrawn by its master, answered under its window's far-side
error mode when the watchdog expires, or released with its strobe. -/

namespace Sys2Proof.Machine

open Sys2Proof

/-! ### What ticks leave of a cycle -/

/-- What a tick and the setting of the clock keep still holds as the clock is brought to a tick. -/
theorem advanceTo_keeps {P : State → Prop} (htick : ∀ s, P s → P s.tick) (hclk : ∀ (s : State) c, P s → P { s with clk := c })
    {s : State} (h : P s) (t : Tally) : P (s.advanceTo t) := by
  unfold State.advanceTo
  dsimp only
  (repeat' split)
  · exact h
  · exact htick s h
  · exact htick _ (hclk _ _ (htick s h))

/-- R201, R262: a cycle with no data to drive stands, and so does HnACK_N. -/
theorem tick_waiting {s : State} {n : HearthId} {c : Cycle} (hc : (s.hearth n).cyc = some c) (hp : c.phase ≠ .driving)
    (hf : c.fetched = none) : (s.tick.hearth n).cyc = some c ∧ (s.tick.hearth n).ackLow = (s.hearth n).ackLow := by
  cases hrun : s.running
  · rw [tick_of_not_running hrun]
    exact ⟨hc, rfl⟩
  · rw [hearth_tick hrun]
    obtain ⟨hcyc, -, hack⟩ := hearthTick_waiting s.scanDrives s.nextTally (s.hearth n) hc (.inl hp) hf
    exact ⟨hcyc, hack⟩

theorem advanceTo_waiting {s : State} {n : HearthId} {c : Cycle} (hc : (s.hearth n).cyc = some c) (hp : c.phase ≠ .driving)
    (hf : c.fetched = none) (t : Tally) :
    ((s.advanceTo t).hearth n).cyc = some c ∧ ((s.advanceTo t).hearth n).ackLow = (s.hearth n).ackLow :=
  advanceTo_keeps (P := fun u => (u.hearth n).cyc = some c ∧ (u.hearth n).ackLow = (s.hearth n).ackLow)
    (fun _ hu => ⟨(tick_waiting hu.1 hp hf).1, (tick_waiting hu.1 hp hf).2.trans hu.2⟩) (fun _ _ hu => hu) ⟨hc, rfl⟩ t

theorem advanceTo_items (s : State) (t : Tally) : (s.advanceTo t).items = s.items := congrArg Lasting.items (advanceTo_lasting s t)

theorem tick_tap (s : State) : s.tick.tap = s.tap := by
  cases hrun : s.running
  · rw [tick_of_not_running hrun]
  · rw [tick_eq hrun]
    rfl

theorem advanceTo_scanDrives (s : State) (t : Tally) : (s.advanceTo t).scanDrives = s.scanDrives := by
  rw [State.scanDrives, advanceTo_eq State.tap tick_tap (fun _ _ => rfl) s t, State.scanDrives]

theorem Phase.not_driving_of_isOpen {p : Phase} (h : p.isOpen = true) : p ≠ .driving := by
  rintro rfl
  exact absurd h (by decide)

theorem Phase.unanswered_of_isOpen {p : Phase} (h : p.isOpen = true) : p.unanswered = true := by
  cases p with
  | answered r t => exact absurd h Bool.false_ne_true
  | _ => rfl

/-! ### An event recorded -/

theorem logEvent_hearth (s : State) (f : FnId) (n : HearthId) : (s.logEvent f).hearth n = s.hearth n :=
  congrArg (vget · n) (untouched_logEvent s f).hearths

/-- R311: a hearth-side event sets Corrected Internal Error in the function it is recorded in. -/
theorem logEvent_corSta {s : State} {f : FnId} (h : s.exposed f.val = true) : ((s.logEvent f).fn f).corSta.getLsbD 14 = true := by
  have hlog : s.logEvent f = (s.modFn f fun c => c.setCor .internal).errMessage f
      (if (s.fn f).sendsCor .internal then some .errCor else none) := if_pos h
  obtain ⟨-, hcor, -⟩ := errMessage_fn (s.modFn f fun c => c.setCor .internal) f f
    (if (s.fn f).sendsCor .internal then some .errCor else none)
  rw [hlog, hcor, fn_modFn_self]
  simp [FnCfg.setCor, CorErr.bit, bitOf]

theorem exposed_of_standing {s t : State} (h : t.standing = s.standing) (f : Nat) : t.exposed f = s.exposed f := by
  have hmode : t.mode = s.mode := congrArg Standing.mode h
  have hcfg : t.cfg = s.cfg := congrArg Standing.cfg h
  rw [State.exposed, State.lastFn, hmode, hcfg, State.exposed, State.lastFn]

/-! ### A cycle withdrawn, and one that waits -/

section Cycle

variable {s : State} {n : HearthId} {c : Cycle} (hc : (s.hearth n).cyc = some c)

include hc

/-- R199, R219: a cycle that ends without a response leaves its lines high. -/
theorem endCycle_lines : ((s.endCycle n).hearth n).waitLow = false ∧ ((s.endCycle n).hearth n).ackLow = false ∧
    ((s.endCycle n).hearth n).berrLow = false ∧ ((s.endCycle n).hearth n).dampLow = false := by
  rw [State.endCycle, hc]
  dsimp only
  rw [hearth_modHearth_self]
  exact ⟨rfl, rfl, rfl, rfl⟩

theorem exec_hearthCycleWithdraw (hphase : c.phase.isOpen = true ∨ c.phase = .driving) (hseen : s.scanHides n 1 = false) :
    exec (.hearthCycleWithdraw n) s = .next ((s.endCycle n).logEvent (fnOf n)).woken := by
  show execHearthCycleWithdraw n s = _
  rw [execHearthCycleWithdraw, hc]
  exact if_pos ⟨hphase, by rw [hseen]; rfl⟩

/-- R202: HnWAIT_N of a cycle not yet answered is low. -/
def State.waits (s : State) (n : HearthId) : State :=
  s.modHearth n fun h => { h with waitLow := h.waitLow || match h.cyc with | some c => c.phase.unanswered | none => false }

theorem waits_waitLow (hopen : c.phase.isOpen = true) : ((s.waits n).hearth n).waitLow = true := by
  rw [State.waits, hearth_modHearth_self]
  dsimp only
  rw [hc]
  dsimp only
  rw [Phase.unanswered_of_isOpen hopen, Bool.or_true]

theorem exec_waitAssert (hopen : c.phase.isOpen = true) : exec (.waitAssert n) s =
    .next ((if s.running then s.advanceTo (tickPlus c.arrival 2) else s).waits n) := by
  show execWaitAssert n s = _
  rw [execWaitAssert, hc]
  exact if_pos (Phase.unanswered_of_isOpen hopen)

/-- R195, R201, R211: the response is driven high and the cycle is over; `stuck` says that its strobe is still low. -/
def State.released (s : State) (n : HearthId) (stuck : Bool) : State :=
  s.modHearth n fun h => { h with
    cyc := none, rising := h.endsHigh, ackLow := false, berrLow := false, dampLow := false, hd := none, strobeStuck := stuck }

theorem exec_hearthStrobeRelease {r : Resp} {a : Tally} (hphase : c.phase = .answered r a) (hseen : s.scanHides n 1 = false) :
    exec (.hearthStrobeRelease n) s = .next (s.released n false).woken := by
  show execHearthStrobeRelease n s = _
  rw [execHearthStrobeRelease, if_neg (by rw [hseen]; decide), hc]
  dsimp only
  rw [hphase]
  rfl

theorem exec_watchdogStrobeRelease {r : Resp} {a : Tally} (hphase : c.phase = .answered r a) (hrun : s.running = true) :
    exec (.watchdogStrobeRelease n) s =
      .next (((s.advanceTo (tickPlus a (s.hearth n).cfg.wdog)).released n true).logEvent (fnOf n)).woken := by
  show execWatchdogStrobeRelease n s = _
  rw [execWatchdogStrobeRelease, hc]
  dsimp only
  rw [hphase]
  exact if_pos hrun

theorem exec_watchdogTargetResponse (hopen : c.phase.isOpen = true) (hrun : s.running = true) :
    exec (.watchdogTargetResponse n) s =
      .next ((s.advanceTo (tickPlus c.arrival (s.hearth n).cfg.wdog)).expireCycle n false).woken := by
  show execWatchdogTargetResponse n s = _
  rw [execWatchdogTargetResponse, hc]
  exact if_pos ⟨hrun, .inl hopen⟩

end Cycle

theorem released_hearth_self (s : State) (n : HearthId) (stuck : Bool) : (s.released n stuck).hearth n = { s.hearth n with
    cyc := none, rising := (s.hearth n).endsHigh, ackLow := false, berrLow := false, dampLow := false, hd := none, strobeStuck := stuck } :=
  hearth_modHearth_self s n _

theorem released_hearth_ne {s : State} {n m : HearthId} {stuck : Bool} (hm : m ≠ n) : (s.released n stuck).hearth m = s.hearth m :=
  hearth_modHearth_ne s n m _ hm

theorem released_standing (s : State) (n : HearthId) (stuck : Bool) : (s.released n stuck).standing = s.standing :=
  standing_modHearth s n _ rfl

/-! ### The far-side answers -/

/-- R198: a byte of ones on every lane drives ones on the bus, up to its 32 bits. -/
theorem packLanes_ones (lanes : Nat) {i : Nat} (hi : i < 8 * lanes) (h32 : i < 32) :
    (packLanes lanes fun _ => 0xFF).getLsbD i = true := by
  induction lanes with
  | zero => omega
  | succ k ih =>
    have hstep : packLanes (k + 1) (fun _ => 0xFF) = packLanes k (fun _ => 0xFF) ||| (((0xFF : Byte).setWidth 32) <<< (8 * k)) := by
      simp only [packLanes, List.range_succ, List.foldl_append, List.foldl_cons, List.foldl_nil]
    rw [hstep, BitVec.getLsbD_or, Bool.or_eq_true]
    by_cases hlow : i < 8 * k
    · exact .inl (ih hlow)
    · right
      have hbyte : ∀ j, j < 8 → (0xFF : Byte).getLsbD j = true := by decide
      rw [BitVec.getLsbD_shiftLeft, BitVec.getLsbD_setWidth, hbyte (i - 8 * k) (by omega)]
      simp only [h32, hlow, decide_true, decide_false, Bool.not_false, Bool.true_and, Bool.and_true, decide_eq_true_eq]
      omega

/-- R236: read data with nothing read are ones. -/
theorem readData_nil (cfg : HearthCfg) (lanes : List (Nat × Nat)) : cfg.readData lanes [] = packLanes cfg.lanes fun _ => 0xFF := by
  have hbyte : ∀ j, (match lanes.find? (fun p => p.2 = j) with
      | some p => (byteAt [] p.1).getD 0xFF
      | none => (0xFF : Byte)) = 0xFF := fun j => by
    split <;> rfl
  rw [HearthCfg.readData]
  exact congrArg _ (funext hbyte)

section FarAnswer

variable (s : State) (n : HearthId) (c : Cycle)

theorem answer_hearth_self {r : Resp} (h : r = .ack → s.scanDrives = false) :
    (s.answer n r).hearth n = (s.hearth n).respond r s.now := by
  have hnot : ¬ (r = .ack ∧ s.scanDrives = true) := fun hr => by simp [h hr.1] at hr
  rw [State.answer, if_neg hnot, woken_hearth, hearth_modHearth_self]

theorem farAnswer_berr (h : c.win.errResp = true) : ((s.farAnswer n c).hearth n).berrLow = true := by
  rw [State.farAnswer, if_pos h, answer_hearth_self (r := .berr) s n nofun]
  rfl

theorem farAnswer_ack (herr : c.win.errResp = false) (hscan : s.scanDrives = false) (hwrite : c.read = false) :
    ((s.farAnswer n c).hearth n).ackLow = true := by
  rw [State.farAnswer, if_neg (by rw [herr]; decide), if_neg (by rw [hwrite]; decide), answer_hearth_self s n fun _ => hscan]
  rfl

/-- R236: a read whose far side fails under the mode of ones drives them. -/
theorem farAnswer_ones {s : State} {n : HearthId} {c : Cycle} (hc : (s.hearth n).cyc.isSome = true) (herr : c.win.errResp = false)
    (hread : c.read = true) : ∃ d, ((s.farAnswer n c).hearth n).hd = some d ∧
      ∀ i, i < 8 * (s.hearth n).cfg.lanes → i < 32 → d.getLsbD i = true := by
  obtain ⟨c', hc'⟩ := Option.isSome_iff_exists.mp hc
  rw [State.farAnswer, if_neg (by rw [herr]; decide), if_pos hread, State.driveRead, hc']
  dsimp only
  rw [woken_hearth, hearth_modHearth_self]
  refine ⟨_, rfl, fun i hi h32 => ?_⟩
  rw [readData_nil]
  exact packLanes_ones _ hi h32

end FarAnswer

/-! ### The watchdog of an open cycle -/

section Expiry

variable {s : State} {n : HearthId} {c : Cycle} (hc : (s.hearth n).cyc = some c) (hopen : c.phase.isOpen = true)

/-- R211, R311: work not begun is dropped, and the expiry is recorded. -/
def State.expiryLogged (s : State) (n : HearthId) (c : Cycle) : State := (s.dropCycleWork n c false).farLogged n true c

theorem standing_expiryLogged (s : State) (n : HearthId) (c : Cycle) : (s.expiryLogged n c).standing = s.standing :=
  (standing_farLogged _ n true c).trans (standing_dropCycleWork s n c false)

theorem expiryLogged_scanDrives (s : State) (n : HearthId) (c : Cycle) : (s.expiryLogged n c).scanDrives = s.scanDrives := by
  have htap : (s.expiryLogged n c).tap = s.tap := congrArg Standing.tap (standing_expiryLogged s n c)
  rw [State.scanDrives, htap, State.scanDrives]

theorem dropCycleWork_hearth (s : State) (n : HearthId) (c : Cycle) (release : Bool) (m : HearthId) :
    (s.dropCycleWork n c release).hearth m = (s.removePieces fun p => p.forCycle n c.serial &&
      !(c.captured && (p.cls = .posted || release && p.kind = .lockedWrite))).hearth m := rfl

theorem dropCycleWork_ackLow (s : State) (n : HearthId) (c : Cycle) (release : Bool) (m : HearthId) :
    ((s.dropCycleWork n c release).hearth m).ackLow = (s.hearth m).ackLow := by
  rw [dropCycleWork_hearth, removePieces_hearth]

theorem expiryLogged_cyc (s : State) (n : HearthId) (c : Cycle) (m : HearthId) :
    ((s.expiryLogged n c).hearth m).cyc = (s.hearth m).cyc := by
  have hlog : (s.expiryLogged n c).hearth m = (s.dropCycleWork n c false).hearth m :=
    congrArg (vget · m) (untouched_farLogged (s.dropCycleWork n c false) n true c).hearths
  rw [hlog, dropCycleWork_cyc]

theorem expiryLogged_cfg (s : State) (n : HearthId) (c : Cycle) (m : HearthId) :
    ((s.expiryLogged n c).hearth m).cfg = (s.hearth m).cfg := by
  have hsteady : ((s.expiryLogged n c).hearth m).steady.cfg = (s.hearth m).steady.cfg :=
    congrArg Hearth.cfg (hearth_steady_of_standing (standing_expiryLogged s n c) m)
  exact hsteady

include hc hopen

/-- R211, R236: an open cycle that an EXTEST instruction does not keep from its answer is answered under its far-side error mode. -/
theorem expireCycle_answers (h : c.win.errResp = true ∨ s.scanDrives = false) :
    s.expireCycle n false = ((s.expiryLogged n c).farAnswer n c).endPosted n c.serial := by
  have hnot : ¬ (s.scanDrives ∧ !c.win.errResp ∧ (c.phase.isOpen ∨ c.phase = .driving)) := by
    rintro ⟨hscan, herr, -⟩
    obtain h | h := h
    · rw [h] at herr
      exact absurd herr (by decide)
    · exact absurd (h.symm.trans hscan) (by decide)
  rw [State.expireCycle, hc]
  dsimp only
  rw [if_neg hnot, if_pos hopen, farSide_of_open ((dropCycleWork_cyc s n c false n).trans hc) hopen]
  rfl

/-- R338: where it would be acknowledged under EXTEST it ends without a response. -/
theorem expireCycle_silent (hscan : s.scanDrives = true) (herr : c.win.errResp = false) :
    s.expireCycle n false = (((s.dropCycleWork n c false).logEvent (fnOf n)).endPosted n c.serial).modHearth n fun h =>
      { h with cyc := none, strobeStuck := true, waitLow := false, hd := none } := by
  rw [State.expireCycle, hc]
  exact if_pos ⟨hscan, by rw [herr]; rfl, .inl hopen⟩

theorem expireCycle_berr (herr : c.win.errResp = true) : ((s.expireCycle n false).hearth n).berrLow = true := by
  rw [expireCycle_answers hc hopen (.inl herr), State.endPosted, hearth_modHearth_self]
  exact farAnswer_berr _ n c herr

theorem expireCycle_ack (herr : c.win.errResp = false) (hscan : s.scanDrives = false) (hwrite : c.read = false) :
    ((s.expireCycle n false).hearth n).ackLow = true := by
  rw [expireCycle_answers hc hopen (.inr hscan), State.endPosted, hearth_modHearth_self]
  exact farAnswer_ack _ n c herr ((expiryLogged_scanDrives s n c).trans hscan) hwrite

theorem expireCycle_ones (herr : c.win.errResp = false) (hscan : s.scanDrives = false) (hread : c.read = true) :
    ∃ d, ((s.expireCycle n false).hearth n).hd = some d ∧ ∀ i, i < 8 * (s.hearth n).cfg.lanes → i < 32 → d.getLsbD i = true := by
  rw [expireCycle_answers hc hopen (.inr hscan), State.endPosted, hearth_modHearth_self, ← expiryLogged_cfg s n c n]
  refine farAnswer_ones ?_ herr hread
  rw [expiryLogged_cyc, hc]
  rfl

theorem expireCycle_noAnswer (hscan : s.scanDrives = true) (herr : c.win.errResp = false) :
    ((s.expireCycle n false).hearth n).cyc = none ∧ ((s.expireCycle n false).hearth n).strobeStuck = true ∧
      ((s.expireCycle n false).hearth n).hd = none ∧ ((s.expireCycle n false).hearth n).ackLow = (s.hearth n).ackLow := by
  rw [expireCycle_silent hc hopen hscan herr, hearth_modHearth_self]
  refine ⟨rfl, rfl, rfl, ?_⟩
  rw [State.endPosted, hearth_modHearth_self]
  dsimp only
  rw [logEvent_hearth, dropCycleWork_ackLow]

end Expiry

/-! ### The statement -/

/-- Settles O43: a withdrawn cycle leaves its lines high (`endCycle_lines`); ticks leave a cycle that waits (`advanceTo_waiting`), and one
whose watchdog expires is answered under its far-side error mode (`expireCycle_answers`) or, under EXTEST, not at all
(`expireCycle_silent`); a response is released as `State.released` says. -/
theorem cycleEnds : Obligations.CycleEnds := by
  unfold Obligations.CycleEnds
  intro n c s hc
  refine ⟨fun hphase hseen => ?_, fun hopen hnone => ?_, fun r a hphase hseen => ?_, fun hopen hnone hrun => ?_, fun r a hphase hrun => ?_⟩
  · obtain ⟨hwait, hack, hberr, hdamp⟩ := endCycle_lines hc
    refine ⟨_, exec_hearthCycleWithdraw hc hphase hseen, ?_⟩
    rw [woken_hearth, logEvent_hearth]
    refine ⟨endCycle_cyc s n, hwait, hack, hberr, hdamp, fun hexposed => ?_, ?_⟩
    · rw [woken_fn]
      exact logEvent_corSta ((exposed_of_standing (standing_endCycle s n) _).trans hexposed)
    · rw [standing_woken, standing_logEvent, standing_endCycle]
  · refine ⟨_, exec_waitAssert hc hopen, ?_, fun hrun => ?_, fun hstop => ?_, ?_, ?_⟩
    · have hwaiting := advanceTo_waiting hc (Phase.not_driving_of_isOpen hopen) hnone (tickPlus c.arrival 2)
      split
      · exact waits_waitLow hwaiting.1 hopen
      · exact waits_waitLow hc hopen
    · rw [if_pos hrun]
      rfl
    · rw [if_neg (by rw [hstop]; decide)]
      rfl
    · split
      · exact advanceTo_items s _
      · rfl
    · split
      · exact advanceTo_txq s _
      · rfl
  · refine ⟨_, exec_hearthStrobeRelease hc hphase hseen, ?_, fun m hm => ?_, rfl⟩
    · rw [woken_hearth, released_hearth_self]
    · rw [woken_hearth, released_hearth_ne hm]
  · obtain ⟨hcyc, hack⟩ := advanceTo_waiting hc (Phase.not_driving_of_isOpen hopen) hnone (tickPlus c.arrival (s.hearth n).cfg.wdog)
    have hscan := advanceTo_scanDrives s (tickPlus c.arrival (s.hearth n).cfg.wdog)
    have hcfg := advanceTo_hearthCfg s (tickPlus c.arrival (s.hearth n).cfg.wdog) n
    have hexec := exec_watchdogTargetResponse hc hopen hrun
    generalize s.advanceTo (tickPlus c.arrival (s.hearth n).cfg.wdog) = u at hcyc hack hscan hcfg hexec ⊢
    have hstanding : (u.expireCycle n false).woken.standing = u.standing := (standing_woken _).trans (standing_expireCycle u n false)
    rw [← hscan, ← hack, ← hcfg]
    exact ⟨_, hexec, congrArg Standing.clk hstanding, expireCycle_berr hcyc hopen,
      fun herr hdrives => expireCycle_noAnswer hcyc hopen hdrives herr, expireCycle_ack hcyc hopen, expireCycle_ones hcyc hopen, hstanding⟩
  · have hexec := exec_watchdogStrobeRelease hc hphase hrun
    generalize s.advanceTo (tickPlus a (s.hearth n).cfg.wdog) = u at hexec ⊢
    have hstanding : ((u.released n true).logEvent (fnOf n)).woken.standing = u.standing :=
      ((standing_woken _).trans (standing_logEvent _ _)).trans (released_standing u n true)
    have hearth : ∀ m, ((u.released n true).logEvent (fnOf n)).woken.hearth m = (u.released n true).hearth m := fun m =>
      (woken_hearth _ m).trans (logEvent_hearth _ _ m)
    refine ⟨_, hexec, congrArg Standing.clk hstanding, ?_⟩
    rw [hearth n, released_hearth_self]
    refine ⟨rfl, rfl, rfl, rfl, rfl, rfl, fun m hm => ?_, ?_⟩
    · rw [hearth m, released_hearth_ne hm]
    · rw [← hstanding]
      rfl

end Sys2Proof.Machine
end

-- ==== Proofs of 06_host_lanes_and_bellows: a link reset ====
section
/-! A link reset (R130, R151, R315, R316): the FLR procedure on every exposed function, the data link started over, and the entry to
Detect. -/

namespace Sys2Proof.Machine

open Sys2Proof

/-! ### The FLR procedure on several functions -/

/-- R317: what the host reads of a function whose FLR began at `now`. -/
def FnCfg.underFlr (c : FnCfg) (now : Tally) : Prop :=
  c.flr = some now ∧ c.bme = false ∧ c.mse = false ∧ c.bar = 0 ∧ c.power = .d0

theorem FnCfg.underFlr_of_steady {c d : FnCfg} {now : Tally} (h : d.steady = c.steady) (hc : c.underFlr now) : d.underFlr now := by
  obtain ⟨hflr, hbme, hmse, hbar, hpower⟩ := hc
  exact ⟨(congrArg (·.flr) h : d.flr = c.flr).trans hflr, (congrArg (·.bme) h : d.bme = c.bme).trans hbme,
    (congrArg (·.mse) h : d.mse = c.mse).trans hmse, (congrArg (·.bar) h : d.bar = c.bar).trans hbar,
    (congrArg (·.power) h : d.power = c.power).trans hpower⟩

/-- What of a hearth no reset of the link touches: slot state, settings, balls. -/
def Hearth.fitted (h : Hearth) : Slot × HearthCfg × Vector Ball 69 := (h.slot, h.cfg, h.balls)

theorem Hearth.fitted_of_steady {x y : Hearth} (h : x.steady = y.steady) : x.fitted = y.fitted :=
  (congrArg Hearth.fitted h : x.steady.fitted = y.steady.fitted)

/-- From `s` to `t` the functions that `P` names, and no others, have had an FLR in this tick. -/
structure FlrOf (P : FnId → Prop) (s t : State) : Prop where
  standing : t.standing = { s.standing with fns := steadyFns t.fns, hearths := steadyHearths t.hearths }
  reqs : s.reqs = [] → t.reqs = []
  fitted : ∀ n, (t.hearth n).fitted = (s.hearth n).fitted
  reset : ∀ f, P f → (t.fn f).underFlr s.now
  others : ∀ f, ¬ P f → (t.fn f).steady = (s.fn f).steady

namespace FlrOf

variable {P Q : FnId → Prop} {s t u : State}

theorem now (h : FlrOf P s t) : t.now = s.now := congrArg (fun x : Standing => x.clk.tally) h.standing
theorem mode (h : FlrOf P s t) : t.mode = s.mode := congrArg Standing.mode h.standing
theorem cfg (h : FlrOf P s t) : t.cfg = s.cfg := congrArg Standing.cfg h.standing

theorem exposed (h : FlrOf P s t) (k : Nat) : t.exposed k = s.exposed k := by
  unfold State.exposed State.lastFn
  rw [h.mode, h.cfg]

/-- A state that differs in its work only has had no FLR. -/
theorem of_standing (h : t.standing = s.standing) (hreqs : s.reqs = [] → t.reqs = []) : FlrOf (fun _ => False) s t where
  standing := standing_own (x := s.standing) h
  reqs := hreqs
  fitted n := Hearth.fitted_of_steady (hearth_steady_of_standing h n)
  reset _ := False.elim
  others f _ := fn_steady_eq (congrArg Standing.fns h) f

theorem trans (h : FlrOf P s t) (k : FlrOf Q t u) : FlrOf (fun f => P f ∨ Q f) s u where
  standing := by rw [k.standing, h.standing]
  reqs hs := k.reqs (h.reqs hs)
  fitted n := (k.fitted n).trans (h.fitted n)
  reset f hf := by
    by_cases hq : Q f
    · exact h.now ▸ k.reset f hq
    · exact FnCfg.underFlr_of_steady (k.others f hq) (h.reset f (hf.resolve_right hq))
  others f hf := by
    rw [not_or] at hf
    exact (k.others f hf.2).trans (h.others f hf.1)

theorem congr (h : FlrOf P s t) (hPQ : ∀ f, P f ↔ Q f) : FlrOf Q s t :=
  (funext fun f => propext (hPQ f) : P = Q) ▸ h

end FlrOf

/-- A function under FLR. -/
theorem flrFn_underFlr (s : State) (f : FnId) : ((s.flrFn f).fn f).underFlr s.now := by
  rw [flrFn_fn_self]
  exact ⟨rfl, rfl, rfl, rfl, rfl⟩

theorem hearthReset_fitted (s : State) (n m : HearthId) : ((s.hearthReset n).hearth m).fitted = (s.hearth m).fitted := by
  by_cases hm : m = n
  · subst hm
    refine Eq.trans ?_ (Hearth.fitted_of_steady
      (hearth_steady_of_standing ((standing_failBlocked _ m).trans (standing_endHearthWork s m)) m))
    unfold State.hearthReset
    rw [hearth_modHearth_self]
    generalize ((s.endHearthWork m).failBlocked m).hearth m = z
    rfl
  · exact Hearth.fitted_of_steady (hearthReset_steady_ne s n hm)

theorem flrBus_fitted (s : State) (h : Fin 64) (m : HearthId) : ((s.flrBus h).hearth m).fitted = (s.hearth m).fitted := by
  refine Eq.trans ?_ (Hearth.fitted_of_steady (flrClears_hearth_steady s h m))
  unfold State.flrBus
  split
  · exact hearthReset_fitted _ _ m
  · exact Hearth.fitted_of_steady (hearth_steady_of_standing (standing_sendFunc _ h true) m)

theorem WorkEnds.noReqs {s t : State} (hw : WorkEnds s t) (hs : s.reqs = []) : t.reqs = [] :=
  List.eq_nil_iff_forall_not_mem.mpr fun r hr => by
    obtain ⟨q, hq, -⟩ := hw.reqs r hr
    rw [hs] at hq
    exact List.not_mem_nil hq

theorem flrOf_flrHearth (s : State) (h : Fin 64) : FlrOf (· = fnOfChimney h) s (s.flrHearth h) where
  standing := flrHearth_standing s h
  reqs hs := by
    refine (workEnds_flrClears s h).noReqs ((flrClears_reqs s h).trans ((workEnds_endsReqs _ _ _).noReqs ?_))
    exact (discardKind0_reqs _ h).trans hs
  fitted n := (Hearth.fitted_of_steady (flrHearth_hearth_steady s h n)).trans (flrBus_fitted s h n)
  reset f hf := by
    subst hf
    exact FnCfg.underFlr_of_steady (flrHearth_fn_steady s h _) (flrFn_underFlr s _)
  others f hf := by rw [flrHearth_fn_steady, flrFn_fn_ne _ _ hf]

theorem flrOf_flrGrate (s : State) : FlrOf (· = 0) s s.flrGrate where
  standing := standing_own (b := steadyHearths s.hearths) (flrGrate_standing s)
  reqs hs := (workEnds_flrGrate s).noReqs ((dropRecords_reqs (s.flrFn 0)).trans hs)
  fitted n := Hearth.fitted_of_steady (hearth_steady_of_standing (s := s.flrFn 0) (flrGrate_standing s) n)
  reset f hf := by
    subst hf
    rw [State.fn, flrGrate_fns]
    exact flrFn_underFlr s 0
  others f hf := by
    rw [State.fn, flrGrate_fns]
    exact congrArg FnCfg.steady (flrFn_fn_ne s 0 hf)

/-- R316: the FLR procedure on the exposed functions of listed hearths. -/
theorem flrOf_list (l : List (Fin 64)) (s : State) :
    FlrOf (fun f => s.exposed f.val = true ∧ ∃ h ∈ l, f = fnOfChimney h) s
      (forList l (fun h s => if s.exposed (fnOfChimney h).val then s.flrHearth h else s) s) := by
  induction l generalizing s with
  | nil => exact (FlrOf.of_standing (t := s) rfl id).congr fun f => by simp
  | cons h l ih =>
    have hstep : FlrOf (fun f => s.exposed f.val = true ∧ f = fnOfChimney h) s
        (if s.exposed (fnOfChimney h).val then s.flrHearth h else s) := by
      split
      next hexp => exact (flrOf_flrHearth s h).congr fun f => ⟨fun hf => ⟨hf ▸ hexp, hf⟩, And.right⟩
      next hexp => exact (FlrOf.of_standing (t := s) rfl id).congr fun f => ⟨False.elim, fun hf => hexp (hf.2 ▸ hf.1)⟩
    refine (hstep.trans (ih _)).congr fun f => ?_
    rw [hstep.exposed, List.exists_mem_cons_iff, and_or_left]

/-- Every function but function 0 is that of a hearth. -/
theorem fnOfChimney_surj {f : FnId} (hf : f ≠ 0) : ∃ h, f = fnOfChimney h := by
  have hpos : 0 < f.val := Nat.pos_of_ne_zero fun h => hf (Fin.ext h)
  exact ⟨⟨f.val - 1, by omega⟩, Fin.ext (by simp only [fnOfChimney]; omega)⟩

/-- R316, R317: the FLR procedure on every exposed function. -/
theorem flrOf_flrAll (s : State) : FlrOf (fun f => s.exposed f.val = true) s s.flrAll := by
  have hgrate : FlrOf (fun f => s.exposed f.val = true ∧ f = 0) s (if s.exposed 0 then s.flrGrate else s) := by
    split
    next hexp => exact (flrOf_flrGrate s).congr fun f => ⟨fun hf => ⟨by rw [hf]; exact hexp, hf⟩, And.right⟩
    next hexp =>
      refine (FlrOf.of_standing (t := s) rfl id).congr fun f => ⟨False.elim, fun ⟨hf, hzero⟩ => hexp ?_⟩
      rw [hzero] at hf
      exact hf
  refine (hgrate.trans (flrOf_list (List.finRange 64) _)).congr fun f => ?_
  rw [hgrate.exposed, ← and_or_left]
  refine and_iff_left ?_
  by_cases hf : f = 0
  · exact .inl hf
  · obtain ⟨h, hh⟩ := fnOfChimney_surj hf
    exact .inr ⟨h, List.mem_finRange h, hh⟩

/-! ### Credits -/

section Credits

variable (s : State)

@[simp] theorem control_fc (q : Fin 4) (b : FlueBlk) : (s.control q b).fc = s.fc := by
  unfold State.control
  split
  · exact emit_fc s _ b
  · rfl

@[simp] theorem performedFrom_fc (p : Fin 4) (num : BitVec 16) : (s.performedFrom p num).fc = s.fc := by
  unfold State.performedFrom State.receipt
  exact control_fc _ _ _

@[simp] theorem logEvent_fc (f : FnId) : (s.logEvent f).fc = s.fc := by
  unfold State.logEvent State.recordCor
  split
  · exact errMessage_fc _ f _
  · rfl

@[simp] theorem presentArrival_fc (f : FlueId) (b : PieceBlk) (path : List DomainId) (cost : Nat) (w : Work) :
    (s.presentArrival f b path cost w).fc = s.fc := by
  unfold State.presentArrival
  split <;> rfl

@[simp] theorem refuseArrival_fc (b : PieceBlk) (st : CplStatus) : (s.refuseArrival b st).fc = s.fc := by
  unfold State.refuseArrival
  split
  · rfl
  · exact performedFrom_fc s _ _

@[simp] theorem farArrival_fc (f : FlueId) (b : PieceBlk) : (s.farArrival f b).fc = s.fc := by
  unfold State.farArrival
  (repeat' split) <;> simp

theorem landHost_fc (f : FlueId) (b : PieceBlk) : (s.landHost f b).fc = s.fc := by
  unfold State.landHost State.backOff State.sendBackoff
  dsimp only
  (repeat' split) <;> simp

@[simp] theorem landWaiting_fc : s.landWaiting.fc = s.fc := by
  unfold State.landWaiting
  dsimp only
  split
  · rfl
  · exact forList_eq State.fc _ _ (fun (x : FlueId × PieceBlk) s => landHost_fc s x.1 x.2) _

end Credits

/-! ### The link goes down -/

/-- R164, R316: with the tags released and every request discarded. -/
def State.workDropped (s : State) : State := s.dropTags.discardReqs fun _ => true

theorem standing_dropTags (s : State) : s.dropTags.standing = { s.standing with tags := [] } :=
  forList_eq State.standing _ (fun o s => s.endWork o [] .ca) (fun o s => standing_endWork s o [] .ca) _

theorem standing_workDropped (s : State) : s.workDropped.standing = { s.standing with tags := [] } :=
  (standing_discardReqs _ _).trans (standing_dropTags s)

theorem discardAll_reqs (s : State) : (s.discardReqs fun _ => true).reqs = [] :=
  List.eq_nil_iff_forall_not_mem.mpr fun r hr => by
    obtain ⟨hmem, hnone⟩ := (mem_discardReqs s _ r).mp hr
    exact hnone r hmem rfl rfl

theorem workDropped_reqs (s : State) : s.workDropped.reqs = [] := discardAll_reqs _

/-- R316: posted writes whose TLPs are discarded end. -/
def State.postedDropped (s : State) : State :=
  forList (s.txq.map (·.origin)) (fun o s => match o with
    | .posted n k => s.endPosted n k
    | .remotePosted q k => s.performedFrom q k
    | _ => s) s

theorem standing_postedDropped (s : State) : s.postedDropped.standing = s.standing := by
  refine forList_eq State.standing _ _ (fun o s => ?_) s
  split
  · exact standing_endPosted s _ _
  · exact standing_performedFrom s _ _
  · rfl

theorem flrOf_postedDropped (s : State) : FlrOf (fun _ => False) s s.postedDropped :=
  .of_standing (standing_postedDropped s) fun hs => (discardPosted_reqs _ s).trans hs

/-- R151, R315, R316: from `s` to `t` the data link has started over, no work of the host's is left, and the functions that `P`
names have had an FLR. -/
structure FallsTo (P : FnId → Prop) (s t : State) : Prop where
  standing : t.standing = { s.standing with
    dll := Dll.reset, tags := [], fns := steadyFns t.fns, hearths := steadyHearths t.hearths }
  fc : t.fc = Fc.reset
  txq : t.txq = []
  reqs : t.reqs = []
  fitted : ∀ n, (t.hearth n).fitted = (s.hearth n).fitted
  reset : ∀ f, P f → (t.fn f).underFlr s.now
  others : ∀ f, ¬ P f → (t.fn f).steady = (s.fn f).steady

theorem clearLink_standing (s : State) : s.clearLink.standing = { s.standing with dll := Dll.reset } := rfl

/-- Once the tags and requests are dropped, FLRs and the cleared link make the fall. -/
theorem FlrOf.fallsTo {P : FnId → Prop} {s t : State} (h : FlrOf P s.workDropped t) : FallsTo P s t.clearLink where
  standing := by
    rw [clearLink_standing, h.standing, standing_workDropped]
    rfl
  fc := rfl
  txq := rfl
  reqs := h.reqs (workDropped_reqs s)
  fitted n := (h.fitted n).trans (Hearth.fitted_of_steady (hearth_steady_eq (congrArg Standing.hearths (standing_workDropped s)) n))
  reset f hf := by
    have hnow : s.workDropped.now = s.now := congrArg (fun x : Standing => x.clk.tally) (standing_workDropped s)
    rw [← hnow]
    exact h.reset f hf
  others f hf := (h.others f hf).trans (fn_steady_eq (congrArg Standing.fns (standing_workDropped s)) f)

/-- What changes work alone, and neither the requests nor the link, keeps the fall. -/
theorem FallsTo.untouched {P : FnId → Prop} {s t u : State} (h : FallsTo P s t) (hstand : u.standing = t.standing)
    (hu : Untouched t u) (hfc : u.fc = t.fc) : FallsTo P s u where
  standing := by
    have hf : steadyFns u.fns = steadyFns t.fns := congrArg Standing.fns hstand
    have hh : steadyHearths u.hearths = steadyHearths t.hearths := congrArg Standing.hearths hstand
    rw [hstand, hf, hh, h.standing]
  fc := hfc.trans h.fc
  txq := hu.txq.trans h.txq
  reqs := hu.reqs.trans h.reqs
  fitted n := (Hearth.fitted_of_steady (hearth_steady_of_standing hstand n)).trans (h.fitted n)
  reset f hf := FnCfg.underFlr_of_steady (fn_steady_eq (congrArg Standing.fns hstand) f) (h.reset f hf)
  others f hf := (fn_steady_eq (congrArg Standing.fns hstand) f).trans (h.others f hf)

theorem linkDown_eq (s : State) : s.linkDown = s.workDropped.flrAll.postedDropped.clearLink.landWaiting := rfl

theorem workDropped_exposed (s : State) (k : Nat) : s.workDropped.exposed k = s.exposed k := by
  have hmode : s.workDropped.mode = s.mode := congrArg Standing.mode (standing_workDropped s)
  have hcfg : s.workDropped.cfg = s.cfg := congrArg Standing.cfg (standing_workDropped s)
  unfold State.exposed State.lastFn
  rw [hmode, hcfg]

theorem fallsTo_linkDown (s : State) : FallsTo (fun f => s.exposed f.val = true) s s.linkDown := by
  have hflr : FlrOf (fun f => s.exposed f.val = true) s.workDropped s.workDropped.flrAll.postedDropped :=
    ((flrOf_flrAll _).trans (flrOf_postedDropped _)).congr fun f => by rw [or_false, workDropped_exposed]
  rw [linkDown_eq]
  exact hflr.fallsTo.untouched (standing_landWaiting _) (untouched_landWaiting _) (landWaiting_fc _)

/-- The model's reading: in M5 and M6 the link alone starts over. -/
theorem fallsTo_tests (s : State) : FallsTo (fun _ => False) s s.workDropped.clearLink :=
  FlrOf.fallsTo (.of_standing rfl id)

/-! ### Entry to Detect -/

/-- R126, R130: in Detect the state differs from `s` in the link's part of Detect and in its lanes only. -/
structure Detects (s t : State) : Prop where
  standing : t.standing = { s.standing with link := t.link, lanes := t.lanes, dll := { s.dll with retrain := false } }
  detect : t.link.st = .detect
  width : t.link.width = 0
  fc : t.fc = s.fc
  txq : t.txq = s.txq
  reqs : t.reqs = s.reqs
  fns : t.fns = s.fns
  hearths : t.hearths = s.hearths

/-- R126, R130: the link in Detect, before its lanes acquire and wake. -/
def State.atDetect (s : State) : State :=
  { s.saveTaps with
    link := { s.saveTaps.link with
      st := .detect, keeper := false, width := 0, rate := .g2p5, reversed := false, txL0s := false, rxL0s := false,
      l1Asked := false, clkreqReleased := false, precoding := false }
    dll := { s.saveTaps.dll with retrain := false } }

/-- A lane with its domain ON acquires at 2.5 GT/s. -/
def State.acquireHost (s : State) (i : Fin 16) : State :=
  if (s.dom (rxDom i)).isOn then s.modLane (hostLane i) fun x => x.acquire false else s

theorem enterDetect_eq {s : State} (h : s.mode.exposes = true) :
    let s3 := forList s.atDetect.linkLanes (fun i s => s.acquireHost i) s.atDetect
    let s4 := forList s3.linkLanes (fun i s => s.presentWake 16 (txDom i)) s3
    s.enterDetect = (forList s4.linkLanes (fun i s => s.presentWake 16 (rxDom i)) s4).woken := if_pos h

theorem detects_of_link (s : State) {l : HostLink} (hst : l.st = .detect) (hwidth : l.width = 0) :
    Detects s { s with link := l, dll := { s.dll with retrain := false } } := ⟨rfl, hst, hwidth, rfl, rfl, rfl, rfl, rfl⟩

theorem detects_atDetect (s : State) : Detects s s.atDetect :=
  detects_of_link s (l := s.atDetect.link) rfl rfl

theorem Detects.woken {s t : State} (h : Detects s t) : Detects s t.woken :=
  ⟨h.standing, h.detect, h.width, h.fc, h.txq, h.reqs, h.fns, h.hearths⟩

/-- A change of lanes and items alone stays in Detect. -/
theorem Detects.forLanes {α : Type} (l : List α) (f : α → State → State)
    (hstand : ∀ x t, (f x t).standing = { t.standing with lanes := (f x t).lanes })
    (hkept : ∀ x t, (f x t).fc = t.fc ∧ (f x t).txq = t.txq ∧ (f x t).reqs = t.reqs ∧ (f x t).fns = t.fns ∧
      (f x t).hearths = t.hearths) {s t : State} (h : Detects s t) : Detects s (forList l f t) := by
  induction l generalizing t with
  | nil => exact h
  | cons x l ih =>
    refine ih ?_
    obtain ⟨hfc, htxq, hreqs, hfns, hhearths⟩ := hkept x t
    have hlink : (f x t).link = t.link := congrArg Standing.link (hstand x t)
    exact
      { standing := by rw [hstand x t, h.standing, hlink]
        detect := by rw [hlink, h.detect]
        width := by rw [hlink, h.width]
        fc := hfc.trans h.fc
        txq := htxq.trans h.txq
        reqs := hreqs.trans h.reqs
        fns := hfns.trans h.fns
        hearths := hhearths.trans h.hearths }

theorem presentWake_kept (s : State) (port : PortId) (d : DomainId) : (s.presentWake port d).fc = s.fc ∧
    (s.presentWake port d).txq = s.txq ∧ (s.presentWake port d).reqs = s.reqs ∧ (s.presentWake port d).fns = s.fns ∧
    (s.presentWake port d).hearths = s.hearths := by
  unfold State.presentWake
  (repeat' split) <;> exact ⟨rfl, rfl, rfl, rfl, rfl⟩

theorem presentWake_standing (s : State) (port : PortId) (d : DomainId) :
    (s.presentWake port d).standing = { s.standing with lanes := (s.presentWake port d).lanes } := by
  have hlanes : (s.presentWake port d).lanes = s.lanes := congrArg Standing.lanes (standing_presentWake s port d)
  rw [standing_presentWake, hlanes]
  rfl

theorem acquireHost_kept (s : State) (i : Fin 16) : (s.acquireHost i).fc = s.fc ∧ (s.acquireHost i).txq = s.txq ∧
    (s.acquireHost i).reqs = s.reqs ∧ (s.acquireHost i).fns = s.fns ∧ (s.acquireHost i).hearths = s.hearths := by
  unfold State.acquireHost
  split <;> exact ⟨rfl, rfl, rfl, rfl, rfl⟩

theorem acquireHost_standing (s : State) (i : Fin 16) :
    (s.acquireHost i).standing = { s.standing with lanes := (s.acquireHost i).lanes } := by
  unfold State.acquireHost
  split <;> rfl

theorem detects_enterDetect {s : State} (h : s.mode.exposes = true) : Detects s s.enterDetect := by
  rw [enterDetect_eq h]
  refine (Detects.forLanes _ _ (fun i t => presentWake_standing t 16 (rxDom i)) (fun i t => presentWake_kept t 16 (rxDom i)) ?_).woken
  refine Detects.forLanes _ _ (fun i t => presentWake_standing t 16 (txDom i)) (fun i t => presentWake_kept t 16 (txDom i)) ?_
  exact (detects_atDetect s).forLanes _ _ (fun i t => acquireHost_standing t i) (fun i t => acquireHost_kept t i)

/-! ### The obligation -/

/-- The functions that a link reset resets: the exposed ones, and none in M5 and M6. -/
def State.falls (s : State) (f : FnId) : Prop := s.mode.tests = false ∧ s.exposed f.val = true

theorem linkFall_spec {s : State} (h : s.hostLinkUp = true) :
    ∃ t, FallsTo s.falls s t ∧ Detects t s.linkFall := by
  simp only [State.hostLinkUp, Bool.and_eq_true] at h
  obtain ⟨⟨⟨-, hexposes⟩, -⟩, hgate⟩ := h
  have hdetect : ∀ t, FallsTo s.falls s t → Detects t (if t.gate then t.enterDetect else t) := fun t ht => by
    have hg : t.gate = s.gate := congrArg Standing.gate ht.standing
    have hm : t.mode = s.mode := congrArg Standing.mode ht.standing
    rw [hg, if_pos hgate]
    exact detects_enterDetect (by rw [hm, hexposes])
  have hfalls : FallsTo s.falls s (if s.mode.tests then s.workDropped.clearLink else s.linkDown) := by
    unfold State.falls
    split
    next ht => simpa [ht] using fallsTo_tests s
    next ht => simpa [ht] using fallsTo_linkDown s
  exact ⟨_, hfalls, hdetect _ hfalls⟩

/-- Settles O35: the FLR of every exposed function, once tags and requests are gone, leaves everything else of the link standing
but what starts over; the entry to Detect adds the link's state and its lanes. -/
theorem linkFalls : Obligations.LinkFalls := by
  unfold Obligations.LinkFalls
  intro cause s hup
  obtain ⟨t, hfall, hdetect⟩ := linkFall_spec hup
  have hexec : exec (.linkReset cause) s = .next s.linkFall := by
    cases cause <;> exact if_pos hup
  have hfn : ∀ f, s.linkFall.fn f = t.fn f := fun f => congrArg (vget · f) hdetect.fns
  have hreset : { t.dll with retrain := false } = Dll.reset := by
    have hd : t.dll = Dll.reset := congrArg Standing.dll hfall.standing
    rw [hd]
    rfl
  have hstanding : s.linkFall.standing = { s.standing with
      dll := Dll.reset, tags := [], link := s.linkFall.link, lanes := s.linkFall.lanes, fns := steadyFns s.linkFall.fns,
      hearths := steadyHearths s.linkFall.hearths } := by
    rw [hdetect.standing, hreset, hfall.standing, hdetect.fns, hdetect.hearths]
  refine ⟨_, hexec, congrArg Standing.dll hstanding, hdetect.fc.trans hfall.fc, hdetect.txq.trans hfall.txq, hdetect.reqs.trans hfall.reqs,
    congrArg Standing.tags hstanding, ⟨hdetect.detect, hdetect.width⟩, fun hmode f hf => ?_, fun f hf => ?_, fun n => ?_, hstanding⟩
  · rw [hfn]
    exact hfall.reset f ⟨hmode, hf⟩
  · rw [hfn]
    refine hfall.others f fun hfalls => ?_
    obtain h | h := hf
    · exact Bool.false_ne_true (hfalls.1.symm.trans h)
    · exact Bool.false_ne_true (h.symm.trans hfalls.2)
  · have hfit : (s.linkFall.hearth n).fitted = (s.hearth n).fitted := by
      rw [State.hearth, hdetect.hearths]
      exact hfall.fitted n
    exact ⟨congrArg (·.1) hfit, congrArg (·.2.1) hfit, congrArg (·.2.2) hfit⟩

end Sys2Proof.Machine
end

-- ==== Proofs of 06_host_lanes_and_bellows: training of the host link ====
section
/-! Training and equalization of the host link (R122 to R126, R130, R131, R138, R327): what each stage of a training writes, and
what it leaves as it is. -/

namespace Sys2Proof.Machine

open Sys2Proof

/-! ### Lists of steps -/

/-- What every step of a list keeps holds after the list. -/
theorem forList_inv {α : Type} {P : State → Prop} {l : List α} {f : α → State → State}
    (hkeep : ∀ x ∈ l, ∀ s, P s → P (f x s)) {s : State} (h : P s) : P (forList l f s) := by
  induction l generalizing s with
  | nil => exact h
  | cons x l ih => exact ih (fun y hy => hkeep y (List.mem_cons_of_mem x hy)) (hkeep x List.mem_cons_self s h)

/-- What the step of one element brings about while `Q` stands, and no step of the list undoes, holds after the list. -/
theorem forList_of_mem_while {α : Type} {P Q : State → Prop} {l : List α} {f : α → State → State} {x : α} (hx : x ∈ l)
    (hmake : ∀ s, Q s → P (f x s)) (hkeep : ∀ y ∈ l, ∀ s, P s → P (f y s)) (hstands : ∀ y ∈ l, ∀ s, Q s → Q (f y s)) {s : State}
    (h : Q s) : P (forList l f s) := by
  obtain ⟨l1, l2, rfl⟩ := List.append_of_mem hx
  have hsplit : forList (l1 ++ x :: l2) f s = forList l2 f (f x (forList l1 f s)) := by
    simp only [forList, List.foldl_append, List.foldl_cons]
  rw [hsplit]
  refine forList_inv (fun y hy => hkeep y (List.mem_append_right l1 (List.mem_cons_of_mem x hy))) (hmake _ ?_)
  exact forList_inv (fun y hy => hstands y (List.mem_append_left _ hy)) h

theorem forList_of_mem {α : Type} {P : State → Prop} {l : List α} {f : α → State → State} {x : α} (hx : x ∈ l)
    (hmake : ∀ s, P (f x s)) (hkeep : ∀ y ∈ l, ∀ s, P s → P (f y s)) (s : State) : P (forList l f s) :=
  forList_of_mem_while (Q := fun _ => True) hx (fun s _ => hmake s) hkeep (fun _ _ _ => id) trivial

/-! ### Host lanes -/

theorem hostLane_inj {i j : Fin 16} (h : hostLane i = hostLane j) : i = j := Fin.ext (congrArg (fun l : LaneId => l.val) h)

theorem hostLane_ne_of_ge {l : LaneId} (h : 16 ≤ l.val) (i : Fin 16) : l ≠ hostLane i := fun he => by
  have hval : l.val = i.val := congrArg Fin.val he
  omega

theorem rxLane_txDom (i : Fin 16) : rxLane (txDom i) = none := by revert i; decide
theorem rxLane_rxDom (i : Fin 16) : rxLane (rxDom i) = some (hostLane i) := by revert i; decide
theorem txDom_ne_rxDom (i : Fin 16) : txDom i ≠ rxDom i := by revert i; decide
theorem txDom_ne_bellows (i : Fin 16) : (txDom i).val ≠ 160 := by revert i; decide
theorem rxDom_ne_bellows (i : Fin 16) : (rxDom i).val ≠ 160 := by revert i; decide

theorem DomState.fall_isOn (x : DomState) (now : Tally) : (x.fall now).isOn = false := by cases x <;> rfl

section HostLanes

variable (s : State)

theorem keptAt_hostLane (i : Fin 16) (r : Rate) : s.keptAt (hostLane i) r = vget (vget s.link.kept i) (rateIdx r) :=
  dif_pos i.isLt

/-- R131: the record of a lane depends on the link's records alone. -/
theorem keptAt_congr {s t : State} (h : t.link.kept = s.link.kept) (l : LaneId) (r : Rate) : t.keptAt l r = s.keptAt l r := by
  unfold State.keptAt
  rw [h]

theorem trainedLanes_congr {s t : State} (hmode : t.mode = s.mode) (hwidth : t.link.width = s.link.width)
    (hrev : t.link.reversed = s.link.reversed) : t.trainedLanes = s.trainedLanes := by
  unfold State.trainedLanes State.physical
  rw [hmode, hwidth, hrev]

theorem linkLanes_congr {s t : State} (hmode : t.mode = s.mode) (hcfg : t.cfg = s.cfg) (htests : t.tests = s.tests) :
    t.linkLanes = s.linkLanes := by
  unfold State.linkLanes State.linkLane State.maxWidth State.test
  rw [hmode, hcfg, htests]

/-- R123, R130: a lane that goes off reads OFF, and no other lane changes. -/
theorem sleepLane_lane (i : Fin 16) (l : LaneId) :
    (s.sleepLane i).lane l = if l = hostLane i then { (s.lane l).noTargets with st := .off } else s.lane l := by
  have htx : (s.sleepDom (txDom i)).lane l = s.lane l := by
    unfold State.sleepDom
    rw [rxLane_txDom]
    rfl
  rw [← htx]
  unfold State.sleepLane
  generalize s.sleepDom (txDom i) = t
  unfold State.sleepDom
  rw [rxLane_rxDom]
  refine (lane_modLane _ _ _ _).trans ?_
  split
  next h => rw [h]; rfl
  next => rfl

theorem sleepLane_dom (i : Fin 16) (d : DomainId) (h : (s.dom d).isOn = false) : ((s.sleepLane i).dom d).isOn = false := by
  have hfalls : ∀ (t : State) (e : DomainId), (t.dom d).isOn = false → ((t.sleepDom e).dom d).isOn = false := fun t e ht => by
    rw [sleepDom_dom]
    split
    · exact DomState.fall_isOn _ _
    · exact ht
  exact hfalls _ _ (hfalls s _ h)

/-- R123, R130: neither direction of the lane is ON. -/
theorem sleepLane_down (i : Fin 16) : ((s.sleepLane i).dom (txDom i)).isOn = false ∧ ((s.sleepLane i).dom (rxDom i)).isOn = false := by
  unfold State.sleepLane
  rw [sleepDom_dom, if_neg (txDom_ne_rxDom i), sleepDom_dom, if_pos rfl, sleepDom_dom, if_pos rfl]
  exact ⟨DomState.fall_isOn _ _, DomState.fall_isOn _ _⟩

end HostLanes

/-! ### A state that differs in its lanes and domains -/

/-- The state `s` with the lanes and domains of another one. -/
def State.withLanes (s t : State) : State := { s with lanes := t.lanes, doms := t.doms }

section WithLanes

variable {s t u : State}

theorem withLanes_step (h : t = s.withLanes t) (k : u = t.withLanes u) : u = s.withLanes u :=
  k.trans (congrArg (·.withLanes u) h)

theorem withLanes_modLane (s : State) (l : LaneId) (g : Lane → Lane) : s.modLane l g = s.withLanes (s.modLane l g) := rfl

theorem withLanes_sleepDom (s : State) (d : DomainId) : s.sleepDom d = s.withLanes (s.sleepDom d) := by
  unfold State.sleepDom
  dsimp only
  split <;> rfl

theorem withLanes_bellowsPower (s : State) : s.bellowsPower = s.withLanes s.bellowsPower := by
  unfold State.bellowsPower
  split <;> rfl

theorem withLanes_sleepLane (s : State) (i : Fin 16) : s.sleepLane i = s.withLanes (s.sleepLane i) :=
  withLanes_step (withLanes_sleepDom s _) (withLanes_sleepDom _ _)

theorem withLanes_forList {α : Type} (l : List α) (f : α → State → State) (h : ∀ x t, f x t = t.withLanes (f x t)) (s : State) :
    forList l f s = s.withLanes (forList l f s) :=
  forList_inv (P := fun t => t = s.withLanes t) (fun x _ t ht => withLanes_step ht (h x t)) rfl

end WithLanes

/-! ### A lane of the link at the end of a training -/

section SettleLane

variable (s : State) (old r : Rate) (i : Fin 16)

theorem settleLane_modLane : ∃ g, s.settleLane old r i = s.modLane (hostLane i) g ∧
    (old ≠ r → ∀ x, (g x).st = .acquiring ∨ (g x).st = .tracking) := by
  unfold State.settleLane
  dsimp only
  split
  next h => exact ⟨_, rfl, fun hne => absurd h hne⟩
  next =>
    split
    next k _ =>
      refine ⟨_, rfl, fun _ x => ?_⟩
      cases k.tracked
      · exact .inl rfl
      · exact .inr rfl
    next => exact ⟨_, rfl, fun _ _ => .inl rfl⟩

theorem withLanes_settleLane : s.settleLane old r i = s.withLanes (s.settleLane old r i) := by
  obtain ⟨g, hg, -⟩ := settleLane_modLane s old r i
  rw [hg]
  rfl

theorem settleLane_lane_ne {l : LaneId} (h : l ≠ hostLane i) : (s.settleLane old r i).lane l = s.lane l := by
  obtain ⟨g, hg, -⟩ := settleLane_modLane s old r i
  rw [hg, lane_modLane, if_neg h]

/-- R126, R131: a lane at a new rate acquires, or goes on with kept taps. -/
theorem settleLane_st (h : old ≠ r) :
    ((s.settleLane old r i).lane (hostLane i)).st = .acquiring ∨ ((s.settleLane old r i).lane (hostLane i)).st = .tracking := by
  obtain ⟨g, hg, hst⟩ := settleLane_modLane s old r i
  rw [hg, lane_modLane_self]
  exact hst h _

end SettleLane

/-! ### The link trained -/

/-- The state `s` with the link's records of another one. -/
def State.withKept (s t : State) : State := { s with link := { s.link with kept := t.link.kept } }

theorem withKept_saveTaps (s : State) : s.saveTaps = s.withKept s.saveTaps := by
  unfold State.saveTaps
  rfl

section Trained

variable (s : State) (w : Nat) (reversed : Bool) (rate : Rate) (inverted : BitVec 16)

/-- R131: taps are filed with the rate they were gathered at. -/
def State.filed (s : State) (rate : Rate) : State := if s.link.rate = rate then s.saveTaps else s

theorem filed_eq : s.filed rate = { s with link := (s.filed rate).link } := by
  unfold State.filed
  split
  · exact saveTaps_eq s
  · rfl

theorem filed_link : (s.filed rate).link = { s.link with kept := (s.filed rate).link.kept } := by
  unfold State.filed
  split <;> rfl

/-- R122, R123: the link's part of the end of a training. -/
def State.inL0 (s : State) (w : Nat) (reversed : Bool) (rate : Rate) (inverted : BitVec 16) : State :=
  { s with
    link := { (s.filed rate).link with
      st := .l0, keeper := false, width := w, reversed := reversed, rate := rate, inverted := inverted, txL0s := false,
      rxL0s := false, l1Asked := false, fcTick := s.now }
    dll := { s.dll with retrain := false } }

/-- R126, R131: the lanes of the trained width settle. -/
def State.lanesSettled (s : State) (w : Nat) (reversed : Bool) (rate : Rate) (inverted : BitVec 16) : State :=
  forList (s.inL0 w reversed rate inverted).trainedLanes (fun i t => t.settleLane s.link.rate rate i) (s.inL0 w reversed rate inverted)

/-- R123: the lanes outside the trained width that no test keeps ON. -/
def State.outLanes (s : State) : List (Fin 16) :=
  allHostLanes.filter fun i => !s.trainedLanes.contains i && !(s.test (hostLane i)).underTest s.mode

theorem trained_eq : s.trained w reversed rate inverted =
    (forList (s.lanesSettled w reversed rate inverted).outLanes (fun i t => t.sleepLane i)
      (s.lanesSettled w reversed rate inverted)).bellowsPower := by
  unfold State.trained State.lanesSettled State.inL0 State.filed
  split
  · generalize hsaved : s.saveTaps = t
    have heq : t = s.withKept t := hsaved ▸ withKept_saveTaps s
    rw [State.withKept] at heq
    generalize t.link.kept = k at heq
    subst heq
    rfl
  · rfl

theorem withLanes_lanesSettled : s.lanesSettled w reversed rate inverted =
    (s.inL0 w reversed rate inverted).withLanes (s.lanesSettled w reversed rate inverted) :=
  withLanes_forList _ _ (fun i t => withLanes_settleLane t _ _ i) _

/-- R122: but for lanes and domains, training writes the link's part. -/
theorem withLanes_trained : s.trained w reversed rate inverted =
    (s.inL0 w reversed rate inverted).withLanes (s.trained w reversed rate inverted) := by
  rw [trained_eq]
  exact withLanes_step (withLanes_step (withLanes_lanesSettled s w reversed rate inverted)
    (withLanes_forList _ _ (fun i t => withLanes_sleepLane t i) _)) (withLanes_bellowsPower _)

theorem withLanes_trainedLanes (s t : State) : (s.withLanes t).trainedLanes = s.trainedLanes := rfl

theorem lanesSettled_trainedLanes : (s.lanesSettled w reversed rate inverted).trainedLanes =
    (s.inL0 w reversed rate inverted).trainedLanes := by
  rw [withLanes_lanesSettled, withLanes_trainedLanes]

theorem trained_trainedLanes : (s.trained w reversed rate inverted).trainedLanes =
    (s.inL0 w reversed rate inverted).trainedLanes := by
  rw [withLanes_trained, withLanes_trainedLanes]

theorem mem_outLanes {i : Fin 16} : i ∈ (s.lanesSettled w reversed rate inverted).outLanes ↔
    i ∉ (s.inL0 w reversed rate inverted).trainedLanes ∧ (s.test (hostLane i)).underTest s.mode = false := by
  have htest : ((s.lanesSettled w reversed rate inverted).test (hostLane i)).underTest (s.lanesSettled w reversed rate inverted).mode =
      (s.test (hostLane i)).underTest s.mode := by
    rw [withLanes_lanesSettled]
    rfl
  unfold State.outLanes allHostLanes
  rw [List.mem_filter, lanesSettled_trainedLanes, htest]
  simp

theorem bellowsPower_lane (l : LaneId) : s.bellowsPower.lane l = s.lane l := by
  unfold State.bellowsPower
  split <;> rfl

/-- R123: a lane outside the trained width, not under test, is OFF in both directions. -/
theorem trained_out {i : Fin 16} (hout : i ∉ (s.trained w reversed rate inverted).trainedLanes)
    (htest : (s.test (hostLane i)).underTest s.mode = false) :
    ((s.trained w reversed rate inverted).lane (hostLane i)).st = .off ∧
      ((s.trained w reversed rate inverted).dom (txDom i)).isOn = false ∧
      ((s.trained w reversed rate inverted).dom (rxDom i)).isOn = false := by
  rw [trained_trainedLanes] at hout
  have hmem := (mem_outLanes s w reversed rate inverted).mpr ⟨hout, htest⟩
  rw [trained_eq, bellowsPower_lane, bellowsPower_dom _ (txDom_ne_bellows i), bellowsPower_dom _ (rxDom_ne_bellows i)]
  refine forList_of_mem (f := fun i (t : State) => t.sleepLane i)
    (P := fun t => (t.lane (hostLane i)).st = .off ∧ (t.dom (txDom i)).isOn = false ∧ (t.dom (rxDom i)).isOn = false)
    hmem (fun t => ⟨?_, sleepLane_down t i⟩) (fun j _ t ⟨hst, htx, hrx⟩ => ⟨?_, sleepLane_dom t j _ htx, sleepLane_dom t j _ hrx⟩) _
  · rw [sleepLane_lane, if_pos rfl]
  · rw [sleepLane_lane]
    split
    · rfl
    · exact hst

/-- R126, R131: at a new rate every lane of the width acquires or goes on with kept taps. -/
theorem trained_newRate (hrate : s.link.rate ≠ rate) {i : Fin 16} (hi : i ∈ (s.trained w reversed rate inverted).trainedLanes) :
    ((s.trained w reversed rate inverted).lane (hostLane i)).st = .acquiring ∨
      ((s.trained w reversed rate inverted).lane (hostLane i)).st = .tracking := by
  rw [trained_trainedLanes] at hi
  rw [trained_eq, bellowsPower_lane]
  refine forList_inv (f := fun i (t : State) => t.sleepLane i)
    (P := fun t => (t.lane (hostLane i)).st = .acquiring ∨ (t.lane (hostLane i)).st = .tracking) (fun j hj t ht => ?_) ?_
  · have hne : hostLane i ≠ hostLane j := fun he => by
      rw [hostLane_inj he] at hi
      exact ((mem_outLanes s w reversed rate inverted).mp hj).1 hi
    rwa [sleepLane_lane, if_neg hne]
  · refine forList_of_mem (f := fun i (t : State) => t.settleLane s.link.rate rate i)
      (P := fun t => (t.lane (hostLane i)).st = .acquiring ∨ (t.lane (hostLane i)).st = .tracking) hi
      (fun t => settleLane_st t _ _ i hrate) (fun j _ t ht => ?_) _
    by_cases he : hostLane i = hostLane j
    · rw [hostLane_inj he]
      exact settleLane_st t _ _ j hrate
    · rwa [settleLane_lane_ne _ _ _ _ he]

theorem trained_lane_ge {l : LaneId} (hl : 16 ≤ l.val) : (s.trained w reversed rate inverted).lane l = s.lane l := by
  rw [trained_eq, bellowsPower_lane]
  refine (forList_eq (fun t : State => t.lane l) _ (fun i t => t.sleepLane i) (fun i t => ?_) _).trans
    (forList_eq (fun t : State => t.lane l) _ _ (fun i t => settleLane_lane_ne t _ _ i (hostLane_ne_of_ge hl i)) _)
  rw [sleepLane_lane, if_neg (hostLane_ne_of_ge hl i)]

end Trained

/-! ### The transmitters -/

section TakeTx

variable (s : State) (i : Fin 16) (r : Rate) (ask : Option TxEq)

theorem withKept_takeTx : s.takeTx i r ask = s.withKept (s.takeTx i r ask) := by
  unfold State.takeTx
  dsimp only
  (repeat' split) <;> rfl

theorem withKept_takeAll (l : List (Fin 16)) (asked : Fin 16 → Option TxEq) :
    forList l (fun i t => t.takeTx i r (asked i)) s = s.withKept (forList l (fun i t => t.takeTx i r (asked i)) s) :=
  forList_inv (P := fun t => t = s.withKept t)
    (fun j _ t ht => (withKept_takeTx t j r (asked j)).trans (congrArg (·.withKept (t.takeTx j r (asked j))) ht)) rfl

theorem takeTx_kept_ne {j : Fin 16} (h : j ≠ i) : (s.takeTx i r ask).keptAt (hostLane j) r = s.keptAt (hostLane j) r := by
  unfold State.takeTx
  dsimp only
  (repeat' split)
  · rfl
  · rw [keptAt_hostLane, keptAt_hostLane]
    exact congrArg (vget · (rateIdx r)) (vget_vmod_ne _ _ _ _ h)
  · rfl

/-- R125: the record keeps what the host asked for. -/
theorem takeTx_tx {e : TxEq} (hok : TxEq.accepted e = true) (hfast : fastRate r = true) :
    ∃ k, (s.takeTx i r (some e)).keptAt (hostLane i) r = some k ∧ k.tx = some e := by
  unfold State.takeTx
  rw [keptAt_hostLane]
  dsimp only
  rw [if_pos ⟨hfast, hok⟩]
  dsimp only
  rw [vget_vmod_self, vget_vmod_self]
  split
  · exact ⟨_, rfl, rfl⟩
  · exact ⟨_, rfl, rfl⟩

theorem takeAll_tx (l : List (Fin 16)) (asked : Fin 16 → Option TxEq) {e : TxEq} (hi : i ∈ l) (hask : asked i = some e)
    (hok : TxEq.accepted e = true) (hfast : fastRate r = true) :
    ∃ k, (forList l (fun i t => t.takeTx i r (asked i)) s).keptAt (hostLane i) r = some k ∧ k.tx = some e := by
  have hmake : ∀ t : State, ∃ k, (t.takeTx i r (asked i)).keptAt (hostLane i) r = some k ∧ k.tx = some e := fun t => by
    rw [hask]
    exact takeTx_tx t i r hok hfast
  refine forList_of_mem (f := fun i (t : State) => t.takeTx i r (asked i))
    (P := fun t => ∃ k, t.keptAt (hostLane i) r = some k ∧ k.tx = some e) hi hmake (fun j _ t ht => ?_) s
  by_cases hj : i = j
  · subst hj
    exact hmake t
  · rwa [takeTx_kept_ne _ _ _ _ hj]

end TakeTx

/-! ### Recovery -/

section Recovery

variable (s : State)

/-- R138: the link in Recovery, before its lanes acquire. -/
def State.atRecovery (s : State) : State :=
  { s with
    link := { s.link with st := .recovery, txL0s := false, rxL0s := false, l1Asked := false, kept := s.saveTaps.link.kept }
    dll := { s.dll with retrain := true } }

/-- R138: a lane whose receiver is ON acquires. -/
def State.acquireAgain (s : State) (i : Fin 16) : State :=
  s.modLane (hostLane i) fun x => if (s.dom (rxDom i)).isOn then { x.noTargets with st := .acquiring } else x

theorem enterRecovery_eq : s.enterRecovery = forList s.trainedLanes (fun i t => t.acquireAgain i) s.atRecovery := by
  have hsaved := withKept_saveTaps s
  unfold State.enterRecovery State.atRecovery
  generalize s.saveTaps = t at hsaved ⊢
  rw [State.withKept] at hsaved
  generalize t.link.kept = k at hsaved ⊢
  subst hsaved
  rfl

theorem withLanes_enterRecovery : s.enterRecovery = s.atRecovery.withLanes s.enterRecovery := by
  rw [enterRecovery_eq]
  exact withLanes_forList _ _ (fun i t => withLanes_modLane t _ _) _

theorem acquireAgain_doms (i : Fin 16) : (s.acquireAgain i).doms = s.doms := rfl

theorem enterRecovery_doms : s.enterRecovery.doms = s.doms := by
  rw [enterRecovery_eq]
  exact forList_eq State.doms s.trainedLanes (fun i t => t.acquireAgain i) (fun i t => acquireAgain_doms t i) s.atRecovery

/-- R138: every lane of the link whose receiver is ON acquires. -/
theorem enterRecovery_lane {i : Fin 16} (hi : i ∈ s.trainedLanes) (hon : (s.dom (rxDom i)).isOn = true) :
    (s.enterRecovery.lane (hostLane i)).st = .acquiring := by
  rw [enterRecovery_eq]
  refine forList_of_mem_while (f := fun i (t : State) => t.acquireAgain i) (P := fun t => (t.lane (hostLane i)).st = .acquiring)
    (Q := fun t => (t.dom (rxDom i)).isOn = true) hi (fun t ht => ?_) (fun j _ t ht => ?_) (fun _ _ _ ht => ht) hon
  · rw [State.acquireAgain, lane_modLane_self, if_pos ht]
  · rw [State.acquireAgain, lane_modLane]
    split
    next he =>
      rw [he] at ht
      split
      · rfl
      · exact ht
    next => exact ht

theorem enterRecovery_lane_ne {l : LaneId} (h : ∀ i ∈ s.trainedLanes, l ≠ hostLane i) : s.enterRecovery.lane l = s.lane l := by
  rw [enterRecovery_eq]
  refine forList_inv (f := fun i (t : State) => t.acquireAgain i) (P := fun t => t.lane l = s.lane l) (fun j hj t ht => ?_) rfl
  unfold State.acquireAgain
  rw [lane_modLane, if_neg (h j hj), ht]

theorem enterRecovery_standing : s.enterRecovery.standing = { s.standing with
    link := s.enterRecovery.link, dll := { s.dll with retrain := true }, lanes := s.enterRecovery.lanes } := by
  rw [withLanes_enterRecovery, State.withLanes, enterRecovery_doms]
  rfl

theorem enterRecovery_link : s.enterRecovery.link = s.atRecovery.link := by
  rw [withLanes_enterRecovery]
  rfl

end Recovery

/-! ### The end of a training -/

/-- R122, R123: the width tried, plain before reversed. -/
def State.tryWidth (s : State) (lanes : BitVec 16) (w : Nat) : Option (Nat × Bool) :=
  if s.widthTrains lanes w false then some (w, false)
  else if !s.mode.tests && s.widthTrains lanes w true then some (w, true)
  else none

section Width

variable (s : State) (lanes : BitVec 16)

def State.widths (s : State) : List Nat := [16, 8, 4, 2, 1].filter fun w => decide (w ≤ s.maxWidth)

theorem bestWidth_eq : s.bestWidth lanes = s.widths.findSome? (s.tryWidth lanes) := rfl

theorem tryWidth_some {w v : Nat} {rev : Bool} (h : s.tryWidth lanes w = some (v, rev)) : v = w ∧ s.widthTrains lanes v rev = true ∧
    (s.widthTrains lanes v false = true → rev = false) := by
  unfold State.tryWidth at h
  split at h
  next hplain =>
    cases h
    exact ⟨rfl, hplain, fun _ => rfl⟩
  next hplain =>
    split at h
    next hrev =>
      cases h
      exact ⟨rfl, (Bool.and_eq_true_iff.mp hrev).2, fun hp => absurd hp hplain⟩
    next => cases h

theorem tryWidth_ne_none {w : Nat} {rev : Bool} (h : s.widthTrains lanes w rev = true) (hrev : rev = true → s.mode.tests = false) :
    s.tryWidth lanes w ≠ none := by
  unfold State.tryWidth
  cases rev with
  | false => simp [h]
  | true =>
    simp only [h, hrev rfl]
    split <;> simp

/-- The widths are tried from the widest down. -/
theorem widths_sorted : s.widths.Pairwise (· ≥ ·) := List.Pairwise.filter _ (by decide)

/-- R122, R123: training finds a width no narrower than any that trains, unreversed if it can be. -/
theorem bestWidth_spec {w : Nat} {rev : Bool} (hmem : w ∈ [16, 8, 4, 2, 1]) (hmax : w ≤ s.maxWidth)
    (htrains : s.widthTrains lanes w rev = true) (hrev : rev = true → s.mode.tests = false) :
    ∃ v r, s.bestWidth lanes = some (v, r) ∧ w ≤ v ∧ v ≤ s.maxWidth ∧ s.widthTrains lanes v r = true ∧
      (s.widthTrains lanes v false = true → r = false) := by
  have hw : w ∈ s.widths := List.mem_filter.mpr ⟨hmem, by simpa using hmax⟩
  have hfound : s.bestWidth lanes ≠ none := fun hnone =>
    tryWidth_ne_none s lanes htrains hrev (List.findSome?_eq_none_iff.mp ((bestWidth_eq s lanes).symm.trans hnone) w hw)
  obtain ⟨⟨v, r⟩, hbest⟩ := Option.ne_none_iff_exists'.mp hfound
  obtain ⟨l1, a, l2, hl, ha, hbefore⟩ := List.findSome?_eq_some_iff.mp ((bestWidth_eq s lanes).symm.trans hbest)
  obtain ⟨rfl, hv, hplain⟩ := tryWidth_some s lanes ha
  have hvmem : v ∈ s.widths := by rw [hl]; simp
  have hle : w ≤ v := by
    have hsorted := widths_sorted s
    rw [hl] at hw hsorted
    obtain hw | hw | hw := (List.mem_append.mp hw).imp_right List.mem_cons.mp
    · exact absurd (hbefore w hw) (tryWidth_ne_none s lanes htrains hrev)
    · exact hw.le
    · exact (List.pairwise_cons.mp (List.pairwise_append.mp hsorted).2.1).1 w hw
  exact ⟨v, r, hbest, hle, by simpa using (List.mem_filter.mp hvmem).2, hv, hplain⟩

end Width

section Training

variable (s : State)

/-- R130: training starts from Detect, L0 or Recovery. -/
def State.trainsFrom (s : State) : Prop :=
  s.link.st = .l0 ∨ s.link.st = .recovery ∨ (s.link.st = .detect ∧ s.detectQuietDone = true)

/-- R152, R155, R138: credits start over after Detect; from L0 the link goes through Recovery. -/
def State.trainingBegun (s : State) (limits : TxLimits) : State :=
  if s.link.st = .detect then s.startFc limits else if s.link.st = .l0 then s.enterRecovery else s

/-- What the beginning of a training leaves as it is. -/
structure Begun (s t : State) (limits : TxLimits) : Prop where
  standing : t.standing = { s.standing with link := t.link, dll := t.dll, lanes := t.lanes }
  rate : t.link.rate = s.link.rate
  dll : { t.dll with retrain := false } = { s.dll with retrain := false }
  fc : t.fc = if s.link.st = .detect then { s.fc with limits := limits, used := TxUsed.zero } else s.fc
  txq : t.txq = s.txq
  far : ∀ l : LaneId, 16 ≤ l.val → t.lane l = s.lane l

theorem begun (limits : TxLimits) : Begun s (s.trainingBegun limits) limits := by
  unfold State.trainingBegun
  split
  next h => exact ⟨rfl, rfl, rfl, (if_pos h).symm, rfl, fun _ _ => rfl⟩
  next h =>
    split
    next =>
      have heq := withLanes_enterRecovery s
      have hdll : s.enterRecovery.dll = { s.dll with retrain := true } := by rw [heq]; rfl
      refine ⟨?_, ?_, ?_, ?_, ?_, fun l hl => enterRecovery_lane_ne s fun i _ => hostLane_ne_of_ge hl i⟩
      · rw [hdll]
        exact enterRecovery_standing s
      · rw [enterRecovery_link]
        rfl
      · rw [hdll]
      · rw [if_neg h, heq]
        rfl
      · rw [heq]
        rfl
    next => exact ⟨rfl, rfl, rfl, (if_neg h).symm, rfl, fun _ _ => rfl⟩

theorem deferredLtr_standing : s.deferredLtr.standing = { s.standing with ledger := s.deferredLtr.ledger } := by
  unfold State.deferredLtr
  dsimp only
  (repeat' split) <;> rfl

theorem deferredLtr_fc : s.deferredLtr.fc = s.fc := by
  unfold State.deferredLtr
  dsimp only
  (repeat' split) <;> rfl

/-- The records with what the host asks of every lane of the width. -/
def State.termsTaken (s : State) (w : Nat) (reversed : Bool) (rate : Rate) (inverted : BitVec 16) (terms : HostTerms) : State :=
  forList (s.trained w reversed rate inverted).trainedLanes (fun i t => t.takeTx i rate (terms.asked.getD i.val none))
    (s.trained w reversed rate inverted)

def State.withPrecoding (s : State) (on : Bool) : State := { s with link := { s.link with precoding := on } }

/-- R122, R125: the link trained at width `w`, the transmitters as the host asks. -/
def State.trainedTerms (s : State) (w : Nat) (reversed : Bool) (rate : Rate) (inverted : BitVec 16) (terms : HostTerms) : State :=
  (s.termsTaken w reversed rate inverted terms).withPrecoding (terms.precode && decide (rate = Rate.g32))

theorem exec_trains {lanes : BitVec 16} {w : Nat} {reversed : Bool} (rate : Rate) (inverted : BitVec 16) (terms : HostTerms)
    (hrun : s.running = true) (hexp : s.mode.exposes = true) (hgate : s.gate = true) (hst : s.trainsFrom)
    (hbest : s.bestWidth lanes = some (w, reversed)) : exec (.linkTrainingComplete lanes rate inverted terms) s =
      .next ((s.trainingBegun terms.limits).trainedTerms w reversed (Rate.minRate rate s.cfg.hrate) inverted terms).deferredLtr.woken := by
  change execLinkTrainingComplete lanes rate inverted terms s = _
  unfold execLinkTrainingComplete State.trainedTerms State.termsTaken State.withPrecoding State.trainingBegun
  rw [if_pos ⟨hrun, hexp, hgate, hst⟩, hbest]

theorem exec_trains_none {lanes : BitVec 16} (rate : Rate) (inverted : BitVec 16) (terms : HostTerms)
    (hrun : s.running = true) (hexp : s.mode.exposes = true) (hgate : s.gate = true) (hst : s.trainsFrom)
    (hbest : s.bestWidth lanes = none) : exec (.linkTrainingComplete lanes rate inverted terms) s = .next s := by
  change execLinkTrainingComplete lanes rate inverted terms s = _
  unfold execLinkTrainingComplete
  rw [if_pos ⟨hrun, hexp, hgate, hst⟩, hbest]

end Training

section TrainedTerms

variable (s : State) (w : Nat) (reversed : Bool) (rate : Rate) (inverted : BitVec 16) (terms : HostTerms)

theorem withPrecoding_eq {a u q : State} (hu : u = a.withLanes u) (hq : q = u.withKept q) (on : Bool) :
    q.withPrecoding on = { a with
      lanes := u.lanes, doms := u.doms, link := { a.link with kept := q.link.kept, precoding := on } } := by
  rw [State.withKept] at hq
  rw [State.withLanes] at hu
  generalize q.link.kept = k at hq ⊢
  subst hq
  generalize u.lanes = l, u.doms = d at hu ⊢
  subst hu
  rfl

theorem withKept_termsTaken : s.termsTaken w reversed rate inverted terms =
    (s.trained w reversed rate inverted).withKept (s.termsTaken w reversed rate inverted terms) := by
  unfold State.termsTaken
  exact withKept_takeAll _ rate _ fun i => terms.asked.getD i.val none

/-- R122 to R125: all that a training writes. -/
theorem trainedTerms_eq : s.trainedTerms w reversed rate inverted terms = { s.inL0 w reversed rate inverted with
    lanes := (s.trained w reversed rate inverted).lanes
    doms := (s.trained w reversed rate inverted).doms
    link := { (s.inL0 w reversed rate inverted).link with
      kept := (s.termsTaken w reversed rate inverted terms).link.kept
      precoding := terms.precode && decide (rate = Rate.g32) } } := by
  unfold State.trainedTerms
  exact withPrecoding_eq (withLanes_trained s w reversed rate inverted) (withKept_termsTaken s w reversed rate inverted terms) _

theorem inL0_link : (s.inL0 w reversed rate inverted).link = { s.link with
    st := .l0, keeper := false, width := w, reversed := reversed, rate := rate, inverted := inverted, txL0s := false,
    rxL0s := false, l1Asked := false, fcTick := s.now, kept := (s.filed rate).link.kept } := by
  unfold State.inL0
  rw [filed_link]

/-- R122, R123, R125: how the link stands after a training. -/
theorem trainedTerms_link : (s.trainedTerms w reversed rate inverted terms).link = { s.link with
    st := .l0, keeper := false, width := w, reversed := reversed, rate := rate, inverted := inverted, txL0s := false,
    rxL0s := false, l1Asked := false, fcTick := s.now
    precoding := terms.precode && decide (rate = Rate.g32)
    kept := (s.termsTaken w reversed rate inverted terms).link.kept } := by
  have hlink := inL0_link s w reversed rate inverted
  rw [trainedTerms_eq]
  generalize s.inL0 w reversed rate inverted = a at hlink ⊢
  dsimp only
  rw [hlink]

theorem trainedTerms_standing : (s.trainedTerms w reversed rate inverted terms).standing = { s.standing with
    link := (s.trainedTerms w reversed rate inverted terms).link, dll := { s.dll with retrain := false }
    doms := (s.trained w reversed rate inverted).doms, lanes := (s.trained w reversed rate inverted).lanes } := by
  rw [trainedTerms_eq]
  rfl

theorem trainedTerms_fc : (s.trainedTerms w reversed rate inverted terms).fc = s.fc := by
  rw [trainedTerms_eq]
  rfl

theorem trainedTerms_txq : (s.trainedTerms w reversed rate inverted terms).txq = s.txq := by
  rw [trainedTerms_eq]
  rfl

end TrainedTerms

/-! ### The clauses of a training -/

section StandingParts

variable {t : State} {x : Standing}

theorem mode_eq_of_standing (h : t.standing = x) : t.mode = x.mode := congrArg Standing.mode h
theorem link_eq_of_standing (h : t.standing = x) : t.link = x.link := congrArg Standing.link h
theorem dll_eq_of_standing (h : t.standing = x) : t.dll = x.dll := congrArg Standing.dll h
theorem doms_eq_of_standing (h : t.standing = x) : t.doms = x.doms := congrArg Standing.doms h
theorem lanes_eq_of_standing (h : t.standing = x) : t.lanes = x.lanes := congrArg Standing.lanes h
theorem tests_eq_of_standing (h : t.standing = x) : t.tests = x.tests := congrArg Standing.tests h
theorem ledger_eq_of_standing (h : t.standing = x) : t.ledger = x.ledger := congrArg Standing.ledger h

/-- Where a state differs from another in its link's parts and ledger only, it is itself that names the difference. -/
theorem standing_own_link {l : HostLink} {d : Dll} {o : Vector DomState 162} {v : Vector Lane 32} {g : Ledger}
    (h : t.standing = { x with link := l, dll := d, doms := o, lanes := v, ledger := g }) :
    t.standing = { x with link := t.link, dll := t.dll, doms := t.doms, lanes := t.lanes, ledger := t.ledger } := by
  have hl : t.link = l := link_eq_of_standing h
  have hd : t.dll = d := dll_eq_of_standing h
  have ho : t.doms = o := doms_eq_of_standing h
  have hv : t.lanes = v := lanes_eq_of_standing h
  have hg : t.ledger = g := ledger_eq_of_standing h
  rw [hl, hd, ho, hv, hg, h]

end StandingParts

section TrainingEnds

variable (b : State) (w : Nat) (reversed : Bool) (rate : Rate) (inverted : BitVec 16) (terms : HostTerms)

/-- The state after a training at width `w`, begun in `b`. -/
def State.trainingDone (b : State) (w : Nat) (reversed : Bool) (rate : Rate) (inverted : BitVec 16) (terms : HostTerms) : State :=
  (b.trainedTerms w reversed rate inverted terms).deferredLtr.woken

theorem trainingDone_standing : (b.trainingDone w reversed rate inverted terms).standing =
    { b.standing with
      link := (b.trainedTerms w reversed rate inverted terms).link, dll := { b.dll with retrain := false }
      doms := (b.trained w reversed rate inverted).doms, lanes := (b.trained w reversed rate inverted).lanes
      ledger := (b.trainedTerms w reversed rate inverted terms).deferredLtr.ledger } := by
  rw [State.trainingDone, standing_woken, deferredLtr_standing, trainedTerms_standing]

theorem trainingDone_link : (b.trainingDone w reversed rate inverted terms).link = { b.link with
    st := .l0, keeper := false, width := w, reversed := reversed, rate := rate, inverted := inverted, txL0s := false,
    rxL0s := false, l1Asked := false, fcTick := b.now
    precoding := terms.precode && decide (rate = Rate.g32)
    kept := (b.termsTaken w reversed rate inverted terms).link.kept } := by
  rw [link_eq_of_standing (trainingDone_standing b w reversed rate inverted terms)]
  exact trainedTerms_link b w reversed rate inverted terms

theorem trainingDone_lane (l : LaneId) :
    (b.trainingDone w reversed rate inverted terms).lane l = (b.trained w reversed rate inverted).lane l :=
  congrArg (vget · l) (lanes_eq_of_standing (trainingDone_standing b w reversed rate inverted terms))

theorem trainingDone_dom (d : DomainId) :
    (b.trainingDone w reversed rate inverted terms).dom d = (b.trained w reversed rate inverted).dom d :=
  congrArg (vget · d) (doms_eq_of_standing (trainingDone_standing b w reversed rate inverted terms))

theorem trainingDone_trainedLanes : (b.trainingDone w reversed rate inverted terms).trainedLanes =
    (b.trained w reversed rate inverted).trainedLanes := by
  have hlink := trainingDone_link b w reversed rate inverted terms
  have hmode := mode_eq_of_standing (trainingDone_standing b w reversed rate inverted terms)
  rw [trained_trainedLanes]
  generalize b.trainingDone w reversed rate inverted terms = t at hlink hmode ⊢
  refine trainedLanes_congr hmode ?_ ?_ <;> rw [hlink] <;> rfl

theorem trainingDone_fc : (b.trainingDone w reversed rate inverted terms).fc = b.fc := by
  rw [State.trainingDone, woken_fc, deferredLtr_fc, trainedTerms_fc]

/-- R123: the lanes outside the width are OFF, but for those under test. -/
theorem trainingDone_out {i : Fin 16} (hi : i ∉ (b.trainingDone w reversed rate inverted terms).trainedLanes)
    (htest : (b.test (hostLane i)).underTest b.mode = false) :
    ((b.trainingDone w reversed rate inverted terms).lane (hostLane i)).st = .off ∧
      (((b.trainingDone w reversed rate inverted terms).dom (txDom i)).isOn ||
        ((b.trainingDone w reversed rate inverted terms).dom (rxDom i)).isOn) = false := by
  rw [trainingDone_trainedLanes] at hi
  obtain ⟨hst, htx, hrx⟩ := trained_out b w reversed rate inverted hi htest
  rw [trainingDone_lane, trainingDone_dom, trainingDone_dom]
  exact ⟨hst, Bool.or_eq_false_iff.mpr ⟨htx, hrx⟩⟩

/-- R125: the transmitter of a lane of the width is what the host asks. -/
theorem trainingDone_tx {i : Fin 16} {e : TxEq} (hi : i ∈ (b.trainingDone w reversed rate inverted terms).trainedLanes)
    (hask : terms.asked.getD i.val none = some e) (hok : TxEq.accepted e = true) (hfast : fastRate rate = true) :
    ∃ k, (b.trainingDone w reversed rate inverted terms).keptAt (hostLane i) rate = some k ∧ k.tx = some e := by
  rw [trainingDone_trainedLanes] at hi
  obtain ⟨k, hk, htx⟩ := takeAll_tx (b.trained w reversed rate inverted) i rate _
    (fun i => terms.asked.getD i.val none) hi hask hok hfast
  have hkept : (b.trainingDone w reversed rate inverted terms).link.kept = (b.termsTaken w reversed rate inverted terms).link.kept := by
    rw [trainingDone_link]
  exact ⟨k, (keptAt_congr hkept _ _).trans hk, htx⟩

/-- R118: with no message put off the ledger and the TLPs stand. -/
theorem trainingDone_quiet (hltr : b.ledger.ltrPending = false) :
    (b.trainingDone w reversed rate inverted terms).ledger = b.ledger ∧ (b.trainingDone w reversed rate inverted terms).txq = b.txq := by
  have hledger := ledger_eq_of_standing (trainedTerms_standing b w reversed rate inverted terms)
  have htxq := trainedTerms_txq b w reversed rate inverted terms
  rw [State.trainingDone]
  generalize b.trainedTerms w reversed rate inverted terms = t at hledger htxq ⊢
  have hl : t.ledger = b.ledger := hledger
  rw [deferredLtr_of_none t (by rw [hl, hltr])]
  exact ⟨hl, htxq⟩

end TrainingEnds

/-- R122, R123, R125, R130, R131, R327: the first clause of the obligation. -/
theorem trainingReachesWidest {lanes : BitVec 16} {rate : Rate} {inverted : BitVec 16} {limits : TxLimits}
    {asked : List (Option TxEq)} {precode : Bool} {s : State} (hrun : s.running = true) (hexp : s.mode.exposes = true)
    (hgate : s.gate = true) (hst : s.trainsFrom) {w : Nat} {rev : Bool} (hmem : w ∈ [16, 8, 4, 2, 1]) (hmax : w ≤ s.maxWidth)
    (htrains : s.widthTrains lanes w rev = true) (hrev : rev = true → s.mode.tests = false) :
    ∃ t, exec (.linkTrainingComplete lanes rate inverted ⟨limits, asked, precode⟩) s = .next t ∧ t.link.st = .l0 ∧
      t.link.keeper = false ∧ t.link.precoding = (precode && decide (t.link.rate = .g32)) ∧
      w ≤ t.link.width ∧ t.link.width ≤ s.maxWidth ∧ s.widthTrains lanes t.link.width t.link.reversed = true ∧
      (s.widthTrains lanes t.link.width false = true → t.link.reversed = false) ∧
      t.link.rate = Rate.minRate rate s.cfg.hrate ∧ t.link.inverted = inverted ∧ t.link.fcTick = s.now ∧
      t.dll = { s.dll with retrain := false } ∧
      t.fc = (if s.link.st = .detect then { s.fc with limits := limits, used := TxUsed.zero } else s.fc) ∧
      (∀ i : Fin 16, i ∉ t.trainedLanes → (s.test (hostLane i)).underTest s.mode = false → (t.lane (hostLane i)).st = .off ∧
        ((t.dom (txDom i)).isOn || (t.dom (rxDom i)).isOn) = false) ∧
      (∀ i ∈ t.trainedLanes, ∀ e, asked.getD i.val none = some e → TxEq.accepted e = true → fastRate t.link.rate = true →
        ∃ k, t.keptAt (hostLane i) t.link.rate = some k ∧ k.tx = some e) ∧
      (∀ i ∈ t.trainedLanes, s.link.rate ≠ t.link.rate →
        (t.lane (hostLane i)).st = .acquiring ∨ (t.lane (hostLane i)).st = .tracking) ∧
      (∀ l : LaneId, 16 ≤ l.val → t.lane l = s.lane l) ∧ (s.ledger.ltrPending = false → t.ledger = s.ledger ∧ t.txq = s.txq) ∧
      t.standing = { s.standing with link := t.link, dll := t.dll, doms := t.doms, lanes := t.lanes, ledger := t.ledger } := by
  obtain ⟨v, r, hbest, hle, hvmax, hv, hplain⟩ := bestWidth_spec s lanes hmem hmax htrains hrev
  have hexec := exec_trains s rate inverted ⟨limits, asked, precode⟩ hrun hexp hgate hst hbest
  have hb := begun s limits
  change _ = Host.Outcome.next (State.trainingDone (s.trainingBegun limits) v r (Rate.minRate rate s.cfg.hrate) inverted
    ⟨limits, asked, precode⟩) at hexec
  generalize s.trainingBegun limits = b, Rate.minRate rate s.cfg.hrate = q at hb hexec ⊢
  have hnow : b.now = s.now := congrArg (fun x : Standing => x.clk.tally) hb.standing
  have htest : ∀ i, (b.test (hostLane i)).underTest b.mode = (s.test (hostLane i)).underTest s.mode := fun i => by
    rw [State.test, tests_eq_of_standing hb.standing, mode_eq_of_standing hb.standing]
    rfl
  have hltr : b.ledger = s.ledger := ledger_eq_of_standing hb.standing
  have hlink := trainingDone_link b v r q inverted ⟨limits, asked, precode⟩
  have hwhole := trainingDone_standing b v r q inverted ⟨limits, asked, precode⟩
  refine ⟨_, hexec, ?_⟩
  have hrate : (b.trainingDone v r q inverted ⟨limits, asked, precode⟩).link.rate = q := by rw [hlink]
  have hwidth : (b.trainingDone v r q inverted ⟨limits, asked, precode⟩).link.width = v := by rw [hlink]
  have hreversed : (b.trainingDone v r q inverted ⟨limits, asked, precode⟩).link.reversed = r := by rw [hlink]
  rw [hwidth, hreversed, hrate]
  refine ⟨by rw [hlink], by rw [hlink], by rw [hlink], hle, hvmax, hv, hplain, rfl, by rw [hlink], by rw [hlink]; exact hnow,
    (dll_eq_of_standing hwhole).trans hb.dll, (trainingDone_fc b v r q inverted _).trans hb.fc,
    fun i hi ht => trainingDone_out b v r q inverted _ hi ((htest i).trans ht),
    fun i hi e => trainingDone_tx b v r q inverted _ hi, fun i hi hne => ?_, fun l hl => ?_, fun hl => ?_, ?_⟩
  · rw [trainingDone_lane]
    rw [trainingDone_trainedLanes] at hi
    exact trained_newRate b v r q inverted (by rw [hb.rate]; exact hne) hi
  · rw [trainingDone_lane]
    exact (trained_lane_ge b v r q inverted hl).trans (hb.far l hl)
  · obtain ⟨hledger, htxq⟩ := trainingDone_quiet b v r q inverted ⟨limits, asked, precode⟩ (by rw [hltr, hl])
    exact ⟨hledger.trans hltr, htxq.trans hb.txq⟩
  · rw [hb.standing] at hwhole
    exact standing_own_link hwhole

end Sys2Proof.Machine
end

-- ==== Proofs of 06_host_lanes_and_bellows: equalization of the host link ====
section
/-! Equalization of the host link (R126, R131, R138): the spread of a histogram, the setting that is kept, and the lanes that go to a
new rate. -/

namespace Sys2Proof.Machine

open Sys2Proof

/-! ### The first of the least -/

section FirstLeast

variable {β : Type} [LinearOrder β] (f : ℕ → β)

/-- The lowest index below `n` with the least value, found by one pass from 0 up. -/
def firstLeast (n : ℕ) : ℕ := (List.range n).foldl (fun best k => if f k < f best then k else best) 0

theorem firstLeast_succ (n : ℕ) : firstLeast f (n + 1) = if f n < f (firstLeast f n) then n else firstLeast f n := by
  unfold firstLeast
  rw [List.range_succ, List.foldl_append]
  rfl

theorem firstLeast_lt {n : ℕ} (hn : 0 < n) : firstLeast f n < n := by
  induction n with
  | zero => exact absurd hn (lt_irrefl 0)
  | succ n ih =>
    rw [firstLeast_succ]
    split
    · exact Nat.lt_succ_self n
    · rcases Nat.eq_zero_or_pos n with rfl | hpos
      · exact Nat.zero_lt_one
      · exact Nat.lt_succ_of_lt (ih hpos)

theorem firstLeast_le {n j : ℕ} (hj : j < n) : f (firstLeast f n) ≤ f j := by
  induction n with
  | zero => exact absurd hj (Nat.not_lt_zero j)
  | succ n ih =>
    have hcases : j = n ∨ f (firstLeast f n) ≤ f j := (Nat.lt_succ_iff_lt_or_eq.mp hj).symm.imp_right ih
    rw [firstLeast_succ]
    split
    next h => exact hcases.elim (fun he => by rw [he]) fun hle => h.le.trans hle
    next h => exact hcases.elim (fun he => by rw [he]; exact not_lt.mp h) id

theorem firstLeast_first {n j : ℕ} (hj : j < firstLeast f n) : f (firstLeast f n) < f j := by
  induction n with
  | zero => exact absurd hj (Nat.not_lt_zero j)
  | succ n ih =>
    rw [firstLeast_succ] at hj ⊢
    split at hj
    next h => rw [if_pos h]; exact h.trans_le (firstLeast_le f hj)
    next h => rw [if_neg h]; exact ih hj

end FirstLeast

/-! ### The spread of a histogram -/

section Spread

variable (e : List Nat)

/-- All 64 bins are in the window of 64. -/
theorem binsFrom_all (h : e.length = 64) : binsFrom e 64 0 = e.sum := by
  unfold binsFrom
  congr 1
  refine List.ext_getElem (by simp [h]) fun i hi _ => ?_
  have hlt : i < 64 := by simpa using hi
  simp [Nat.mod_eq_of_lt hlt, h, hlt]

/-- R126: some window of `w` bins holds 99 % of the edges. -/
def holdsMost (w : Nat) : Bool := (List.range 64).any fun b => decide (99 * e.sum ≤ 100 * binsFrom e w b)

theorem holdsMost_iff (w : Nat) : holdsMost e w = true ↔ ∃ b, b < 64 ∧ 99 * e.sum ≤ 100 * binsFrom e w b := by
  simp [holdsMost, List.any_eq_true]

theorem spreadOf_eq : spreadOf e = ((List.range 64).find? (holdsMost e)).getD 64 := rfl

/-- R126: the spread is the narrowest width with a window that holds 99 % of the edges. -/
theorem spreadOf_spec (h : e.length = 64) : holdsMost e (spreadOf e) = true ∧ ∀ w, w < spreadOf e → holdsMost e w = false := by
  rw [spreadOf_eq]
  cases hfind : (List.range 64).find? (holdsMost e) with
  | none =>
    refine ⟨(holdsMost_iff e 64).mpr ⟨0, by omega, ?_⟩, fun w hw => ?_⟩
    · rw [binsFrom_all e h]
      omega
    · exact Bool.eq_false_iff.mpr (List.find?_eq_none.mp hfind w (List.mem_range.mpr hw))
  | some w =>
    obtain ⟨hw, -, hfirst⟩ := List.find?_range_eq_some.mp hfind
    exact ⟨hw, fun v hv => by simpa using hfirst v hv⟩

/-- The second clause of the obligation. -/
theorem spreadOf_narrowest (h : e.length = 64) : (∃ b, b < 64 ∧ 99 * e.sum ≤ 100 * binsFrom e (spreadOf e) b) ∧
    (∀ w b, w < spreadOf e → b < 64 → 100 * binsFrom e w b < 99 * e.sum) := by
  obtain ⟨hholds, hfirst⟩ := spreadOf_spec e h
  refine ⟨(holdsMost_iff e _).mp hholds, fun w b hw hb => ?_⟩
  by_contra hle
  have hmost := (holdsMost_iff e w).mpr ⟨b, hb, not_lt.mp hle⟩
  rw [hfirst w hw] at hmost
  exact Bool.false_ne_true hmost

end Spread

/-! ### The setting kept -/

section BestSetting

variable (edges : List (List Nat))

theorem bestSetting_eq (spreads : List Nat) : bestSetting spreads = firstLeast (fun k => spreads.getD k 64) 176 := rfl

theorem histogramsWf_length {edges : List (List Nat)} (h : histogramsWf edges = true) : edges.length = 176 :=
  of_decide_eq_true (Bool.and_eq_true_iff.mp h).1

theorem spreads_getD {edges : List (List Nat)} {k : Nat} (hk : k < edges.length) :
    (edges.map spreadOf).getD k 64 = spreadOf (edges.getD k []) := by
  simp [hk]

/-- R126: the setting kept has the smallest spread, and is the first of those that have. -/
theorem bestSetting_spec {edges : List (List Nat)} (hwf : histogramsWf edges = true) : bestSetting (edges.map spreadOf) < 176 ∧
    (∀ j, j < 176 → spreadOf (edges.getD (bestSetting (edges.map spreadOf)) []) ≤ spreadOf (edges.getD j [])) ∧
    (∀ j, j < bestSetting (edges.map spreadOf) →
      spreadOf (edges.getD (bestSetting (edges.map spreadOf)) []) < spreadOf (edges.getD j [])) := by
  have hlen := histogramsWf_length hwf
  have hget : ∀ k, k < 176 → (edges.map spreadOf).getD k 64 = spreadOf (edges.getD k []) := fun k hk => spreads_getD (hlen ▸ hk)
  rw [bestSetting_eq]
  have hlt := firstLeast_lt (fun k => (edges.map spreadOf).getD k 64) (n := 176) (by omega)
  refine ⟨hlt, fun j hj => ?_, fun j hj => ?_⟩
  · rw [← hget _ hlt, ← hget j hj]
    exact firstLeast_le (fun k => (edges.map spreadOf).getD k 64) hj
  · rw [← hget _ hlt, ← hget j (hj.trans hlt)]
    exact firstLeast_first (fun k => (edges.map spreadOf).getD k 64) hj

end BestSetting

/-! ### Records -/

theorem rateIdx_inj : Function.Injective rateIdx :=
  Function.LeftInverse.injective (g := ![Rate.g2p5, .g5, .g8, .g16, .g32]) fun r => by cases r <;> rfl

/-- R131: the records that filing taps leaves: those of other rates on a lane not under test, and those of a lane that does not
calibrate. -/
theorem saveTaps_keptAt {s : State} {l : LaneId} {r : Rate}
    (h : (rateIdx r ≠ rateIdx s.link.rate ∧ (s.test l).underTest s.mode = false) ∨ (s.lane l).st = .off ∨
      (s.lane l).st = .acquiring) : s.saveTaps.keptAt l r = s.keptAt l r := by
  by_cases hl : l.val < 16
  · obtain ⟨i, rfl⟩ : ∃ i : Fin 16, l = hostLane i := ⟨⟨l.val, hl⟩, rfl⟩
    rw [keptAt_hostLane, keptAt_hostLane]
    unfold State.saveTaps
    dsimp only
    rw [vget_vmap]
    split
    next hst =>
      obtain ⟨hr, htest⟩ := h.resolve_right fun hoff => by
        obtain hoff | hoff := hoff <;> rw [hoff] at hst <;> simp at hst
      rw [htest]
      exact vget_vset_ne _ _ _ _ hr
    next => rfl
  · rw [State.keptAt, dif_neg hl, State.keptAt, dif_neg hl]

/-! ### Equalization takes the link into training -/

section EqBegun

variable (s : State)

/-- R126, R138: from L0 the link is in Recovery; the taps gathered so far are filed. -/
def State.eqBegun (s : State) : State := if s.link.st = .l0 then s.enterRecovery else s.saveTaps

/-- What the beginning of an equalization leaves as it is, and what it files. -/
structure EqBegun (s t : State) : Prop where
  standing : t.standing = { s.standing with link := t.link, dll := t.dll, lanes := t.lanes }
  rate : t.link.rate = s.link.rate
  kept : t.link.kept = s.saveTaps.link.kept
  txq : t.txq = s.txq
  items : t.items = s.items
  others : ∀ l, (∀ i ∈ s.trainedLanes, l ≠ hostLane i) → t.lane l = s.lane l
  training : s.link.st ≠ .l0 → t.lanes = s.lanes ∧ t.dll = s.dll ∧ t.link = { s.link with kept := t.link.kept }
  recovery : s.link.st = .l0 → t.link.st = .recovery ∧ t.link.width = s.link.width ∧ t.dll = { s.dll with retrain := true } ∧
    ∀ i ∈ s.trainedLanes, (s.dom (rxDom i)).isOn = true → (t.lane (hostLane i)).st = .acquiring

theorem eqBegun_saveTaps (h : s.link.st ≠ .l0) : EqBegun s s.saveTaps := by
  have heq := withKept_saveTaps s
  have hrest : ∀ k, k = s.saveTaps.link.kept → EqBegun s { s with link := { s.link with kept := k } } := fun k hk =>
    { standing := rfl, rate := rfl, kept := hk, txq := rfl, items := rfl, others := fun _ _ => rfl
      training := fun _ => ⟨rfl, rfl, rfl⟩, recovery := fun hl => absurd hl h }
  rw [heq]
  exact hrest _ rfl

theorem eqBegun_enterRecovery (h : s.link.st = .l0) : EqBegun s s.enterRecovery := by
  have heq := withLanes_enterRecovery s
  have hdll : s.enterRecovery.dll = { s.dll with retrain := true } := by rw [heq]; rfl
  exact
    { standing := by rw [hdll]; exact enterRecovery_standing s
      rate := by rw [enterRecovery_link]; rfl
      kept := by rw [enterRecovery_link]; rfl
      txq := by rw [heq]; rfl
      items := by rw [heq]; rfl
      others := fun l hl => enterRecovery_lane_ne s hl
      training := fun hl => absurd h hl
      recovery := fun _ => ⟨by rw [enterRecovery_link]; rfl, by rw [enterRecovery_link]; rfl, hdll,
        fun i hi hon => enterRecovery_lane s hi hon⟩ }

theorem eqBegun : EqBegun s s.eqBegun := by
  unfold State.eqBegun
  split
  next h => exact eqBegun_enterRecovery s h
  next h => exact eqBegun_saveTaps s h

end EqBegun

/-! ### The lanes go to another rate -/

section Rerate

variable (s : State) (r : Rate) (i : Fin 16)

/-- R131: the lane `x` at the settings of the record `k`. -/
def Lane.atRecord (x : Lane) (k : Taps) : Prop := x.phase = k.phase ∧ x.thr = k.thr ∧ x.dfe = k.dfe ∧ x.ctle = k.ctle

/-- R131, R138: a lane whose receiver is ON acquires, from the record of the new rate if there is one. -/
theorem rerate_on (h : (s.dom (rxDom i)).isOn = true) : ∃ g, s.rerate r i = s.modLane (hostLane i) g ∧ (∀ x, (g x).st = .acquiring) ∧
    ∀ k, s.keptAt (hostLane i) r = some k → ∀ x, (g x).atRecord k := by
  unfold State.rerate
  rw [if_pos h]
  split
  next k hk =>
    refine ⟨_, rfl, fun _ => rfl, fun k' hk' x => ?_⟩
    cases hk.symm.trans hk'
    exact ⟨rfl, rfl, rfl, rfl⟩
  next hk => exact ⟨_, rfl, fun _ => rfl, fun k' hk' => absurd (hk.symm.trans hk') nofun⟩

theorem rerate_off (h : (s.dom (rxDom i)).isOn ≠ true) : s.rerate r i = s := if_neg h

theorem withLanes_rerate : s.rerate r i = s.withLanes (s.rerate r i) := by
  by_cases h : (s.dom (rxDom i)).isOn = true
  · obtain ⟨g, hg, -⟩ := rerate_on s r i h
    rw [hg]
    rfl
  · rw [rerate_off s r i h]
    rfl

theorem rerate_doms : (s.rerate r i).doms = s.doms := by
  by_cases h : (s.dom (rxDom i)).isOn = true
  · obtain ⟨g, hg, -⟩ := rerate_on s r i h
    rw [hg]
    rfl
  · rw [rerate_off s r i h]

theorem rerate_lane_ne {l : LaneId} (hl : l ≠ hostLane i) : (s.rerate r i).lane l = s.lane l := by
  by_cases h : (s.dom (rxDom i)).isOn = true
  · obtain ⟨g, hg, -⟩ := rerate_on s r i h
    rw [hg, lane_modLane, if_neg hl]
  · rw [rerate_off s r i h]

theorem rerate_acquiring {l : LaneId} (hl : (s.lane l).st = .acquiring) : ((s.rerate r i).lane l).st = .acquiring := by
  by_cases h : (s.dom (rxDom i)).isOn = true
  · obtain ⟨g, hg, hst, -⟩ := rerate_on s r i h
    rw [hg, lane_modLane]
    split
    · exact hst _
    · exact hl
  · rwa [rerate_off s r i h]

end Rerate

section ToRate

variable (b : State) (r : Rate)

def State.atRate (b : State) (r : Rate) : State := { b with link := { b.link with rate := r } }

/-- R126: the first equalization at a rate takes the lanes of the link to it. -/
def State.toRate (b : State) (r : Rate) : State :=
  if b.link.rate = r then b else forList b.linkLanes (fun i t => t.rerate r i) (b.atRate r)

theorem toRate_same (h : b.link.rate = r) : b.toRate r = b := if_pos h

theorem withLanes_toRate : b.toRate r = (b.atRate r).withLanes (b.toRate r) := by
  unfold State.toRate
  split
  next h =>
    subst h
    rfl
  next => exact withLanes_forList _ _ (fun i t => withLanes_rerate t r i) _

theorem toRate_doms : (b.toRate r).doms = b.doms := by
  unfold State.toRate
  split
  · rfl
  · exact forList_eq State.doms _ _ (fun i t => rerate_doms t r i) (b.atRate r)

theorem toRate_link : (b.toRate r).link = { b.link with rate := r } := by
  rw [withLanes_toRate]
  rfl

theorem toRate_lane_ne {l : LaneId} (hl : ∀ i ∈ b.linkLanes, l ≠ hostLane i) : (b.toRate r).lane l = b.lane l := by
  unfold State.toRate
  split
  · rfl
  · exact forList_inv (f := fun i (t : State) => t.rerate r i) (P := fun t => t.lane l = b.lane l)
      (fun j hj t ht => (rerate_lane_ne t r j (hl j hj)).trans ht) rfl

theorem toRate_acquiring {l : LaneId} (hl : (b.lane l).st = .acquiring) : ((b.toRate r).lane l).st = .acquiring := by
  unfold State.toRate
  split
  · exact hl
  · exact forList_inv (f := fun i (t : State) => t.rerate r i) (P := fun t => (t.lane l).st = .acquiring)
      (fun j _ t ht => rerate_acquiring t r j ht) hl

/-- What stays as it is while the lanes go to another rate. -/
def State.records (t : State) : Vector DomState 162 × Vector (Vector (Option Taps) 5) 16 := (t.doms, t.link.kept)

theorem rerate_records (t : State) (j : Fin 16) : (t.rerate r j).records = t.records := by
  rw [State.records, rerate_doms, withLanes_rerate]
  rfl

/-- R131, R138: at a new rate each lane of the link acquires, from the record of that rate where there is one. -/
theorem toRate_new (h : b.link.rate ≠ r) {i : Fin 16} (hi : i ∈ b.linkLanes) (hon : (b.dom (rxDom i)).isOn = true) :
    ((b.toRate r).lane (hostLane i)).st = .acquiring ∧
      ∀ k, b.keptAt (hostLane i) r = some k → ((b.toRate r).lane (hostLane i)).atRecord k := by
  have hmake : ∀ t : State, t.records = b.records → ((t.rerate r i).lane (hostLane i)).st = .acquiring ∧
      ∀ k, b.keptAt (hostLane i) r = some k → ((t.rerate r i).lane (hostLane i)).atRecord k := fun t ht => by
    have hdoms : t.doms = b.doms := congrArg Prod.fst ht
    have hkept : t.link.kept = b.link.kept := congrArg Prod.snd ht
    obtain ⟨g, hg, hst, hrec⟩ := rerate_on t r i (by rw [State.dom, hdoms]; exact hon)
    rw [hg, lane_modLane_self]
    exact ⟨hst _, fun k hk => hrec k ((keptAt_congr hkept _ _).trans hk) _⟩
  rw [State.toRate, if_neg h]
  refine (forList_of_mem_while (f := fun i (t : State) => t.rerate r i)
    (P := fun t => t.records = b.records ∧ (t.lane (hostLane i)).st = .acquiring ∧
      ∀ k, b.keptAt (hostLane i) r = some k → (t.lane (hostLane i)).atRecord k)
    (Q := fun t => t.records = b.records) (s := b.atRate r) hi (fun t ht => ⟨(rerate_records r t i).trans ht, hmake t ht⟩)
    (fun j _ t ht => ⟨(rerate_records r t j).trans ht.1, ?_⟩) (fun j _ t ht => (rerate_records r t j).trans ht) rfl).2
  by_cases hj : hostLane i = hostLane j
  · rw [← hostLane_inj hj]
    exact hmake t ht.1
  · rw [rerate_lane_ne t r j hj]
    exact ht.2

end ToRate

/-! ### The record of the lane -/

section Taught

variable (c : State) (i : Fin 16) (r : Rate) (k : Nat)

/-- R126, R131: the record of lane `i` at rate `r` once setting `k` is kept. -/
def State.newRecord (c : State) (i : Fin 16) (r : Rate) (k : Nat) : Taps :=
  match c.keptAt (hostLane i) r with
  | some t => { t with preset := k / 16, ctle := k % 16, tracked := false }
  | none =>
    { tx := none, preset := k / 16, ctle := k % 16, phase := (c.lane (hostLane i)).phase, thr := (c.lane (hostLane i)).thr
      dfe := (c.lane (hostLane i)).dfe, tracked := false }

theorem newRecord_spec : (c.newRecord i r k).preset = k / 16 ∧ (c.newRecord i r k).ctle = k % 16 ∧
    (c.newRecord i r k).tracked = false := by
  unfold State.newRecord
  split <;> exact ⟨rfl, rfl, rfl⟩

/-- R126: the lane acquires with the CTLE kept, and its record keeps the setting. -/
def State.taught (c : State) (i : Fin 16) (r : Rate) (k : Nat) : State :=
  { (c.modLane (hostLane i) fun x => { x.noTargets with st := .acquiring, ctle := k % 16 }) with
    link := { c.link with kept := vmod c.link.kept i fun v => vset v (rateIdx r) (some (c.newRecord i r k)) } }

theorem taught_lane_self : ((c.taught i r k).lane (hostLane i)).st = .acquiring ∧ ((c.taught i r k).lane (hostLane i)).ctle = k % 16 := by
  have h : (c.taught i r k).lane (hostLane i) = { (c.lane (hostLane i)).noTargets with st := .acquiring, ctle := k % 16 } :=
    lane_modLane_self c (hostLane i) _
  rw [h]
  exact ⟨rfl, rfl⟩

theorem taught_lane_ne {l : LaneId} (h : l ≠ hostLane i) : (c.taught i r k).lane l = c.lane l :=
  (lane_modLane c (hostLane i) l _).trans (if_neg h)

theorem taught_lane_acquiring {l : LaneId} (h : (c.lane l).st = .acquiring) : ((c.taught i r k).lane l).st = .acquiring := by
  by_cases hl : l = hostLane i
  · rw [hl]
    exact (taught_lane_self c i r k).1
  · rwa [taught_lane_ne c i r k hl]

theorem taught_keptAt_self : (c.taught i r k).keptAt (hostLane i) r = some (c.newRecord i r k) := by
  rw [keptAt_hostLane]
  exact (congrArg (vget · (rateIdx r)) (vget_vmod_self _ _ _)).trans (vget_vset_self _ _ _)

theorem taught_keptAt_ne {l : LaneId} {q : Rate} (h : l ≠ hostLane i ∨ rateIdx q ≠ rateIdx r) :
    (c.taught i r k).keptAt l q = c.keptAt l q := by
  by_cases hl : l.val < 16
  · obtain ⟨j, rfl⟩ : ∃ j : Fin 16, l = hostLane j := ⟨⟨l.val, hl⟩, rfl⟩
    rw [keptAt_hostLane, keptAt_hostLane]
    by_cases hj : j = i
    · subst hj
      exact (congrArg (vget · (rateIdx q)) (vget_vmod_self _ _ _)).trans (vget_vset_ne _ _ _ _ (h.resolve_left (not_not_intro rfl)))
    · exact congrArg (vget · (rateIdx q)) (vget_vmod_ne _ _ _ _ hj)
  · rw [State.keptAt, dif_neg hl, State.keptAt, dif_neg hl]

theorem exec_equalizationPhase2 {s : State} {edges : List (List Nat)} (hrun : s.running = true) (hexp : s.mode.exposes = true)
    (hgate : s.gate = true) (hfast : fastRate r = true) (hmax : rateIdx r ≤ rateIdx s.cfg.hrate)
    (hst : s.link.st = .l0 ∨ s.link.st = .recovery ∨ s.link.st = .detect) (hi : i ∈ s.linkLanes)
    (hon : (s.dom (rxDom i)).isOn = true) : exec (.equalizationPhase2 r i edges) s =
      .next ((s.eqBegun.toRate r).taught i r (bestSetting (edges.map spreadOf))).woken := by
  change execEqualizationPhase2 r i edges s = _
  unfold execEqualizationPhase2 State.taught State.newRecord State.toRate State.atRate State.eqBegun
  exact (if_pos ⟨hrun, hexp, hgate, hfast, hmax, hst, List.contains_iff_mem.mpr hi, hon⟩).trans rfl

end Taught

/-! ### The obligation -/

section Phase2

variable (c : State) (i : Fin 16) (r : Rate) (k : Nat)

theorem taught_standing : (c.taught i r k).standing = { c.standing with
    link := (c.taught i r k).link, lanes := (c.taught i r k).lanes } := rfl

theorem taught_link : (c.taught i r k).link = { c.link with kept := (c.taught i r k).link.kept } := rfl

end Phase2

/-- R126, R131, R138: the third clause of the obligation. -/
theorem equalizationKeepsSmallestSpread {rate : Rate} {lane : Fin 16} {edges : List (List Nat)} {s : State} (hrun : s.running = true)
    (hexp : s.mode.exposes = true) (hgate : s.gate = true) (hfast : fastRate rate = true)
    (hmax : rateIdx rate ≤ rateIdx s.cfg.hrate) (hst : s.link.st = .l0 ∨ s.link.st = .recovery ∨ s.link.st = .detect)
    (hlane : lane ∈ s.linkLanes) (hon : (s.dom (rxDom lane)).isOn = true) (hwf : histogramsWf edges = true) :
    ∃ t k, exec (.equalizationPhase2 rate lane edges) s = .next t ∧ k < 176 ∧
      (∀ j, j < 176 → spreadOf (edges.getD k []) ≤ spreadOf (edges.getD j [])) ∧
      (∀ j, j < k → spreadOf (edges.getD k []) < spreadOf (edges.getD j [])) ∧
      (∃ rec', t.keptAt (hostLane lane) rate = some rec' ∧ rec'.preset = k / 16 ∧ rec'.ctle = k % 16 ∧ rec'.tracked = false) ∧
      (t.lane (hostLane lane)).st = .acquiring ∧ (t.lane (hostLane lane)).ctle = k % 16 ∧ t.link.rate = rate ∧
      (∀ l r, l ≠ hostLane lane ∨ rateIdx r ≠ rateIdx rate →
        ((rateIdx r ≠ rateIdx s.link.rate ∧ (s.test l).underTest s.mode = false) ∨ (s.lane l).st = .off ∨ (s.lane l).st = .acquiring) →
        t.keptAt l r = s.keptAt l r) ∧
      (s.link.st ≠ .l0 → (s.link.rate = rate → ∀ l, l ≠ hostLane lane → t.lane l = s.lane l) ∧ t.dll = s.dll ∧
        t.link = { s.link with rate := rate, kept := t.link.kept }) ∧
      (s.link.st = .l0 → t.link.st = .recovery ∧ t.link.width = s.link.width ∧ t.dll = { s.dll with retrain := true } ∧
        (∀ i ∈ s.trainedLanes, (s.dom (rxDom i)).isOn = true → (t.lane (hostLane i)).st = .acquiring)) ∧
      (s.link.rate ≠ rate → ∀ i ∈ s.linkLanes, (s.dom (rxDom i)).isOn = true → (t.lane (hostLane i)).st = .acquiring ∧
        (∀ k, i ≠ lane → (s.test (hostLane i)).underTest s.mode = false → s.keptAt (hostLane i) rate = some k →
          (t.lane (hostLane i)).phase = k.phase ∧ (t.lane (hostLane i)).thr = k.thr ∧ (t.lane (hostLane i)).dfe = k.dfe ∧
          (t.lane (hostLane i)).ctle = k.ctle)) ∧
      (∀ l, (∀ i ∈ s.linkLanes, l ≠ hostLane i) → (∀ i ∈ s.trainedLanes, l ≠ hostLane i) → t.lane l = s.lane l) ∧
      t.txq = s.txq ∧ t.items = s.items ∧
      t.standing = { s.standing with link := t.link, dll := t.dll, lanes := t.lanes } := by
  obtain ⟨hk, hleast, hfirst⟩ := bestSetting_spec hwf
  have hexec := exec_equalizationPhase2 lane rate hrun hexp hgate hfast hmax hst hlane hon (edges := edges)
  have hb := eqBegun s
  generalize bestSetting (edges.map spreadOf) = k at hk hleast hfirst hexec
  generalize s.eqBegun = b at hb hexec
  have hlink : b.linkLanes = s.linkLanes :=
    linkLanes_congr (mode_eq_of_standing hb.standing) (congrArg Standing.cfg hb.standing) (tests_eq_of_standing hb.standing)
  have hdoms : b.doms = s.doms := doms_eq_of_standing hb.standing
  have hkept : ∀ l r, b.keptAt l r = s.saveTaps.keptAt l r := keptAt_congr hb.kept
  have hframe := withLanes_toRate b rate
  have hcdoms : (b.toRate rate).doms = s.doms := (toRate_doms b rate).trans hdoms
  have hclink := toRate_link b rate
  have hcdll : (b.toRate rate).dll = b.dll := by rw [hframe]; rfl
  have hctxq : (b.toRate rate).txq = b.txq := by rw [hframe]; rfl
  have hcitems : (b.toRate rate).items = b.items := by rw [hframe]; rfl
  have hcstand : (b.toRate rate).standing =
      { b.standing with link := (b.toRate rate).link, lanes := (b.toRate rate).lanes, doms := (b.toRate rate).doms } := by
    rw [hclink]
    conv_lhs => rw [hframe]
    rfl
  have hsame := toRate_same b rate
  have hacquiring := fun l => toRate_acquiring b rate (l := l)
  have hnew := fun h i hi => toRate_new b rate h (i := i) hi
  have hfar := fun l => toRate_lane_ne b rate (l := l)
  generalize b.toRate rate = c at *
  refine ⟨_, k, hexec, hk, hleast, hfirst, ⟨_, taught_keptAt_self c lane rate k, newRecord_spec c lane rate k⟩,
    (taught_lane_self c lane rate k).1, (taught_lane_self c lane rate k).2, ?_, fun l r hlr hsaved => ?_, fun hl0 => ?_, fun hl0 => ?_,
    fun hrate i hi hion => ?_, fun l hlinked htrained => ?_, hctxq.trans hb.txq, hcitems.trans hb.items, ?_⟩
  · exact congrArg HostLink.rate hclink
  · have hckept : c.link.kept = b.link.kept := by rw [hclink]
    exact (taught_keptAt_ne c lane rate k hlr).trans (((keptAt_congr hckept l r).trans (hkept l r)).trans (saveTaps_keptAt hsaved))
  · obtain ⟨hlanes, hdll, hblink⟩ := hb.training hl0
    refine ⟨fun hrate l hl => ?_, hcdll.trans hdll, ?_⟩
    · refine (taught_lane_ne c lane rate k hl).trans ?_
      rw [hsame (hb.rate.trans hrate), State.lane, hlanes, State.lane]
    · have h : ∀ v, { c.link with kept := v } = { s.link with rate := rate, kept := v } := fun v => by rw [hclink, hblink]
      exact h _
  · obtain ⟨hrec, hwidth, hdll, hacq⟩ := hb.recovery hl0
    refine ⟨(congrArg HostLink.st hclink).trans hrec, (congrArg HostLink.width hclink).trans hwidth, hcdll.trans hdll, fun i hi hion => ?_⟩
    exact taught_lane_acquiring c lane rate k (hacquiring _ (hacq i hi hion))
  · obtain ⟨hacq, hrec⟩ := hnew (by rw [hb.rate]; exact hrate) i (by rw [hlink]; exact hi) (by rw [State.dom, hdoms]; exact hion)
    refine ⟨taught_lane_acquiring c lane rate k hacq, fun q hne htest hq => ?_⟩
    have hsaved := (hkept (hostLane i) rate).trans (saveTaps_keptAt (.inl ⟨fun h => hrate (rateIdx_inj h).symm, htest⟩))
    rw [woken_lane, taught_lane_ne c lane rate k fun h => hne (hostLane_inj h)]
    exact hrec q (hsaved.trans hq)
  · refine (taught_lane_ne c lane rate k (hlinked lane hlane)).trans ?_
    exact (hfar l (by rw [hlink]; exact hlinked)).trans (hb.others l htrained)
  · rw [standing_woken, taught_standing, hcstand, hb.standing, hcdoms]
    rw [show (c.taught lane rate k).woken.dll = b.dll from hcdll]
    rfl

/-- Settles O20: training tries the widths from the widest down and settles each lane of the one found; the spread and the setting
kept are the first least of their kind; an equalization files the taps, takes the lanes to the rate and teaches the one lane. -/
theorem linkTrainsAndEqualizes : Obligations.LinkTrainsAndEqualizes := by
  unfold Obligations.LinkTrainsAndEqualizes
  refine ⟨fun lanes rate inverted limits asked precode s hrun hexp hgate hst => ⟨fun w rev hmem hmax htrains hrev => ?_, fun hbest => ?_⟩,
    spreadOf_narrowest, fun rate lane edges s hrun hexp hgate hfast hmax hst hlane hon hwf => ?_⟩
  · exact trainingReachesWidest hrun hexp hgate hst hmem hmax htrains hrev
  · exact exec_trains_none s rate inverted ⟨limits, asked, precode⟩ hrun hexp hgate hst hbest
  · exact equalizationKeepsSmallestSpread hrun hexp hgate hfast hmax hst hlane hon hwf

end Sys2Proof.Machine
end

-- ==== Proofs of 06_host_lanes_and_bellows: frames of the bellows ====
section
/-! Frames of the bellows (R135 to R138): the targets that a frame sets, and acquisition. -/

namespace Sys2Proof.Machine

open Sys2Proof

/-! ### The phase target -/

/-- The lowest index below `n` with the greatest value, found by one pass from 0 up. -/
def firstGreatest (f : ℕ → ℕ) (n : ℕ) : ℕ := (List.range n).foldl (fun best k => if f best < f k then k else best) 0

theorem firstGreatest_eq (f : ℕ → ℕ) (n : ℕ) : firstGreatest f n = firstLeast (fun k => OrderDual.toDual (f k)) n := by
  have hstep : (fun best k => if f best < f k then k else best) =
      fun best k => if OrderDual.toDual (f k) < OrderDual.toDual (f best) then k else best :=
    funext fun best => funext fun k => if_congr Iff.rfl rfl rfl
  unfold firstGreatest firstLeast
  rw [hstep]

theorem firstGreatest_spec (f : ℕ → ℕ) {n : ℕ} (hn : 0 < n) : firstGreatest f n < n ∧
    (∀ c, c < n → f c ≤ f (firstGreatest f n)) ∧ (∀ c, c < firstGreatest f n → f c < f (firstGreatest f n)) := by
  rw [firstGreatest_eq]
  exact ⟨firstLeast_lt _ hn, fun c hc => firstLeast_le (fun k => OrderDual.toDual (f k)) hc,
    fun c hc => firstLeast_first (fun k => OrderDual.toDual (f k)) hc⟩

theorem bestWindow_eq (edges : List Nat) : bestWindow edges = firstGreatest (windowEdges edges) 64 := by
  unfold bestWindow firstGreatest
  rfl

/-- R137: the phase target is half a unit interval past the centre of the first window with the most edges. -/
theorem phaseTarget_spec (edges : List Nat) : ∃ b, b < 64 ∧ phaseTarget edges = BitVec.ofNat 6 (b + 40) ∧
    (∀ c, c < 64 → windowEdges edges c ≤ windowEdges edges b) ∧ (∀ c, c < b → windowEdges edges c < windowEdges edges b) := by
  obtain ⟨hlt, hmost, hfirst⟩ := firstGreatest_spec (windowEdges edges) (n := 64) (by omega)
  rw [← bestWindow_eq] at hlt hmost hfirst
  exact ⟨bestWindow edges, hlt, by rw [phaseTarget, Nat.add_assoc], hmost, hfirst⟩

/-- Phases not apart are one. -/
theorem eq_of_phaseApart {a b : BitVec 6} (h : phaseApart a b = 0) : a = b := by
  unfold phaseApart at h
  bv_omega

/-! ### The targets of a frame -/

theorem clampInt_mem {lo hi : Int} (h : lo ≤ hi) (x : Int) : lo ≤ clampInt lo hi x ∧ clampInt lo hi x ≤ hi := by
  unfold clampInt
  (repeat' split) <;> omega

section Aim

variable (x : Lane) (f : FrameStats) (near : Nat) (dfeOn : Bool)

/-- R137: what a frame writes of a lane. -/
theorem aim_eq : x.aim f near dfeOn = { x with
    phaseT := phaseTarget f.edges
    phaseDue := decide (near ≤ phaseApart (phaseTarget f.edges) x.phase)
    thrT := if (x.thrGoal f).1 = x.thr then none else some (x.thrGoal f).1
    dfeT := if dfeOn ∧ (x.dfeGoal f).1 ≠ x.dfe then some (x.dfeGoal f).1 else none
    pinned := (x.thrGoal f).2 || (dfeOn && (x.dfeGoal f).2) } := by
  unfold Lane.aim
  generalize phaseTarget f.edges = p, x.thrGoal f = u, x.dfeGoal f = v
  rfl

theorem aim_phaseDue : (x.aim f near dfeOn).phaseDue = true ↔ near ≤ phaseApart (phaseTarget f.edges) x.phase := by
  rw [aim_eq]
  exact decide_eq_true_iff

theorem aim_phaseT : (x.aim f near dfeOn).phaseT = phaseTarget f.edges := by rw [aim_eq]

theorem aim_kept : (x.aim f near dfeOn).phase = x.phase ∧ (x.aim f near dfeOn).thr = x.thr ∧ (x.aim f near dfeOn).dfe = x.dfe ∧
    (x.aim f near dfeOn).st = x.st ∧ (x.aim f near dfeOn).quiet = x.quiet := by
  rw [aim_eq]
  exact ⟨rfl, rfl, rfl, rfl, rfl⟩

theorem aim_thrT : (x.aim f near dfeOn).thrT = if (x.thrGoal f).1 = x.thr then none else some (x.thrGoal f).1 := by rw [aim_eq]

theorem aim_dfeT : (x.aim f near dfeOn).dfeT =
    if dfeOn ∧ (x.dfeGoal f).1 ≠ x.dfe then some (x.dfeGoal f).1 else none := by rw [aim_eq]

theorem thrGoal_fst : (x.thrGoal f).1 = clampInt (-31) 31 (x.thr + thrStep f) := rfl

theorem aim_pinned (h : x.thr + thrStep f < -31 ∨ 31 < x.thr + thrStep f) : (x.aim f near dfeOn).pinned = true := by
  have hout : (x.thrGoal f).2 = true := decide_eq_true h
  rw [aim_eq, hout]
  rfl

theorem dfeGoal_le : (x.dfeGoal f).1 ≤ 31 := by
  have hmem := clampInt_mem (lo := 0) (hi := 31) (by omega) (x.dfe + dfeStep f)
  change (clampInt 0 31 (x.dfe + dfeStep f)).toNat ≤ 31
  omega

/-- R137: the threshold target lies within -31 to 31 and is another value. -/
theorem aim_thrT_mem {v : Int} (h : (x.aim f near dfeOn).thrT = some v) : -31 ≤ v ∧ v ≤ 31 ∧ v ≠ x.thr := by
  rw [aim_thrT] at h
  split at h
  next => cases h
  next hne =>
    cases h
    obtain ⟨hlo, hhi⟩ := clampInt_mem (lo := -31) (hi := 31) (by omega) (x.thr + thrStep f)
    exact ⟨hlo, hhi, hne⟩

/-- R136, R137: the DFE target is at most 31 and another value, on a lane that has a DFE. -/
theorem aim_dfeT_mem {v : Nat} (h : (x.aim f near dfeOn).dfeT = some v) : v ≤ 31 ∧ v ≠ x.dfe ∧ dfeOn = true := by
  rw [aim_dfeT] at h
  split at h
  next hon =>
    cases h
    exact ⟨dfeGoal_le x f, hon.2, hon.1⟩
  next => cases h

theorem aim_thr_getD : (x.aim f near dfeOn).thrT.getD x.thr = (x.thrGoal f).1 := by
  rw [aim_thrT]
  split
  next h => exact h.symm
  next => rfl

end Aim

/-! ### The end of a frame -/

/-- R135, R137: lane `x` after a frame; STARVED lasts until the next gap. -/
def Lane.framed (x : Lane) (f : FrameStats) (dfeOn : Bool) (now : Tally) : Lane :=
  if x.st = .starved then (x.aim f 2 dfeOn).watch now else ((x.aim f 2 dfeOn).watch now).settle

section Framed

variable (x : Lane) (f : FrameStats) (dfeOn : Bool) (now : Tally)

/-- But for its state and the tick from which a move is pending, the lane is as the frame aims it. -/
theorem framed_aim : ∃ st p, x.framed f dfeOn now = { x.aim f 2 dfeOn with st := st, pendingFrom := p } := by
  unfold Lane.framed
  generalize x.aim f 2 dfeOn = y
  split
  · exact ⟨_, _, rfl⟩
  · exact ⟨_, _, rfl⟩

theorem framed_st (h : x.st ≠ .starved) :
    (x.framed f dfeOn now).st = if (x.framed f dfeOn now).pinned then .pinned else .tracking := by
  unfold Lane.framed
  rw [if_neg h]
  generalize (x.aim f 2 dfeOn).watch now = y
  rfl

end Framed

section FrameEnd

variable {s : State} {lane : LaneId} {f : FrameStats}

theorem exec_bellowsFrameEnd (hrun : s.running = true) (hcal : (s.lane lane).calibrates = true) (hrec : s.receives lane = true)
    (hloop : ¬(s.isTest lane = true ∧ s.mode = .m5 ∧ (s.test lane).loop = 2)) (hheld : s.isTest lane = true → s.holdsMoves lane = true) :
    exec (.bellowsFrameEnd lane f) s = .next (s.modLane lane fun x => x.framed f (s.dfeOn lane) s.now) := by
  have hnot : ¬(s.isTest lane = true ∧ (!s.holdsMoves lane) = true) := fun ⟨ht, hh⟩ => by simp [hheld ht] at hh
  change execBellowsFrameEnd lane f s = _
  unfold execBellowsFrameEnd
  dsimp only
  exact (if_pos ⟨hrun, hcal, hrec, by simpa [imp_iff_not_or, or_assoc] using hloop⟩).trans (if_neg hnot)

/-- R135, R137: a frame moves no tap and changes no other lane. -/
theorem frameSetsTargets (hrun : s.running = true) (hcal : (s.lane lane).calibrates = true) (hrec : s.receives lane = true)
    (hloop : ¬(s.isTest lane = true ∧ s.mode = .m5 ∧ (s.test lane).loop = 2)) (hheld : s.isTest lane = true → s.holdsMoves lane = true) :
    ∃ t, exec (.bellowsFrameEnd lane f) s = .next t ∧
      (t.lane lane).phase = (s.lane lane).phase ∧ (t.lane lane).thr = (s.lane lane).thr ∧
      (t.lane lane).dfe = (s.lane lane).dfe ∧ (t.lane lane).phaseT = phaseTarget f.edges ∧
      ((t.lane lane).phaseDue = true ↔ 2 ≤ phaseApart (phaseTarget f.edges) (s.lane lane).phase) ∧
      (∀ x, (t.lane lane).thrT = some x → -31 ≤ x ∧ x ≤ 31 ∧ x ≠ (s.lane lane).thr) ∧
      (∀ x, (t.lane lane).dfeT = some x → x ≤ 31 ∧ x ≠ (s.lane lane).dfe ∧ s.dfeOn lane = true) ∧
      ((s.lane lane).st ≠ .starved → (t.lane lane).st = if (t.lane lane).pinned then .pinned else .tracking) ∧
      ((s.lane lane).thr + thrStep f < -31 ∨ 31 < (s.lane lane).thr + thrStep f → (t.lane lane).pinned = true) ∧
      (∀ l, l ≠ lane → t.lane l = s.lane l) ∧ t.standing = { s.standing with lanes := t.lanes } ∧ t.items = s.items := by
  refine ⟨_, exec_bellowsFrameEnd hrun hcal hrec hloop hheld, ?_⟩
  have hst := framed_st (s.lane lane) f (s.dfeOn lane) s.now
  obtain ⟨st, p, heq⟩ := framed_aim (s.lane lane) f (s.dfeOn lane) s.now
  obtain ⟨hphase, hthr, hdfe, -, -⟩ := aim_kept (s.lane lane) f 2 (s.dfeOn lane)
  have htarget := aim_phaseT (s.lane lane) f 2 (s.dfeOn lane)
  have hdue := aim_phaseDue (s.lane lane) f 2 (s.dfeOn lane)
  have hthrT := fun v => aim_thrT_mem (s.lane lane) f 2 (s.dfeOn lane) (v := v)
  have hdfeT := fun v => aim_dfeT_mem (s.lane lane) f 2 (s.dfeOn lane) (v := v)
  have hpinned := aim_pinned (s.lane lane) f 2 (s.dfeOn lane)
  rw [lane_modLane_self]
  rw [heq] at hst ⊢
  generalize (s.lane lane).aim f 2 (s.dfeOn lane) = y at *
  exact ⟨hphase, hthr, hdfe, htarget, hdue, hthrT, hdfeT, hst, hpinned, fun l hl => (lane_modLane s lane l _).trans (if_neg hl), rfl, rfl⟩

end FrameEnd

/-! ### Acquisition -/

section Jump

variable (x : Lane) (f : FrameStats) (dfeOn : Bool)

theorem jump_due (y : Lane) : y.jump.due = 0 := rfl

/-- R138: in acquisition every tap moves to its target in one step. -/
theorem jump_aim : ((x.aim f 1 dfeOn).jump).phase = phaseTarget f.edges ∧
    ((x.aim f 1 dfeOn).jump).thr = clampInt (-31) 31 (x.thr + thrStep f) ∧ ((x.aim f 1 dfeOn).jump).st = x.st ∧
    (phaseTarget f.edges ≠ x.phase → ((x.aim f 1 dfeOn).jump).quiet = 0) := by
  obtain ⟨hphase, hthr, -, hst, -⟩ := aim_kept x f 1 dfeOn
  have hdue := aim_phaseDue x f 1 dfeOn
  have hphaseT := aim_phaseT x f 1 dfeOn
  have hgetD := (aim_thr_getD x f 1 dfeOn).trans (thrGoal_fst x f)
  rw [← hthr] at hgetD
  generalize x.aim f 1 dfeOn = y at *
  refine ⟨?_, hthr ▸ hgetD, hst, fun hne => ?_⟩
  · change (if y.phaseDue then y.phaseT else y.phase) = _
    split
    next => exact hphaseT
    next h =>
      rw [hdue] at h
      exact hphase.trans (eq_of_phaseApart (by omega)).symm
  · have hon : y.phaseDue = true := hdue.mpr (by
      by_contra h
      exact hne (eq_of_phaseApart (by omega)))
    change (if y.due = 0 then y.quiet + 1 else 0) = 0
    rw [if_neg]
    simp [Lane.due, hon]

end Jump

section Acquired

variable (s : State) (lane : LaneId) (f : FrameStats)

/-- R138, R332: a lane that has acquired tracks, with its taps where they are. -/
theorem acquired_lane : (s.acquired lane).lane lane = s.lane lane ∨
    (2 ≤ (s.lane lane).quiet ∧ (s.acquired lane).lane lane = { (s.lane lane).noTargets with st := .tracking }) := by
  unfold State.acquired
  split
  next h => exact .inr ⟨h, lane_modLane_self s lane _⟩
  next => exact .inl rfl

theorem acquired_lane_ne {l : LaneId} (h : l ≠ lane) : (s.acquired lane).lane l = s.lane l := by
  unfold State.acquired
  split
  · exact (lane_modLane s lane l _).trans (if_neg h)
  · rfl

theorem acquired_standing : (s.acquired lane).standing = { s.standing with
    lanes := (s.acquired lane).lanes, tests := (s.acquired lane).tests } := by
  unfold State.acquired
  split <;> rfl

theorem acquired_items : (s.acquired lane).items = s.items := by
  unfold State.acquired
  split <;> rfl

/-- R138: a training frame on a lane that acquires. -/
def State.jumped (s : State) (lane : LaneId) (f : FrameStats) : State :=
  (s.modLane lane fun x => (x.aim f 1 (s.dfeOn lane)).jump).acquired lane

theorem jumped_spec (hst : (s.lane lane).st = .acquiring) : ((s.jumped lane f).lane lane).phase = phaseTarget f.edges ∧
    ((s.jumped lane f).lane lane).thr = clampInt (-31) 31 ((s.lane lane).thr + thrStep f) ∧
    ((s.jumped lane f).lane lane).due = 0 ∧
    (((s.jumped lane f).lane lane).st = .acquiring ∨ ((s.jumped lane f).lane lane).st = .tracking) ∧
    (((s.jumped lane f).lane lane).phase ≠ (s.lane lane).phase →
      ((s.jumped lane f).lane lane).st = .acquiring ∧ ((s.jumped lane f).lane lane).quiet = 0) := by
  obtain ⟨hphase, hthr, hsame, hquiet⟩ := jump_aim (s.lane lane) f (s.dfeOn lane)
  have hcases := acquired_lane (s.modLane lane fun x => (x.aim f 1 (s.dfeOn lane)).jump) lane
  have hdue := jump_due ((s.lane lane).aim f 1 (s.dfeOn lane))
  rw [lane_modLane_self] at hcases
  unfold State.jumped
  generalize ((s.lane lane).aim f 1 (s.dfeOn lane)).jump = y at *
  obtain h | ⟨htwo, h⟩ := hcases
  · rw [h]
    exact ⟨hphase, hthr, hdue, .inl (hsame.trans hst), fun hne => ⟨hsame.trans hst, hquiet (hphase ▸ hne)⟩⟩
  · rw [h]
    refine ⟨hphase, hthr, rfl, .inr rfl, fun hne => ?_⟩
    have hzero := hquiet (hphase ▸ hne)
    omega

theorem jumped_lane_ne {l : LaneId} (h : l ≠ lane) : (s.jumped lane f).lane l = s.lane l :=
  (acquired_lane_ne _ lane h).trans ((lane_modLane s lane l _).trans (if_neg h))

theorem jumped_standing : (s.jumped lane f).standing = { s.standing with
    lanes := (s.jumped lane f).lanes, tests := (s.jumped lane f).tests } := acquired_standing _ lane

theorem jumped_items : (s.jumped lane f).items = s.items := acquired_items _ lane

theorem exec_acquireFrameEnd (hrun : s.running = true) (hon : s.engineOn lane = true)
    (hloop : ¬(s.isTest lane = true ∧ s.mode = .m5 ∧ (s.test lane).loop = 2))
    (hacq : ((if s.hostRetrains lane then s.enterRecovery else s).lane lane).st = .acquiring) :
    exec (.acquireFrameEnd lane f) s = .next ((if s.hostRetrains lane then s.enterRecovery else s).jumped lane f) := by
  change execAcquireFrameEnd lane f s = _
  unfold execAcquireFrameEnd
  dsimp only
  exact (if_pos ⟨hrun, hon, by simpa [imp_iff_not_or, or_assoc] using hloop⟩).trans (if_pos hacq)

/-- R138: a lane in training moves its taps to their targets. -/
theorem trainingFrameJumps (hrun : s.running = true) (hloop : ¬(s.isTest lane = true ∧ s.mode = .m5 ∧ (s.test lane).loop = 2))
    (hst : (s.lane lane).st = .acquiring) (hon : s.engineOn lane = true) : ∃ t, exec (.acquireFrameEnd lane f) s = .next t ∧
      (t.lane lane).phase = phaseTarget f.edges ∧
      (t.lane lane).thr = clampInt (-31) 31 ((s.lane lane).thr + thrStep f) ∧
      (t.lane lane).due = 0 ∧ ((t.lane lane).st = .acquiring ∨ (t.lane lane).st = .tracking) ∧
      ((t.lane lane).phase ≠ (s.lane lane).phase → (t.lane lane).st = .acquiring ∧ (t.lane lane).quiet = 0) ∧
      (∀ l, l ≠ lane → t.lane l = s.lane l) ∧
      t.standing = { s.standing with lanes := t.lanes, tests := t.tests } ∧ t.items = s.items := by
  have hnot : s.hostRetrains lane = false := by
    rw [State.hostRetrains, Lane.calibrates, hst]
    simp
  have hexec := exec_acquireFrameEnd s lane f hrun hon hloop (by rw [hnot]; exact hst)
  rw [hnot] at hexec
  obtain ⟨hphase, hthr, hdue, hstate, hmoved⟩ := jumped_spec s lane f hst
  exact ⟨_, hexec, hphase, hthr, hdue, hstate, hmoved, fun l hl => jumped_lane_ne s lane f hl, jumped_standing s lane f, jumped_items s lane f⟩

theorem laneDom_hostLane (i : Fin 16) : laneDom (hostLane i) = rxDom i := by revert i; decide

/-- R138: a training frame on a tracking lane shows that Recovery has begun. -/
theorem hostLeadsToRecovery (hrun : s.running = true) (hretrain : s.hostRetrains lane = true) (hon : s.engineOn lane = true) :
    ∃ t, exec (.acquireFrameEnd lane f) s = .next t ∧ t.link.st = .recovery ∧
      t.dll = { s.dll with retrain := true } ∧ ((t.lane lane).st = .acquiring ∨ (t.lane lane).st = .tracking) ∧ t.items = s.items := by
  have hparts := hretrain
  simp only [State.hostRetrains, Bool.and_eq_true, Bool.not_eq_true', List.any_eq_true, decide_eq_true_eq] at hparts
  obtain ⟨⟨⟨-, htest⟩, -⟩, i, hi, rfl⟩ := hparts
  have hrx : (s.dom (rxDom i)).isOn = true := laneDom_hostLane i ▸ (Bool.and_eq_true_iff.mp hon).1
  have hacq := enterRecovery_lane s hi hrx
  have hexec := exec_acquireFrameEnd s (hostLane i) f hrun hon (fun h => by simp [htest] at h) (by rw [hretrain]; exact hacq)
  rw [hretrain, if_pos rfl] at hexec
  obtain ⟨-, -, -, hstate, -⟩ := jumped_spec s.enterRecovery (hostLane i) f hacq
  have hstand := jumped_standing s.enterRecovery (hostLane i) f
  have hdll : s.enterRecovery.dll = { s.dll with retrain := true } := dll_eq_of_standing (enterRecovery_standing s)
  have hitems : s.enterRecovery.items = s.items := by rw [withLanes_enterRecovery]; rfl
  refine ⟨_, hexec, ?_, (dll_eq_of_standing hstand).trans hdll, hstate, (jumped_items _ _ f).trans hitems⟩
  rw [link_eq_of_standing hstand]
  exact congrArg HostLink.st (enterRecovery_link s)

end Acquired

end Sys2Proof.Machine
end

-- ==== Proofs of 06_host_lanes_and_bellows: gaps of the bellows ====
section
/-! Gaps of the bellows (R26, R106, R135, R139 to R141, R294): the moves of one gap, the admission before them, and the elastic
buffers of the flues. -/

namespace Sys2Proof.Machine

open Sys2Proof

/-! ### What a tick's admission leaves alone -/

/-- From `s` to `t` items have been admitted: of what stands, the supplies, the strap reader, the domains and the ledger may have
changed, and the ledger keeps its state. -/
def Admits (s t : State) : Prop := ∃ i p d l,
  t.standing = { s.standing with island := i, straps := p, doms := d, ledger := l } ∧ l.st = s.ledger.st

namespace Admits

variable {s t u : State}

theorem of_standing (h : t.standing = s.standing) : Admits s t := ⟨_, _, _, _, h, rfl⟩

theorem refl (s : State) : Admits s s := of_standing rfl

theorem trans (h : Admits s t) (k : Admits t u) : Admits s u := by
  obtain ⟨i, p, d, l, ht, hl⟩ := h
  obtain ⟨i', p', d', l', hu, hl'⟩ := k
  have hst : t.ledger.st = s.ledger.st := (congrArg (·.ledger.st) ht : t.standing.ledger.st = l.st).trans hl
  exact ⟨i', p', d', l', by rw [hu, ht], hl'.trans hst⟩

theorem forList {α : Type} (l : List α) (f : α → State → State) (h : ∀ x s, Admits s (f x s)) (s : State) :
    Admits s (forList l f s) :=
  forList_inv (P := Admits s) (fun x _ t ht => ht.trans (h x t)) (refl s)

theorem lanes (h : Admits s t) : t.lanes = s.lanes := by
  obtain ⟨_, _, _, _, ht, -⟩ := h
  exact lanes_eq_of_standing ht

theorem tests (h : Admits s t) : t.tests = s.tests := by
  obtain ⟨_, _, _, _, ht, -⟩ := h
  exact tests_eq_of_standing ht

theorem mode (h : Admits s t) : t.mode = s.mode := by
  obtain ⟨_, _, _, _, ht, -⟩ := h
  exact mode_eq_of_standing ht

theorem cfg (h : Admits s t) : t.cfg = s.cfg := by
  obtain ⟨_, _, _, _, ht, -⟩ := h
  exact congrArg Standing.cfg ht

theorem flue (h : Admits s t) (f : FlueId) : (t.flue f).steady = (s.flue f).steady := by
  obtain ⟨_, _, _, _, ht, -⟩ := h
  cases f
  · exact congrArg Standing.flueA ht
  · exact congrArg Standing.flueB ht

theorem ledgerSt (h : Admits s t) : t.ledger.st = s.ledger.st := by
  obtain ⟨_, _, _, l, ht, hl⟩ := h
  exact (congrArg (·.ledger.st) ht : t.standing.ledger.st = l.st).trans hl

end Admits

section Admission

variable (s : State)

theorem admits_wakePath (path : List DomainId) : Admits s (s.wakePath path) :=
  Admits.forList path _ (fun d s => by split <;> exact ⟨_, _, _, _, rfl, rfl⟩) s

theorem admits_cyclePaid (w : Work) : Admits s (s.cyclePaid w) := by
  cases w with
  | piece p => exact .of_standing (standing_admitCycle s p)
  | _ => exact .refl s

theorem admits_startOrWait (it : Item) : Admits s (s.startOrWait it) := by
  unfold State.startOrWait
  split
  · cases it.work with
    | change c => exact .of_standing (standing_pushChange s c _)
    | clear => exact ⟨_, _, _, _, rfl, rfl⟩
    | resample n r => exact ⟨_, _, _, _, rfl, rfl⟩
    | _ => exact .of_standing rfl
  · exact .of_standing rfl

theorem admits_admitOne (it : Item) : Admits s (s.admitOne it) := by
  have hcharge : Admits s (s.chargeItem it) := ⟨_, _, _, _, rfl, rfl⟩
  exact ((hcharge.trans (admits_wakePath _ _)).trans (admits_cyclePaid _ _)).trans (admits_startOrWait _ it)

theorem admits_stopAt (b : Bar) : Admits s (s.stopAt b) := by
  cases b
  · exact .refl s
  · exact ⟨_, _, _, _, rfl, rfl⟩

theorem admits_admitService (k : Nat) : Admits s (State.admitService k s).1 := by
  induction k generalizing s with
  | zero => exact .refl s
  | succ k ih =>
    unfold State.admitService
    (repeat' split)
    · exact .refl s
    · exact admits_stopAt s _
    · next it rest _ _ _ =>
      have hleft : Admits s { s with items := { s.items with service := rest } } := .of_standing rfl
      exact (hleft.trans (admits_admitOne _ it)).trans (ih _)

theorem admits_admitHost (k : Nat) : Admits s (State.admitHost k s).1 := by
  induction k generalizing s with
  | zero => exact .refl s
  | succ k ih =>
    unfold State.admitHost
    (repeat' split)
    · exact .refl s
    · exact admits_stopAt s _
    · next it rest _ _ _ =>
      have hleft : Admits s { s with items := { s.items with host := rest } } := .of_standing rfl
      exact (hleft.trans (admits_admitOne _ it)).trans (ih _)

theorem admits_admitSlots (k : Nat) : Admits s (State.admitSlots k s).1 := by
  induction k generalizing s with
  | zero => exact .refl s
  | succ k ih =>
    unfold State.admitSlots
    (repeat' split)
    · exact .refl s
    · exact .refl s
    · exact admits_stopAt s _
    · next i _ _ it rest _ _ _ =>
      have hleft : Admits s { s with items := { s.items with slots := vset s.items.slots i rest }
                                     ledger := { s.ledger with pointer := i + 1 } } := ⟨_, _, _, _, rfl, rfl⟩
      exact (hleft.trans (admits_admitOne _ it)).trans (ih _)

theorem admits_refillIfDue : Admits s s.refillIfDue := by
  unfold State.refillIfDue
  split
  · exact ⟨_, _, _, _, rfl, rfl⟩
  · exact .refl s

/-- R110: the levels above the tap level leave the lanes, the tests, the mode and the flues as they are. -/
theorem admits_admitTick : Admits s s.admitTick.1 := by
  have hservice := (admits_refillIfDue s).trans (admits_admitService s.refillIfDue s.refillIfDue.waitingItems.length)
  have hhost := hservice.trans (admits_admitHost _ s.refillIfDue.waitingItems.length)
  unfold State.admitTick
  dsimp only
  (repeat' split)
  · exact .refl s
  · exact hservice
  · exact hhost
  · exact hhost.trans (admits_admitSlots _ _)

/-- R105: while the ledger is CLOSED nothing is admitted. -/
theorem admitTick_closed (h : s.ledger.st = .closed) : s.admitTick = (s, true) := if_pos h

end Admission

/-! ### Fillers and the elastic buffers -/

section Fillers

/-- R294: the blocks that the gap's FILLER finds in the elastic buffer of a flue. -/
def fillerFinds (g : GapSet) : FlueId → Nat
  | .a => g.heldA
  | .b => g.heldB

/-- R294: the FILLERs of the gap pass the elastic buffers of both flues. -/
def State.filled (s : State) (g : GapSet) : State := (s.passFiller .a g.lanes g.heldA).passFiller .b g.lanes g.heldB

/-- R294: a FILLER passes the elastic buffer of this flue. -/
def State.fills (s : State) (g : GapSet) (f : FlueId) : Prop :=
  s.cfg.fwd = false ∧ (s.flue f).st = .active ∧ g.lanes &&& fillerLanes f ≠ 0

variable (s : State) (g : GapSet)

theorem passFiller_cases (f : FlueId) (fills : BitVec 32) (held : Nat) : s.passFiller f fills held = s ∨
    (s.cfg.fwd = false ∧ (s.flue f).st = .active ∧ fills &&& fillerLanes f ≠ 0 ∧
      s.passFiller f fills held = s.modFlue f fun x => { x with elastic := elasticNext held }) := by
  unfold State.passFiller
  split
  next h => exact .inr ⟨by simpa using h.1, h.2.1, h.2.2, rfl⟩
  next => exact .inl rfl

theorem filled_cases : ∃ k : FlueId → Nat, s.filled g = { s with flueA := { s.flueA with elastic := k .a }, flueB := { s.flueB with elastic := k .b } } ∧
    ∀ f, k f = (s.flue f).elastic ∨ (s.fills g f ∧ k f = elasticNext (fillerFinds g f)) := by
  unfold State.filled
  obtain ha | ⟨hfwd, hst, hmask, ha⟩ := passFiller_cases s .a g.lanes g.heldA
  · obtain hb | ⟨hfwd', hst', hmask', hb⟩ := passFiller_cases (s.passFiller .a g.lanes g.heldA) .b g.lanes g.heldB
    · exact ⟨fun f => (s.flue f).elastic, hb.trans ha, fun f => .inl rfl⟩
    · rw [ha] at hfwd' hst' hb
      refine ⟨fun f => match f with | .a => s.flueA.elastic | .b => elasticNext g.heldB, by rw [ha]; exact hb, fun f => ?_⟩
      cases f
      · exact .inl rfl
      · exact .inr ⟨⟨hfwd', hst', hmask'⟩, rfl⟩
  · obtain hb | ⟨hfwd', hst', hmask', hb⟩ := passFiller_cases (s.passFiller .a g.lanes g.heldA) .b g.lanes g.heldB
    · refine ⟨fun f => match f with | .a => elasticNext g.heldA | .b => s.flueB.elastic, hb.trans ha, fun f => ?_⟩
      cases f
      · exact .inr ⟨⟨hfwd, hst, hmask⟩, rfl⟩
      · exact .inl rfl
    · rw [ha] at hfwd' hst' hb
      refine ⟨fun f => elasticNext (fillerFinds g f), by rw [ha]; exact hb, fun f => ?_⟩
      cases f
      · exact .inr ⟨⟨hfwd, hst, hmask⟩, rfl⟩
      · exact .inr ⟨⟨hfwd', hst', hmask'⟩, rfl⟩

theorem elasticNext_eq (k : Nat) : elasticNext k = if 10 ≤ k then k - 1 else if k ≤ 6 then k + 1 else k := by
  unfold elasticNext elasticAction
  (repeat' split) <;> simp_all

end Fillers

/-! ### Paid moves -/

/-- R110, R141: `n` more tap moves can be paid. -/
def State.canPay (s : State) (ended : Bool) (n : Nat) : Prop :=
  s.ledger.st = .off ∨ (s.ledger.st = .opened ∧ ended = false ∧ s.anyHeld = false ∧ 2 * n ≤ s.ledger.balance)

theorem canPay_of_le {s : State} {ended : Bool} {n m : Nat} (hs : s.canPay ended n) (hm : m ≤ n) : s.canPay ended m :=
  hs.imp_right fun ⟨hopen, hended, hheld, hbalance⟩ => ⟨hopen, hended, hheld, by omega⟩

theorem canMove_of_canPay {s : State} {ended : Bool} {n : Nat} (h : s.canPay ended (n + 1)) : s.canMove ended = true := by
  unfold State.canMove
  obtain hoff | ⟨hopen, hended, hheld, hbalance⟩ := h
  · rw [hoff]
  · have hcost : Config.costTapMove ≤ s.ledger.balance := by
      change 2 ≤ s.ledger.balance
      omega
    rw [hopen]
    simp [hended, hheld, hcost]

/-- What of a lane its moves leave alone. -/
theorem step_kept (x : Lane) : x.step.pinned = x.pinned ∧ x.step.deferred = x.deferred ∧ x.step.moves = x.moves ∧
    x.step.phaseT = x.phaseT := by
  unfold Lane.step
  (repeat' split) <;> exact ⟨rfl, rfl, rfl, rfl⟩

/-- R139: the first due move: the threshold's. -/
theorem step_thr {x : Lane} {v : Int} (h : x.thrT = some v) : x.step = { x with thr := v, thrT := none } := by
  unfold Lane.step
  split
  next w hw => cases hw.symm.trans h; rfl
  next hw => cases hw.symm.trans h

/-- R139: with no threshold move due, that of the DFE. -/
theorem step_dfe {x : Lane} {v : Nat} (hthr : x.thrT = none) (h : x.dfeT = some v) : x.step = { x with dfe := v, dfeT := none } := by
  unfold Lane.step
  split
  next w hw => cases hw.symm.trans hthr
  next =>
    split
    next w hw => cases hw.symm.trans h; rfl
    next hw => cases hw.symm.trans h

/-- R139: with neither due, one step of the phase. -/
theorem step_phase {x : Lane} (hthr : x.thrT = none) (hdfe : x.dfeT = none) :
    x.step = { x with phase := phaseStep x.phase x.phaseT, phaseDue := phaseStep x.phase x.phaseT != x.phaseT } := by
  unfold Lane.step
  split
  next w hw => cases hw.symm.trans hthr
  next =>
    split
    next w hw => cases hw.symm.trans hdfe
    next => rfl

/-- From `s` to `t` lane `l` has made `n` paid moves. -/
structure Spent (l : LaneId) (n : Nat) (s t : State) : Prop where
  charged : t.ledger.charged = s.ledger.charged + 2 * n
  balance : t.ledger.balance = s.ledger.balance - 2 * n
  ledgerSt : t.ledger.st = s.ledger.st
  anyHeld : t.anyHeld = s.anyHeld
  items : t.items = s.items
  standing : t.standing = { s.standing with lanes := t.lanes, ledger := t.ledger, tapMoves := t.tapMoves }
  others : ∀ k, k ≠ l → t.lane k = s.lane k
  deferred : (t.lane l).deferred = (s.lane l).deferred
  pinned : (t.lane l).pinned = (s.lane l).pinned
  moves : (t.lane l).moves = (s.lane l).moves + BitVec.ofNat 32 n

namespace Spent

variable {l : LaneId} {n m : Nat} {s t u : State}

theorem refl (l : LaneId) (s : State) : Spent l 0 s s :=
  ⟨rfl, rfl, rfl, rfl, rfl, rfl, fun _ _ => rfl, rfl, rfl, (BitVec.add_zero _).symm⟩

theorem trans (h : Spent l n s t) (k : Spent l m t u) : Spent l (n + m) s u where
  charged := by rw [k.charged, h.charged]; omega
  balance := by rw [k.balance, h.balance]; omega
  ledgerSt := k.ledgerSt.trans h.ledgerSt
  anyHeld := k.anyHeld.trans h.anyHeld
  items := k.items.trans h.items
  standing := by rw [k.standing, h.standing]
  others j hj := (k.others j hj).trans (h.others j hj)
  deferred := k.deferred.trans h.deferred
  pinned := k.pinned.trans h.pinned
  moves := by rw [k.moves, h.moves, BitVec.add_assoc, BitVec.ofNat_add]

theorem canPay (h : Spent l n s t) {ended : Bool} (hs : s.canPay ended (n + m)) : t.canPay ended m := by
  obtain hoff | ⟨hopen, hended, hheld, hbalance⟩ := hs
  · exact .inl (h.ledgerSt.trans hoff)
  · refine .inr ⟨h.ledgerSt.trans hopen, hended, h.anyHeld.trans hheld, ?_⟩
    rw [h.balance]
    omega

theorem isTest (h : Spent l n s t) (k : LaneId) : t.isTest k = s.isTest k := by
  rw [State.isTest, State.test, tests_eq_of_standing h.standing, mode_eq_of_standing h.standing]
  rfl

end Spent

section ApplyMove

variable {s : State} {l : LaneId}

theorem passMove_of_not_test (h : s.isTest l = false) : s.passMove l = s := if_neg (by rw [h]; decide)

theorem applyMove_eq (h : s.isTest l = false) : s.applyMove l =
    { s with ledger := s.ledger.charge (tapPort l) Config.costTapMove, tapMoves := s.tapMoves + 1 }.modLane l
      fun x => { x.step with moves := x.moves + 1, lastMove := s.now } := passMove_of_not_test h

theorem applyMove_lane (h : s.isTest l = false) : (s.applyMove l).lane l =
    { (s.lane l).step with moves := (s.lane l).moves + 1, lastMove := s.now } := by
  rw [applyMove_eq h]
  exact lane_modLane_self _ l _

theorem spent_applyMove (h : s.isTest l = false) : Spent l 1 s (s.applyMove l) := by
  obtain ⟨hpinned, hdeferred, -, -⟩ := step_kept (s.lane l)
  have hlane := applyMove_lane h
  have heq := applyMove_eq h
  refine ⟨?_, ?_, ?_, ?_, ?_, ?_, fun k hk => ?_, by rw [hlane]; exact hdeferred, by rw [hlane]; exact hpinned, by rw [hlane]; rfl⟩
  · rw [heq]; rfl
  · rw [heq]; rfl
  · rw [heq]; rfl
  · rw [heq]; rfl
  · rw [heq]; rfl
  · rw [heq]; rfl
  · rw [heq]
    exact (lane_modLane _ l k _).trans (if_neg hk)

end ApplyMove

/-! ### The moves of one gap -/

section MoveAll

variable {ended : Bool} {s : State} {l : LaneId}

theorem moveAll_none {k kind : Nat} (h : (s.lane l).due = 0 ∨ (s.lane l).first < kind) : State.moveAll ended k kind s l = s := by
  cases k with
  | zero => rfl
  | succ k => exact if_pos h

theorem moveAll_paid {k kind : Nat} (hdue : (s.lane l).due ≠ 0) (hkind : kind ≤ (s.lane l).first) (hcan : s.canMove ended = true) :
    State.moveAll ended (k + 1) kind s l = State.moveAll ended k ((s.lane l).first + 1) (s.applyMove l) l :=
  (if_neg (by omega)).trans (if_pos hcan)

theorem moveAll_deferred {k kind : Nat} (hdue : (s.lane l).due ≠ 0) (hkind : kind ≤ (s.lane l).first) (hcan : s.canMove ended = false) :
    State.moveAll ended (k + 1) kind s l = s.deferMoves l (s.lane l).due :=
  (if_neg (by omega)).trans (if_neg (by rw [hcan]; decide))

/-- R139: from `s` to `t` lane `l` has made every move that was due, one of each kind. -/
structure Applied (l : LaneId) (s t : State) : Prop where
  spent : Spent l (s.lane l).due s t
  thr : (t.lane l).thr = (s.lane l).thrT.getD (s.lane l).thr
  dfe : (t.lane l).dfe = (s.lane l).dfeT.getD (s.lane l).dfe
  phase : (t.lane l).phase = if (s.lane l).phaseDue then phaseStep (s.lane l).phase (s.lane l).phaseT else (s.lane l).phase
  thrT : (t.lane l).thrT = none
  dfeT : (t.lane l).dfeT = none

/-- R139: with threshold and DFE where they should be, a phase step is all. -/
theorem applied_phase (htest : s.isTest l = false) (hthr : (s.lane l).thrT = none) (hdfe : (s.lane l).dfeT = none) {k kind : Nat}
    (hkind : kind ≤ 2) (hpay : s.canPay ended 1) : Applied l s (State.moveAll ended (k + 1) kind s l) := by
  have hfirst : (s.lane l).first = 2 := by simp [Lane.first, hthr, hdfe]
  have hdue : (s.lane l).due = if (s.lane l).phaseDue then 1 else 0 := by simp [Lane.due, hthr, hdfe]
  cases hp : (s.lane l).phaseDue with
  | false =>
    have hzero : (s.lane l).due = 0 := by rw [hdue, hp]; rfl
    rw [moveAll_none (.inl hzero)]
    exact ⟨hzero ▸ Spent.refl l s, by rw [hthr]; rfl, by rw [hdfe]; rfl, by rw [hp]; rfl, hthr, hdfe⟩
  | true =>
    have hone : (s.lane l).due = 1 := by rw [hdue, hp]; rfl
    have hlane : (s.applyMove l).lane l = { s.lane l with
        phase := phaseStep (s.lane l).phase (s.lane l).phaseT
        phaseDue := phaseStep (s.lane l).phase (s.lane l).phaseT != (s.lane l).phaseT
        moves := (s.lane l).moves + 1, lastMove := s.now } := by
      rw [applyMove_lane htest, step_phase hthr hdfe]
    have hstop : ((s.applyMove l).lane l).first < 2 + 1 := by
      unfold Lane.first
      (repeat' split) <;> omega
    rw [moveAll_paid (by omega) (by omega) (canMove_of_canPay hpay), hfirst, moveAll_none (.inr hstop)]
    refine ⟨hone ▸ spent_applyMove htest, ?_, ?_, ?_, ?_, ?_⟩ <;> rw [hlane]
    · rw [hthr]; rfl
    · rw [hdfe]; rfl
    · rw [hp]; rfl
    · exact hthr
    · exact hdfe

/-- R139: with the threshold where it should be, the DFE moves before the phase. -/
theorem applied_dfe (htest : s.isTest l = false) (hthr : (s.lane l).thrT = none) {k kind : Nat} (hkind : kind ≤ 1)
    (hpay : s.canPay ended 2) : Applied l s (State.moveAll ended (k + 2) kind s l) := by
  cases hdfe : (s.lane l).dfeT with
  | none => exact applied_phase htest hthr hdfe (by omega) (canPay_of_le hpay (by omega))
  | some d =>
    have hspent := spent_applyMove htest
    have hlane : (s.applyMove l).lane l = { s.lane l with dfe := d, dfeT := none, moves := (s.lane l).moves + 1, lastMove := s.now } := by
      rw [applyMove_lane htest, step_dfe hthr hdfe]
    have hfirst : (s.lane l).first = 1 := by simp [Lane.first, hthr, hdfe]
    have hdue : (s.lane l).due = 1 + ((s.applyMove l).lane l).due := by
      rw [hlane]
      simp [Lane.due, hthr, hdfe]
    have hrest : Applied l (s.applyMove l) (State.moveAll ended (k + 1) 2 (s.applyMove l) l) :=
      applied_phase ((hspent.isTest l).trans htest) (by rw [hlane]; exact hthr) (by rw [hlane]) le_rfl (hspent.canPay (m := 1) hpay)
    rw [moveAll_paid (by omega) (by omega) (canMove_of_canPay hpay), hfirst]
    refine ⟨hdue ▸ hspent.trans hrest.spent, hrest.thr.trans ?_, hrest.dfe.trans ?_, hrest.phase.trans ?_, hrest.thrT, hrest.dfeT⟩ <;>
      rw [hlane]
    rw [hdfe]
    rfl

/-- R139, R140: with `3` moves to be paid, every due move is made: threshold, DFE, one phase step. -/
theorem applied_moveAll (htest : s.isTest l = false) (hpay : s.canPay ended 3) : Applied l s (State.moveAll ended 3 0 s l) := by
  cases hthr : (s.lane l).thrT with
  | none => exact applied_dfe (k := 1) htest hthr (by omega) (canPay_of_le hpay (by omega))
  | some v =>
    have hspent := spent_applyMove htest
    have hlane : (s.applyMove l).lane l = { s.lane l with thr := v, thrT := none, moves := (s.lane l).moves + 1, lastMove := s.now } := by
      rw [applyMove_lane htest, step_thr hthr]
    have hfirst : (s.lane l).first = 0 := by simp [Lane.first, hthr]
    have hdue : (s.lane l).due = 1 + ((s.applyMove l).lane l).due := by
      rw [hlane]
      simp [Lane.due, hthr, Nat.add_assoc]
    have hrest : Applied l (s.applyMove l) (State.moveAll ended 2 1 (s.applyMove l) l) :=
      applied_dfe (k := 0) ((hspent.isTest l).trans htest) (by rw [hlane]) le_rfl (hspent.canPay (m := 2) hpay)
    rw [moveAll_paid (by omega) (by omega) (canMove_of_canPay hpay), hfirst]
    refine ⟨hdue ▸ hspent.trans hrest.spent, hrest.thr.trans ?_, hrest.dfe.trans ?_, hrest.phase.trans ?_, hrest.thrT, hrest.dfeT⟩ <;>
      rw [hlane]
    rw [hthr]
    rfl

end MoveAll

/-! ### What a gap does to its lane -/

/-- R135, R139: lane `x` once its gap is over. -/
def Lane.afterGap (x : Lane) (now : Tally) : Lane := ({ x with pendingFrom := none }.watch now).settle

theorem afterGap_eq (x : Lane) (now : Tally) : x.afterGap now =
    { x with st := if x.pinned then .pinned else .tracking, pendingFrom := (x.afterGap now).pendingFrom } := rfl

section Gap

variable {ended : Bool} {s : State} {l : LaneId}

theorem gap_eq : State.gap ended l s = (State.moveAll ended 3 0 s l).modLane l fun x => x.afterGap s.now := rfl

theorem gap_lane_self : (State.gap ended l s).lane l = ((State.moveAll ended 3 0 s l).lane l).afterGap s.now :=
  lane_modLane_self _ l _

theorem gap_lane_ne {k : LaneId} (h : k ≠ l) : (State.gap ended l s).lane k = (State.moveAll ended 3 0 s l).lane k :=
  (lane_modLane _ l k _).trans (if_neg h)

/-- R140: what the moves of a gap never touch. -/
def State.besideMoves (s : State) : GlobalCfg × Flue × Flue := (s.cfg, s.flueA, s.flueB)

theorem applyMove_besideMoves : (s.applyMove l).besideMoves = s.besideMoves := by
  unfold State.applyMove State.passMove
  dsimp only
  split <;> rfl

theorem moveAll_besideMoves (k kind : Nat) : (State.moveAll ended k kind s l).besideMoves = s.besideMoves := by
  induction k generalizing kind s with
  | zero => rfl
  | succ k ih =>
    unfold State.moveAll
    dsimp only
    (repeat' split)
    · rfl
    · exact (ih _).trans applyMove_besideMoves
    · rfl

theorem gap_besideMoves : (State.gap ended l s).besideMoves = s.besideMoves := moveAll_besideMoves 3 0

end Gap

/-! ### The lanes of a gap -/

section GapLanes

variable {s : State} {l : LaneId} {g : GapSet}

theorem gapLanes_single (hcal : (s.lane l).calibrates = true) (hrec : s.receives l = true) (htest : s.isTest l = false)
    (hlanes : g.lanes = BitVec.twoPow 32 l.val) (hinserted : g.inserted = 0) : s.gapLanes g = [l] := by
  have hpred : (fun k : LaneId => g.lanes.getLsbD k.val && !(16 ≤ k.val && g.inserted.getLsbD k.val) && (s.lane k).calibrates &&
      s.receives k && !s.isTest k) = fun k => k == l := by
    funext k
    by_cases hk : k = l
    · subst hk
      simp [hlanes, hinserted, hcal, hrec, htest]
    · have hval : ¬ k.val = l.val := fun h => hk (Fin.ext h)
      simp [hlanes, hk, hval]
  unfold State.gapLanes
  rw [hpred, List.filter_beq]
  simp [List.count_finRange]

/-- R294: an inserted FILLER is no gap. -/
theorem gapLanes_inserted (hl : 16 ≤ l.val) (hlanes : g.lanes = BitVec.twoPow 32 l.val) (hinserted : g.inserted = g.lanes) :
    s.gapLanes g = [] := by
  unfold State.gapLanes
  refine List.filter_eq_nil_iff.mpr fun k _ => ?_
  by_cases hk : k = l
  · subst hk
    simp [hinserted, hlanes, hl]
  · have hval : ¬ k.val = l.val := fun h => hk (Fin.ext h)
    simp [hlanes, hval]

theorem exec_bellowsGap (hrun : s.running = true) : exec (.bellowsGap g) s = .next ((s.gaps (s.gapLanes g)).filled g) := if_pos hrun

/-- R26, R110: the gap of one lane in a core that runs, or with a move due, follows the levels above it. -/
theorem gaps_single (h : s.coreRuns = true ∨ (s.lane l).due ≠ 0) :
    s.gaps [l] = (State.gap s.admitTick.2 l s.admitTick.1).snapshot := by
  unfold State.gaps
  rw [if_pos (h.imp_right fun hdue => by simpa using hdue)]
  rfl

/-- R26: no frozen core runs for a gap in which no move is due. -/
theorem gaps_single_frozen (hcore : s.coreRuns = false) (hdue : (s.lane l).due = 0) : s.gaps [l] = State.gap true l s := by
  unfold State.gaps
  rw [if_neg (by simp [hcore, hdue])]
  rfl

end GapLanes

/-! ### After the fillers -/

section Filled

variable (s : State) (g : GapSet)

theorem filled_kept : (s.filled g).lanes = s.lanes ∧ (s.filled g).ledger = s.ledger ∧ (s.filled g).items = s.items ∧
    (s.filled g).standing = { s.standing with flueA := (s.filled g).flueA.steady, flueB := (s.filled g).flueB.steady } := by
  obtain ⟨k, hk, -⟩ := filled_cases s g
  rw [hk]
  exact ⟨rfl, rfl, rfl, rfl⟩

theorem filled_lane (l : LaneId) : (s.filled g).lane l = s.lane l := congrArg (vget · l) (filled_kept s g).1

/-- R294: the flue `f` keeps its blocks but where a FILLER has passed it. -/
theorem filled_flue (f : FlueId) : (s.filled g).flue f = { (s.filled g).flue f with elastic := (s.flue f).elastic } ∨
    (s.fills g f ∧ ((s.filled g).flue f).elastic = elasticNext (fillerFinds g f)) := by
  obtain ⟨k, hk, hcases⟩ := filled_cases s g
  have hflue : (s.filled g).flue f = { s.flue f with elastic := k f } := by
    rw [hk]
    cases f <;> rfl
  rw [hflue]
  exact (hcases f).imp (fun he => by rw [he]) fun ⟨hfills, he⟩ => ⟨hfills, he⟩

end Filled

/-! ### The clauses of a gap -/

section Clauses

variable {lane : LaneId} {g : GapSet} {s : State}

/-- R110, R140: a gap leaves the settings and, but for tags and blocks, the flues as they are. -/
theorem gaps_flue (l : List LaneId) (f : FlueId) : ((s.gaps l).flue f).steady = (s.flue f).steady ∧ (s.gaps l).cfg = s.cfg := by
  have hlist : ∀ (b : Bool) (t : State), (forList l (State.gap b) t).besideMoves = t.besideMoves := fun b t =>
    forList_eq State.besideMoves l (State.gap b) (fun k t => gap_besideMoves) t
  have hkept : ∀ (b : Bool) (t : State), (forList l (State.gap b) t).flue f = t.flue f ∧ (forList l (State.gap b) t).cfg = t.cfg :=
    fun b t => by
      have hcfg : (forList l (State.gap b) t).cfg = t.cfg := congrArg (·.1) (hlist b t)
      refine ⟨?_, hcfg⟩
      cases f
      · exact congrArg (·.2.1) (hlist b t)
      · exact congrArg (·.2.2) (hlist b t)
  unfold State.gaps
  split
  · have hadmits := admits_admitTick s
    obtain ⟨hflue, hcfg⟩ := hkept s.admitTick.2 s.admitTick.1
    have hsnap : ∀ t : State, t.snapshot.flue f = t.flue f ∧ t.snapshot.cfg = t.cfg := fun t => by cases f <;> exact ⟨rfl, rfl⟩
    obtain ⟨hsflue, hscfg⟩ := hsnap (forList l (State.gap s.admitTick.2) s.admitTick.1)
    rw [hsflue, hscfg, hflue, hcfg]
    exact ⟨hadmits.flue f, hadmits.cfg⟩
  · obtain ⟨hflue, hcfg⟩ := hkept true s
    rw [hflue, hcfg]
    exact ⟨rfl, rfl⟩

/-- R294: what a gap does to the elastic buffer of a flue. -/
theorem gap_elastic (l : List LaneId) (f : FlueId) :
    ((s.gaps l).filled g).flue f = { ((s.gaps l).filled g).flue f with elastic := (s.flue f).elastic } ∨
      (s.cfg.fwd = false ∧ (s.flue f).st = .active ∧ g.lanes &&& fillerLanes f ≠ 0 ∧
        (((s.gaps l).filled g).flue f).elastic = elasticNext (fillerFinds g f)) := by
  obtain ⟨hflue, hcfg⟩ := gaps_flue (s := s) l f
  have helastic : ((s.gaps l).flue f).elastic = (s.flue f).elastic := (congrArg (·.elastic) hflue : _)
  have hst : ((s.gaps l).flue f).st = (s.flue f).st := (congrArg (·.st) hflue : _)
  refine (filled_flue (s.gaps l) g f).imp (fun h => ?_) fun ⟨⟨hfwd, hactive, hmask⟩, hnext⟩ => ?_
  · rwa [helastic] at h
  · exact ⟨hcfg ▸ hfwd, hst ▸ hactive, hmask, hnext⟩

/-- R26: a gap in a frozen core in which no move is due. -/
theorem frozenGap (hexec : exec (.bellowsGap g) s = .next ((s.gaps [lane]).filled g)) (hcore : s.coreRuns = false)
    (hdue : (s.lane lane).due = 0) : ∃ t, exec (.bellowsGap g) s = .next t ∧ t.ledger = s.ledger ∧ t.items = s.items ∧
      (t.lane lane).st = (if (s.lane lane).pinned then .pinned else .tracking) ∧ (∀ l, l ≠ lane → t.lane l = s.lane l) := by
  have hnone : State.moveAll true 3 0 s lane = s := moveAll_none (.inl hdue)
  have hgap : State.gap true lane s = s.modLane lane fun x => x.afterGap s.now := by rw [gap_eq, hnone]
  obtain ⟨hlanes, hledger, hitems, -⟩ := filled_kept (s.gaps [lane]) g
  rw [gaps_single_frozen hcore hdue, hgap] at hexec hlanes hledger hitems
  refine ⟨_, hexec, hledger, hitems, ?_, fun l hl => ?_⟩
  · rw [filled_lane, lane_modLane_self]
    rfl
  · rw [filled_lane]
    exact (lane_modLane s lane l _).trans (if_neg hl)

/-- The state after the gap of one lane: `u` is what admission leaves, `m` what the moves make of it. -/
theorem gapDone {b : Bool} {u m : State} (hm : State.moveAll b 3 0 u lane = m) {t : State} (ht : t = (State.gap b lane u).snapshot.filled g) :
    t.lane lane = (m.lane lane).afterGap u.now ∧ (∀ l, l ≠ lane → t.lane l = m.lane l) ∧ t.items = m.items ∧
      t.ledger = { m.ledger with shown := t.ledger.shown } ∧
      t.standing = { m.standing with lanes := t.lanes, ledger := t.ledger, flueA := t.flueA.steady, flueB := t.flueB.steady } := by
  obtain ⟨hlanes, hledger, hitems, hstanding⟩ := filled_kept (State.gap b lane u).snapshot g
  have hlane := fun l => filled_lane (State.gap b lane u).snapshot g l
  rw [← ht] at hlanes hledger hitems hstanding hlane
  have hgap : State.gap b lane u = m.modLane lane fun x => x.afterGap u.now := by rw [gap_eq, hm]
  rw [hgap] at hlanes hledger hitems hstanding hlane
  refine ⟨(hlane lane).trans (lane_modLane_self m lane _), fun l hl => (hlane l).trans ((lane_modLane m lane l _).trans (if_neg hl)),
    hitems, ?_, ?_⟩
  · rw [hledger]
    rfl
  · rw [hlanes, hledger, hstanding]
    rfl

/-- R106, R139, R140: the moves of a gap that can be paid. -/
theorem paidGap (hexec : exec (.bellowsGap g) s = .next ((s.gaps [lane]).filled g)) (htest : s.isTest lane = false) {u : State}
    (hu : u = s.admitTick.1) (hruns : s.coreRuns = true ∨ (s.lane lane).due ≠ 0)
    (hpay : s.ledger.st = .off ∨ (s.ledger.st = .opened ∧ s.admitTick.2 = false ∧ u.anyHeld = false ∧ 6 ≤ u.ledger.balance)) :
    ∃ t, exec (.bellowsGap g) s = .next t ∧ (t.lane lane).thr = (s.lane lane).thrT.getD (s.lane lane).thr ∧
      (t.lane lane).dfe = (s.lane lane).dfeT.getD (s.lane lane).dfe ∧
      (t.lane lane).phase = (if (s.lane lane).phaseDue then phaseStep (s.lane lane).phase (s.lane lane).phaseT
        else (s.lane lane).phase) ∧
      (t.lane lane).moves = (s.lane lane).moves + BitVec.ofNat 32 (s.lane lane).due ∧
      (t.lane lane).deferred = (s.lane lane).deferred ∧
      t.ledger.charged = u.ledger.charged + 2 * (s.lane lane).due ∧ (t.lane lane).thrT = none ∧ (t.lane lane).dfeT = none ∧
      (t.lane lane).st = (if (s.lane lane).pinned then .pinned else .tracking) ∧ (∀ l, l ≠ lane → t.lane l = s.lane l) ∧
      t.items = u.items ∧
      t.standing = { u.standing with
        lanes := t.lanes, ledger := t.ledger, tapMoves := t.tapMoves, flueA := t.flueA.steady, flueB := t.flueB.steady } := by
  have hadmits : Admits s u := hu ▸ admits_admitTick s
  have hlane : ∀ l, u.lane l = s.lane l := fun l => congrArg (vget · l) hadmits.lanes
  have hutest : u.isTest lane = false := by
    rw [State.isTest, State.test, hadmits.tests, hadmits.mode]
    exact htest
  have hcan : u.canPay s.admitTick.2 3 :=
    hpay.imp (hadmits.ledgerSt.trans ·) fun ⟨hopen, hended, hheld, hbalance⟩ => ⟨hadmits.ledgerSt.trans hopen, hended, hheld, hbalance⟩
  have happlied := applied_moveAll hutest hcan
  rw [gaps_single hruns, ← hu] at hexec
  refine ⟨_, hexec, ?_⟩
  obtain ⟨hself, hothers, hitems, hledger, hstanding⟩ := gapDone (g := g) (b := s.admitTick.2) (u := u) (lane := lane) rfl rfl
  generalize (State.gap s.admitTick.2 lane u).snapshot.filled g = t at *
  generalize State.moveAll s.admitTick.2 3 0 u lane = m at *
  have hspent := happlied.spent
  rw [afterGap_eq] at hself
  have hcharged : t.ledger.charged = m.ledger.charged := by rw [hledger]
  have htap : t.tapMoves = m.tapMoves := congrArg Standing.tapMoves hstanding
  rw [hself, hcharged, ← hlane lane]
  refine ⟨happlied.thr, happlied.dfe, happlied.phase, hspent.moves, hspent.deferred, hspent.charged, happlied.thrT, happlied.dfeT, ?_,
    fun l hl => ?_, hitems.trans hspent.items, ?_⟩
  · rw [← hspent.pinned]
  · exact ((hothers l hl).trans (hspent.others l hl)).trans (hlane l)
  · rw [hstanding, hspent.standing, htap]

/-- R140: the due moves of a gap that can pay none are deferred. -/
theorem deferredGap (hexec : exec (.bellowsGap g) s = .next ((s.gaps [lane]).filled g)) {u : State} (hu : u = s.admitTick.1)
    (hno : s.ledger.st = .closed ∨ (s.ledger.st = .opened ∧ (s.admitTick.2 = true ∨ u.anyHeld = true ∨ u.ledger.balance < 2)))
    (hdue : (s.lane lane).due ≠ 0) :
    ∃ t, exec (.bellowsGap g) s = .next t ∧ (t.lane lane).thr = (s.lane lane).thr ∧
      (t.lane lane).dfe = (s.lane lane).dfe ∧ (t.lane lane).phase = (s.lane lane).phase ∧
      (t.lane lane).deferred = min 0xFFFF ((s.lane lane).deferred + (s.lane lane).due) ∧
      (t.lane lane).st = (if (s.lane lane).pinned then .pinned else .tracking) ∧ (∀ l, l ≠ lane → t.lane l = s.lane l) ∧
      t.ledger = { u.ledger with shown := t.ledger.shown } ∧ t.items = u.items ∧
      t.standing = { u.standing with
        lanes := t.lanes, ledger := t.ledger, flueA := t.flueA.steady, flueB := t.flueB.steady } := by
  have hadmits : Admits s u := hu ▸ admits_admitTick s
  have hlane : ∀ l, u.lane l = s.lane l := fun l => congrArg (vget · l) hadmits.lanes
  have hcan : u.canMove s.admitTick.2 = false := by
    unfold State.canMove
    rw [hadmits.ledgerSt]
    obtain hclosed | ⟨hopen, hwhy⟩ := hno
    · rw [hclosed]
    · have hcost : ¬ Config.costTapMove ≤ u.ledger.balance ↔ u.ledger.balance < 2 := not_le
      rw [hopen]
      obtain hended | hheld | hpoor := hwhy
      · simp [hended]
      · simp [hheld]
      · simp [hcost.mpr hpoor]
  have hmoved : State.moveAll s.admitTick.2 3 0 u lane = u.deferMoves lane (s.lane lane).due := by
    rw [← hlane lane] at hdue ⊢
    exact moveAll_deferred hdue (Nat.zero_le _) hcan
  rw [gaps_single (.inr hdue), ← hu] at hexec
  refine ⟨_, hexec, ?_⟩
  obtain ⟨hself, hothers, hitems, hledger, hstanding⟩ := gapDone (g := g) hmoved rfl
  generalize (State.gap s.admitTick.2 lane u).snapshot.filled g = t at *
  have hdeferred : (u.deferMoves lane (s.lane lane).due).lane lane =
      { s.lane lane with deferred := min 0xFFFF ((s.lane lane).deferred + (s.lane lane).due) } := by
    rw [← hlane lane]
    exact lane_modLane_self u lane _
  rw [hdeferred, afterGap_eq] at hself
  rw [hself]
  refine ⟨rfl, rfl, rfl, rfl, rfl, fun l hl => ?_, hledger, hitems, hstanding⟩
  exact ((hothers l hl).trans ((lane_modLane u lane l _).trans (if_neg hl))).trans (hlane l)

/-- R294: an inserted FILLER makes no move. -/
theorem gaps_none_lanes : (s.gaps []).lanes = s.lanes := by
  unfold State.gaps
  split
  · exact (admits_admitTick s).lanes
  · rfl

theorem exec_laneStarved {p : Tally} (hp : (s.lane lane).pendingFrom = some p) (hrun : s.running = true)
    (hcal : (s.lane lane).calibrates = true) (hrec : s.receives lane = true) (htest : s.isTest lane = false) :
    exec (.laneStarved lane) s = .next ((s.advanceTo (tickPlus p 16384)).modLane lane fun x => { x with st := .starved }) := by
  change execLaneStarved lane s = _
  unfold execLaneStarved
  rw [hp]
  exact if_pos ⟨hrun, hcal, hrec, by rw [htest]; rfl⟩

end Clauses

/-! ### The obligation -/

/-- Settles O26: a frame aims its lane and moves nothing; a gap follows the admission of its tick, makes the due moves one of each
kind or defers them all, and its FILLER passes the elastic buffers. -/
theorem bellowsFramesAndGaps : Obligations.BellowsFramesAndGaps := by
  unfold Obligations.BellowsFramesAndGaps
  refine ⟨fun lane f s hrun hwf hloop => ⟨phaseTarget_spec f.edges, fun hcal hrec hheld => ?_, fun hst hon => ?_, fun hretrain hon => ?_⟩,
    fun lane g s u hrun hcal hrec htest hu hlanes hinserted => ?_⟩
  · exact frameSetsTargets hrun hcal hrec hloop hheld
  · exact trainingFrameJumps s lane f hrun hloop hst hon
  · exact hostLeadsToRecovery s lane f hrun hretrain hon
  have hexec : exec (.bellowsGap g) s = .next ((s.gaps [lane]).filled g) := by
    rw [exec_bellowsGap hrun, gapLanes_single hcal hrec htest hlanes hinserted]
  refine ⟨fun t ht f => ?_, frozenGap hexec, fun hruns hpay => paidGap hexec htest hu hruns hpay, deferredGap hexec hu,
    fun hl h hhl hhi => ⟨_, exec_bellowsGap hrun, ?_⟩, fun p hp => exec_laneStarved hp hrun hcal hrec htest⟩
  · cases hexec.symm.trans ht
    refine (gap_elastic [lane] f).imp_right fun ⟨hfwd, hst, hmask, hnext⟩ => ⟨hfwd, hst, hmask, fun k hk => ?_⟩
    subst hk
    rw [hnext, elasticNext_eq]
    cases f <;> rfl
  · rw [gapLanes_inserted hl (hhl.trans hlanes) (hhi.trans hhl.symm), (filled_kept _ h).1]
    exact gaps_none_lanes

end Sys2Proof.Machine
end

-- ==== Proofs of 06_host_lanes_and_bellows: the end-to-end tables ====
section
/-! The end-to-end tables of a bridge (R249, R299, R300) and what leaves them alone: arrivals, requests that are issued, control blocks
and locks that end. -/

namespace Sys2Proof.Machine

open Sys2Proof

/-! ### The tables -/

/-- The numbers expected next, the send store, the flue events counted and the posted writes that each hearth has on their way. -/
structure EndPart where
  expect : Vector (BitVec 16) 16
  store : List Stored
  flueEvents : Nat
  posted : HearthId → List Nat

def State.endPart (s : State) : EndPart :=
  { expect := s.chim.expect, store := s.chim.store, flueEvents := s.soot.flueEvents, posted := fun n => (s.hearth n).posted }

theorem endPart_modHearth (s : State) (n : HearthId) (g : Hearth → Hearth) (hg : ∀ h, (g h).posted = h.posted) :
    (s.modHearth n g).endPart = s.endPart := by
  have hposted : (fun k => ((s.modHearth n g).hearth k).posted) = fun k => (s.hearth k).posted := funext fun k => by
    by_cases hk : k = n
    · rw [hk, hearth_modHearth_self, hg]
    · rw [hearth_modHearth_ne _ _ _ _ hk]
  exact congrArg (fun p => { s.endPart with posted := p }) hposted

section Errors

variable (s : State)

theorem endPart_errMessage (f : FnId) (k : Option TxKind) : (s.errMessage f k).endPart = s.endPart := by
  unfold State.errMessage
  dsimp only
  (repeat' split) <;> rfl

theorem endPart_recordCor (f : FnId) (e : CorErr) : (s.recordCor f e).endPart = s.endPart := by
  unfold State.recordCor
  split
  · exact endPart_errMessage _ f _
  · rfl

theorem endPart_recordUnc (f : FnId) (e : UncErr) (advisory : Bool) (hdr : Vector Dword 4) :
    (s.recordUnc f e advisory hdr).endPart = s.endPart := by
  unfold State.recordUnc
  split
  · exact endPart_errMessage _ f _
  · rfl

theorem endPart_logEvent (f : FnId) : (s.logEvent f).endPart = s.endPart := endPart_recordCor s f _

theorem endPart_emit (f : FlueId) (b : FlueBlk) : (s.emit f b).endPart = s.endPart := by cases f <;> rfl

theorem endPart_control (q : Fin 4) (b : FlueBlk) : (s.control q b).endPart = s.endPart := by
  unfold State.control
  split
  · exact endPart_emit s _ b
  · rfl

theorem endPart_receipt (q : Fin 4) : (s.receipt q).endPart = s.endPart := endPart_control s q _

theorem endPart_performedFrom (p : Fin 4) (num : BitVec 16) : (s.performedFrom p num).endPart = s.endPart := by
  unfold State.performedFrom
  exact endPart_receipt _ p

end Errors

/-! ### Arrivals -/

section Arrivals

variable (s : State) (f : FlueId) (b : PieceBlk)

theorem endPart_presentArrival (path : List DomainId) (cost : Nat) (w : Work) :
    (s.presentArrival f b path cost w).endPart = s.endPart := by
  unfold State.presentArrival
  split <;> rfl

theorem endPart_refuseArrival (st : CplStatus) : (s.refuseArrival b st).endPart = s.endPart := by
  unfold State.refuseArrival
  split
  · rfl
  · exact endPart_performedFrom s _ _

theorem endPart_farArrival : (s.farArrival f b).endPart = s.endPart := by
  unfold State.farArrival
  dsimp only
  (repeat' split)
  · exact endPart_presentArrival s f b _ _ _
  · exact (endPart_refuseArrival _ b _).trans (endPart_logEvent s _)
  · exact endPart_refuseArrival s b _

theorem endPart_backOff : (s.backOff b).endPart = s.endPart := endPart_control s _ _

theorem endPart_faultArrival (m : HearthId) (a : Nat) (key : BitVec 4) : (s.faultArrival b m a key).endPart = s.endPart := by
  have hfault : ∀ (c : Prop) [Decidable c] (e : FaultEntry), (if c then s.writeFault e else s).endPart = s.endPart := fun c _ e => by
    split <;> rfl
  unfold State.faultArrival
  dsimp only
  refine (endPart_refuseArrival _ b _).trans ?_
  split
  · exact (endPart_logEvent _ _).trans (hfault _ _)
  · exact hfault _ _

theorem endPart_endFarLock (m : HearthId) (mask : Bool) : (s.endFarLock m mask).endPart = s.endPart := by
  unfold State.endFarLock
  split
  · rfl
  · next l _ =>
    exact endPart_modHearth s m
      (fun h => { h with farLock := none, farMasked := if mask then (l.pos, l.hearth) :: h.farMasked else h.farMasked }) fun _ => rfl

theorem endPart_endLock (n : HearthId) (rose : Bool) : (s.endLock n rose).endPart = s.endPart := by
  unfold State.endLock
  split
  · rfl
  · exact endPart_modHearth s n (fun h => { h with lock := none, lockMasked := !rose }) fun _ => rfl

theorem endPart_takeFarLock (p : Piece) (m : HearthId) : (s.takeFarLock p m).endPart = s.endPart := by
  have hend : ∀ c : Bool, (if c then s.endFarLock m false else s).endPart = s.endPart := fun c => by
    split
    · exact endPart_endFarLock s m false
    · rfl
  unfold State.takeFarLock
  dsimp only
  split
  · rfl
  · split
    · rfl
    · split
      · rw [apply_ite State.endPart, apply_ite State.endPart, endPart_modHearth, endPart_modHearth, ite_self, ite_self]
        · intro h; rfl
        · intro h; rfl
      · exact (endPart_modHearth _ m _ (by intro h; rfl)).trans (hend _)

theorem endPart_decodeArrival (m : HearthId) : (s.decodeArrival f b m).endPart = s.endPart := by
  unfold State.decodeArrival
  dsimp only
  (repeat' split) <;>
    simp only [endPart_faultArrival, endPart_backOff, endPart_presentArrival, endPart_takeFarLock, endPart_farArrival]

theorem endPart_landHearth (m : HearthId) : (s.landHearth f b m).endPart = s.endPart := by
  unfold State.landHearth
  dsimp only
  (repeat' split)
  · exact endPart_backOff s b
  · rfl
  · exact endPart_farArrival s f b
  · exact endPart_decodeArrival s f b m

theorem endPart_landHost : (s.landHost f b).endPart = s.endPart := by
  unfold State.landHost
  dsimp only
  (repeat' split)
  · exact endPart_farArrival s f b
  · rfl
  · exact endPart_performedFrom s _ _
  · exact endPart_farArrival s f b
  · exact endPart_backOff s b
  · exact endPart_farArrival s f b
  · rfl
  · exact endPart_presentArrival s f b _ _ _

theorem endPart_landChange : (s.landChange f b).endPart = s.endPart := by
  unfold State.landChange
  dsimp only
  split <;> rfl

theorem endPart_dropTag (g : FlueId) (tag : Nat) (o : Origin) : (s.dropTag g tag o).endPart = s.endPart := by cases g <;> rfl

theorem endPart_landCompletion : (s.landCompletion f b).endPart = s.endPart := by
  unfold State.landCompletion
  split
  · rfl
  · exact endPart_dropTag s _ _ _

theorem endPart_land : (s.land f b).endPart = s.endPart := by
  unfold State.land
  (repeat' split)
  · exact endPart_landCompletion s f b
  · exact endPart_landChange s f b
  · exact endPart_landHearth s f b _
  · exact endPart_landHost s f b
  · exact endPart_farArrival s f b

theorem endPart_landGated : (s.landGated f b).endPart = s.endPart := by
  unfold State.landGated
  (repeat' split)
  · rfl
  · exact endPart_land s f b
  · exact endPart_presentArrival s f b _ _ _

theorem endPart_modFlue (g : Flue → Flue) : (s.modFlue f g).endPart = s.endPart := by cases f <;> rfl

theorem endPart_checkXoff (c : Cls) : (s.checkXoff f c).endPart = s.endPart := by
  unfold State.checkXoff
  dsimp only
  split
  · exact (endPart_emit _ f _).trans (endPart_modFlue s f _)
  · rfl

end Arrivals

/-! ### Requests that are issued -/

section Requests

variable (s : State) (id : Nat)

theorem endPart_presentHost (port : PortId) (path : List DomainId) (cost : Nat) (w : Work) :
    (s.presentHost port path cost w).endPart = s.endPart := rfl

theorem endPart_presentPieces (l : List (Piece × Nat)) : (s.presentPieces l).endPart = s.endPart :=
  forList_eq State.endPart _ _ (fun _ t => endPart_presentHost t _ _ _ _) s

theorem endPart_issueWith (l : List (Piece × Nat)) : (s.issueWith id l).endPart = s.endPart := endPart_presentPieces _ l

theorem endPart_sendCpl (r : HostReq) (status : CplStatus) (bytes : List (Nat × Byte)) (off len : Nat) :
    (s.sendCpl r status bytes off len).endPart = s.endPart := by
  unfold State.sendCpl State.setStatus
  dsimp only
  (repeat' split) <;> rfl

theorem endPart_refuseReq (r : HostReq) (status : CplStatus) (e : Option UncErr) : (s.refuseReq r status e).endPart = s.endPart := by
  have herr : (match e with | some e => s.recordUnc r.fn e r.read r.hdr | none => s).endPart = s.endPart := by
    split
    · exact endPart_recordUnc s _ _ _ _
    · rfl
  unfold State.refuseReq
  dsimp only
  split
  · exact (endPart_sendCpl _ r status _ _ _).trans herr
  · exact herr

theorem endPart_closeReq : (s.closeReq id).endPart = s.endPart := by
  unfold State.closeReq State.releaseCredits
  dsimp only
  (repeat' split) <;> rfl

theorem endPart_missReq : (s.missReq id).endPart = s.endPart := by
  unfold State.missReq
  split
  · rfl
  · exact (endPart_closeReq _ id).trans (endPart_refuseReq s _ _ _)

theorem endPart_tryIssue : (s.tryIssue id).endPart = s.endPart := by
  unfold State.tryIssue
  dsimp only
  (repeat' split)
  · rfl
  · exact endPart_issueWith s id _
  · exact endPart_missReq s id
  · rfl
  · exact endPart_issueWith s id _
  · rfl
  · rfl

theorem endPart_issueWaiting : s.issueWaiting.endPart = s.endPart := forList_eq State.endPart _ _ (fun id s => endPart_tryIssue s id) s

theorem endPart_removePieces (q : Piece → Bool) : (s.removePieces q).endPart = s.endPart := by
  have hposted : (fun n => ((s.removePieces q).hearth n).posted) = fun n => (s.hearth n).posted := funext fun n => by
    rw [removePieces_hearth]
  have hchim : (s.removePieces q).chim = s.chim := by
    unfold State.removePieces
    rfl
  have hsoot : (s.removePieces q).soot = s.soot := by
    unfold State.removePieces
    rfl
  unfold State.endPart
  rw [hposted, hchim, hsoot]

end Requests

end Sys2Proof.Machine
end

-- ==== Proofs of 06_host_lanes_and_bellows: pieces sent again ====
section
/-! Stored pieces that are sent again (R299, R301), and what the end-to-end tables keep when the links change. -/

namespace Sys2Proof.Machine

open Sys2Proof

/-! ### A stored piece -/

/-- `y` is the stored piece `x`, which may have another first link and, with it, another flue tag (R307), and be due again. -/
def Stored.Same (x y : Stored) : Prop := y.dst = x.dst ∧ y.num = x.num ∧ y.piece = { x.piece with tag := y.piece.tag }

theorem Stored.Same.refl (x : Stored) : x.Same x := ⟨rfl, rfl, rfl⟩

theorem Stored.Same.trans {x y z : Stored} (hxy : x.Same y) (hyz : y.Same z) : x.Same z := by
  obtain ⟨hdst, hnum, hpiece⟩ := hxy
  obtain ⟨hdst', hnum', hpiece'⟩ := hyz
  refine ⟨hdst'.trans hdst, hnum'.trans hnum, ?_⟩
  rw [hpiece', hpiece]

theorem Stored.Same.cls {x y : Stored} (h : x.Same y) : y.piece.cls = x.piece.cls := by
  obtain ⟨-, -, hpiece⟩ := h
  rw [hpiece]

theorem same_store_trans {a b c : List Stored} (hab : List.Forall₂ Stored.Same a b) (hbc : List.Forall₂ Stored.Same b c) :
    List.Forall₂ Stored.Same a c := by
  induction hab generalizing c with
  | nil => exact hbc
  | cons hx _ ih =>
    cases hbc with
    | cons hy htail => exact .cons (hx.trans hy) (ih htail)

/-- The two tables differ in no more than how the stored pieces are sent. -/
structure EndPart.Resent (a b : EndPart) : Prop where
  expect : b.expect = a.expect
  flueEvents : b.flueEvents = a.flueEvents
  posted : b.posted = a.posted
  store : List.Forall₂ Stored.Same a.store b.store

theorem EndPart.Resent.refl (a : EndPart) : a.Resent a := ⟨rfl, rfl, rfl, List.forall₂_same.mpr fun x _ => .refl x⟩

theorem EndPart.Resent.of_eq {a b : EndPart} (h : b = a) : a.Resent b := h ▸ EndPart.Resent.refl a

theorem EndPart.Resent.trans {a b c : EndPart} (hab : a.Resent b) (hbc : b.Resent c) : a.Resent c where
  expect := hbc.expect.trans hab.expect
  flueEvents := hbc.flueEvents.trans hab.flueEvents
  posted := hbc.posted.trans hab.posted
  store := same_store_trans hab.store hbc.store

theorem resent_forList {α : Type} (l : List α) (f : α → State → State) (h : ∀ x s, (State.endPart s).Resent (f x s).endPart) (s : State) :
    s.endPart.Resent (forList l f s).endPart :=
  forList_inv (P := fun t => s.endPart.Resent t.endPart) (fun x _ t ht => ht.trans (h x t)) (.refl _)

/-! ### Pieces sent again -/

section Resend

variable (s : State)

/-- The stored pieces after those that may leave have left. -/
def State.flushed (s : State) : List Stored := s.chim.store.map fun x => if s.maySend x then { x with due := false, sent := true } else x

theorem flushStore_endPart : s.flushStore.endPart = { s.endPart with store := s.flushed } := by
  have hemits := forList_eq State.endPart (s.chim.store.filter s.maySend)
    (fun x s => s.emit x.via (.piece (State.blockOf x.piece x.num))) (fun x t => endPart_emit t _ _) s
  exact congrArg (fun a => { a with store := s.flushed }) hemits

theorem flushed_same : List.Forall₂ Stored.Same s.chim.store s.flushed := by
  refine List.forall₂_map_right_iff.mpr (List.forall₂_same.mpr fun x _ => ?_)
  split
  · exact ⟨rfl, rfl, rfl⟩
  · exact .refl x

theorem resent_flushStore : s.endPart.Resent s.flushStore.endPart := by
  rw [flushStore_endPart]
  exact ⟨rfl, rfl, rfl, flushed_same s⟩

theorem moveTag_same (f : FlueId) (x : Stored) : (s.moveTag f x).1.endPart = s.endPart ∧ x.Same (s.moveTag f x).2 := by
  unfold State.moveTag
  split
  · split
    · exact ⟨(endPart_modFlue _ f _).trans (endPart_modFlue s x.via _), rfl, rfl, rfl⟩
    · exact ⟨rfl, rfl, rfl, rfl⟩
  · exact ⟨rfl, rfl, rfl, rfl⟩

theorem moveStore_same (f : FlueId) (q : Stored → Bool) (l : List Stored) :
    (State.moveStore s f q l).1.endPart = s.endPart ∧ List.Forall₂ Stored.Same l (State.moveStore s f q l).2 := by
  induction l generalizing s with
  | nil => exact ⟨rfl, .nil⟩
  | cons x rest ih =>
    obtain ⟨htag, hx⟩ := moveTag_same s f x
    unfold State.moveStore
    split
    · exact ⟨(ih _).1.trans htag, .cons hx (ih _).2⟩
    · exact ⟨(ih s).1, .cons (.refl x) (ih s).2⟩

theorem resent_resend (q : Fin 4) (c : Cls) : s.endPart.Resent (s.resend q c).endPart := by
  unfold State.resend
  split
  · exact .refl _
  · next f _ =>
    obtain ⟨hpart, hstore⟩ := moveStore_same s f (fun x => x.dst = q && x.piece.cls = c) s.chim.store
    generalize State.moveStore s f (fun x => x.dst = q && x.piece.cls = c) s.chim.store = moved at hpart hstore
    obtain ⟨s1, l⟩ := moved
    dsimp only at hpart hstore ⊢
    refine EndPart.Resent.trans (b := { s1.endPart with store := l }) ?_
      (resent_flushStore { s1 with chim := { s1.chim with store := l } })
    rw [hpart]
    exact ⟨rfl, rfl, rfl, hstore⟩

theorem resent_repath (old : State) : s.endPart.Resent (State.repath old s).endPart := by
  unfold State.repath
  refine resent_forList _ _ (fun x t => ?_) s
  split
  · exact resent_resend t _ _
  · exact .refl _

end Resend

theorem endPart_woken (s : State) : s.woken.endPart = s.endPart := rfl

/-! ### Paths that come and go -/

section Links

variable (s : State)

theorem endPart_sendReports (f : FlueId) : (s.sendReports f).endPart = s.endPart := by cases f <;> rfl

theorem endPart_pathBegins (q : Fin 4) (f : FlueId) : (s.pathBegins q f).endPart = s.endPart := by
  have hrest : ((s.sendLevels q f).receipt q).endPart = s.endPart := (endPart_receipt _ q).trans (endPart_emit s f _)
  unfold State.pathBegins
  dsimp only
  split
  · exact (endPart_sendReports _ f).trans hrest
  · exact hrest

theorem endPart_pathLost (q : Fin 4) : (s.pathLost q).endPart = s.endPart := by
  unfold State.pathLost
  refine (forList_eq State.endPart allHearths _ (fun n t => ?_) _).trans (forList_eq State.endPart allHearths _ (fun n t => ?_) _)
  · split
    · split
      · exact endPart_endFarLock t n false
      · rfl
    · rfl
  · split
    · split
      · split
        · exact endPart_endLock t n false
        · rfl
      · rfl
    · rfl

theorem endPart_payOwed : s.payOwed.endPart = s.endPart :=
  forList_eq State.endPart s.chim.owed (fun x s => s.control x.1 x.2) (fun _ t => endPart_control t _ _) _

/-- The paths of `old` that have come into use, then those that are lost. -/
def State.pathsBegun (s : State) (old : State) : State :=
  forList (s.others.flatMap fun q => bothFlues.map fun f => (q, f))
    (fun x s => if s.carries x.1 x.2 ∧ !old.carries x.1 x.2 then s.pathBegins x.1 x.2 else s) s

def State.pathsLost (s : State) (old : State) (others : List (Fin 4)) : State :=
  forList others (fun q s => if old.reaches q ∧ !s.reaches q then s.pathLost q else s) s

theorem linksChanged_eq (old : State) : State.linksChanged old s =
    (State.repath old ((s.pathsBegun old).pathsLost old s.others)).payOwed.issueWaiting.woken := rfl

theorem endPart_pathsBegun (old : State) : (s.pathsBegun old).endPart = s.endPart := by
  refine forList_eq State.endPart _ _ (fun x t => ?_) s
  split
  · exact endPart_pathBegins t _ _
  · rfl

theorem endPart_pathsLost (old : State) (others : List (Fin 4)) : (s.pathsLost old others).endPart = s.endPart := by
  refine forList_eq State.endPart others _ (fun q t => ?_) s
  split
  · exact endPart_pathLost t q
  · rfl

/-- What follows when the links change leaves the tables alone, but for pieces sent again. -/
theorem resent_linksChanged (old : State) : s.endPart.Resent (State.linksChanged old s).endPart := by
  rw [linksChanged_eq]
  refine .trans (.of_eq ((endPart_pathsLost _ old s.others).trans (endPart_pathsBegun s old))) ?_
  refine (resent_repath _ old).trans (.of_eq ?_)
  exact (endPart_woken _).trans ((endPart_issueWaiting _).trans (endPart_payOwed _))

end Links

end Sys2Proof.Machine
end

-- ==== Proofs of 06_host_lanes_and_bellows: a faulty block on a flue ====
section
/-! A faulty block on an ACTIVE flue drops its link (R138, R303). -/

namespace Sys2Proof.Machine

open Sys2Proof

theorem lanes_of_standing {s t : State} (h : t.standing = s.standing) : t.lanes = s.lanes := congrArg Standing.lanes h

section Faulty

variable (s : State) (f : FlueId) (cause : Nat) (e : BlockFault)

theorem flueEvent_endPart : (s.flueEvent f cause).endPart = { s.endPart with flueEvents := satInc 0xFFFF s.soot.flueEvents } := by
  have hset : ∀ u : State, ({ u with soot := { u.soot with flueEvents := satInc 0xFFFF u.soot.flueEvents } } : State).endPart =
    { u.endPart with flueEvents := satInc 0xFFFF u.endPart.flueEvents } := fun _ => rfl
  have hmod := endPart_modFlue s f fun x => { x with cause := cause, eventTick := s.now }
  unfold State.flueEvent
  dsimp only
  split
  · rw [hset, hmod]
    rfl
  · rw [endPart_logEvent, hset, hmod]
    rfl

theorem endPart_reacquire : (s.reacquire f).endPart = s.endPart :=
  forList_eq State.endPart (flueLanes f) _ (fun l s => by split <;> rfl) s

/-- The link that drops: what changes before the other links and paths are looked at. -/
def State.flueFallen (s : State) (f : FlueId) (cause : Nat) : State :=
  ((s.modFlue f fun x => { x with st := .down, dropTick := s.now, retrains := satInc 0xFFFF x.retrains }).flueEvent f cause).dropTransit f

theorem dropLink_eq : s.dropLink f cause = State.linksChanged s ((s.flueFallen f cause).reacquire f) := rfl

theorem dropLink_endPart : { s.endPart with flueEvents := satInc 0xFFFF s.soot.flueEvents }.Resent (s.dropLink f cause).endPart := by
  refine .trans (.of_eq ?_) (resent_linksChanged ((s.flueFallen f cause).reacquire f) s)
  have hmod := endPart_modFlue s f fun x => { x with st := .down, dropTick := s.now, retrains := satInc 0xFFFF x.retrains }
  rw [endPart_reacquire, State.flueFallen, State.dropTransit, endPart_removePieces, flueEvent_endPart, hmod]
  exact congrArg (fun a => { s.endPart with flueEvents := satInc 0xFFFF a }) (congrArg EndPart.flueEvents hmod)

theorem flueFallen_standing : (s.flueFallen f cause).standing = (s.modFlue f (Flue.dropped s.now cause)).standing := by
  unfold State.flueFallen
  rw [standing_dropTransit, standing_flueEvent]
  cases f <;> rfl

theorem dropLink_flue_other : ((s.dropLink f cause).flue (FlueId.other f)).steady = (s.flue (FlueId.other f)).steady := by
  rw [dropLink_eq, flue_steady_of_standing (standing_linksChanged s _), reacquire_flue,
    flue_steady_of_standing (flueFallen_standing s f cause)]
  cases f <;> rfl

theorem reacquire_acquiring {l : LaneId} (hl : l ∈ flueLanes f) (hon : (s.dom (laneDom l)).isOn = true) :
    ((s.reacquire f).lane l).st = .acquiring := by
  have hset : ∀ (u : State) (k : LaneId), (u.modLane k fun x => { x.noTargets with st := .acquiring }).lane k =
      { (u.lane k).noTargets with st := .acquiring } := fun u k => vget_vmod_self _ _ _
  refine forList_of_mem_while (P := fun t => (t.lane l).st = .acquiring) (Q := fun t => (t.dom (laneDom l)).isOn = true) hl
    (fun u hu => ?_) (fun k _ u hu => ?_) (fun k _ u hu => ?_) hon
  · rw [if_pos hu, hset]
  · split
    · by_cases hk : k = l
      · rw [hk, hset]
      · exact (congrArg Lane.st (vget_vmod_ne _ _ _ _ (Ne.symm hk))).trans hu
    · exact hu
  · split
    · exact hu
    · exact hu

theorem dropLink_acquiring {l : LaneId} (hl : l ∈ flueLanes f) (hon : (s.dom (laneDom l)).isOn = true) :
    ((s.dropLink f cause).lane l).st = .acquiring := by
  have hdoms : (s.flueFallen f cause).doms = s.doms := (doms_eq_of_standing (flueFallen_standing s f cause)).trans (by cases f <;> rfl)
  have hon' : ((s.flueFallen f cause).dom (laneDom l)).isOn = true := by
    rw [State.dom, hdoms]
    exact hon
  have hlanes : (s.dropLink f cause).lanes = ((s.flueFallen f cause).reacquire f).lanes := by
    rw [dropLink_eq]
    exact lanes_of_standing (standing_linksChanged s _)
  rw [State.lane, hlanes]
  exact reacquire_acquiring _ f hl hon'

theorem flueEvents_of_resent {t : State} {n : Nat} (h : { s.endPart with flueEvents := n }.Resent t.endPart) :
    t.chim.expect = s.chim.expect ∧ t.soot.flueEvents = n := ⟨h.expect, h.flueEvents⟩

/-! ### Parity errors that are counted -/

theorem countParity_retrains : ((s.countParity f e).flue f).retrains = (s.flue f).retrains := by
  cases e
  case parity l => cases f <;> rfl
  all_goals rfl

theorem countParity_rest : (s.countParity f e).flue (FlueId.other f) = s.flue (FlueId.other f) ∧ (s.countParity f e).doms = s.doms ∧
    (s.countParity f e).chim = s.chim ∧ (s.countParity f e).soot = s.soot ∧ (s.countParity f e).clk = s.clk := by
  cases e
  case parity l => cases f <;> exact ⟨rfl, rfl, rfl, rfl, rfl⟩
  all_goals exact ⟨rfl, rfl, rfl, rfl, rfl⟩

/-- R138, R303: a faulty block drops the link, whose lanes acquire again. -/
theorem faultyBlock_drops (b : PieceBlk) (hactive : s.flueActive f = true) : ∃ t, exec (.pieceReceived f (some e) b) s = .next t ∧
    (t.flue f).st = .down ∧ (t.flue f).cause = faultCause e ∧
    (t.flue f).retrains = satInc 0xFFFF (s.flue f).retrains ∧ (t.flue f).dropTick = s.now ∧ (t.flue f).eventTick = s.now ∧
    (t.flue (FlueId.other f)).st = (s.flue (FlueId.other f)).st ∧ t.soot.flueEvents = satInc 0xFFFF s.soot.flueEvents ∧
    (∀ l ∈ flueLanes f, (s.dom (laneDom l)).isOn = true → (t.lane l).st = .acquiring) ∧ t.chim.expect = s.chim.expect := by
  have hcount := countParity_retrains s f e
  obtain ⟨hother, hdoms, hchim, hsoot, hclk⟩ := countParity_rest s f e
  refine ⟨(s.countParity f e).dropLink f (faultCause e), if_pos hactive, ?_⟩
  generalize s.countParity f e = u at *
  have hnow : u.now = s.now := congrArg Clock.tally hclk
  have hsteady := dropLink_steady u f (faultCause e)
  have hpart := dropLink_endPart u f (faultCause e)
  have hretrains : ((u.dropLink f (faultCause e)).flue f).retrains = satInc 0xFFFF (u.flue f).retrains := congrArg Flue.retrains hsteady
  rw [hcount] at hretrains
  obtain ⟨hexpect, hevents⟩ := flueEvents_of_resent u hpart
  rw [hsoot] at hevents
  refine ⟨congrArg Flue.st hsteady, congrArg Flue.cause hsteady, hretrains,
    (congrArg Flue.dropTick hsteady).trans hnow, (congrArg Flue.eventTick hsteady).trans hnow,
    (congrArg Flue.st (dropLink_flue_other u f _)).trans ((congrArg Flue.st hother : (u.flue _).st = (s.flue _).st)),
    hevents, fun l hl hon => ?_,
    hexpect.trans (congrArg Chimney.expect hchim)⟩
  · refine dropLink_acquiring u f _ hl ?_
    rw [State.dom, hdoms]
    exact hon

end Faulty

end Sys2Proof.Machine
end

-- ==== Proofs of 06_host_lanes_and_bellows: blocks on an active flue ====
section
/-! Blocks on an ACTIVE flue (R298, R299, R300): receipts, numbers, and XOFF states of both ends. -/

namespace Sys2Proof.Machine

open Sys2Proof

/-! ### Flue ends alone change -/

section FlueEnds

variable (s : State) (f : FlueId)

theorem standing_flues {t : State} {x : Standing} {a b : Flue} (h : t.standing = { x with flueA := a, flueB := b }) :
    t.standing = { x with flueA := t.flueA.steady, flueB := t.flueB.steady } := by
  have ha : t.flueA.steady = a := congrArg Standing.flueA h
  have hb : t.flueB.steady = b := congrArg Standing.flueB h
  rw [h, ha, hb]

theorem st_of_standing {t : State} (h : t.standing = s.standing) : (t.flue f).st = (s.flue f).st := by
  have hst := congrArg Flue.st (flue_steady_of_standing h f)
  exact hst

theorem modFlue_standing (g : Flue → Flue) : (s.modFlue f g).standing =
    { s.standing with flueA := (s.modFlue f g).flueA.steady, flueB := (s.modFlue f g).flueB.steady } := by
  cases f <;> rfl

theorem emit_flue (b : FlueBlk) : (s.emit f b).flue f = { s.flue f with out := (s.flue f).out ++ [b] } := by cases f <;> rfl

theorem emit_flue_other (b : FlueBlk) : (s.emit f b).flue (FlueId.other f) = s.flue (FlueId.other f) := by cases f <;> rfl

theorem emit_flue_ne {g : FlueId} (h : g ≠ f) (b : FlueBlk) : (s.emit g b).flue f = s.flue f := by
  have hother : f = FlueId.other g := by
    cases g <;> cases f
    · exact absurd rfl h
    · rfl
    · rfl
    · exact absurd rfl h
  rw [hother, emit_flue_other]

theorem checkXoff_standing (c : Cls) : (s.checkXoff f c).standing =
    { s.standing with flueA := (s.checkXoff f c).flueA.steady, flueB := (s.checkXoff f c).flueB.steady } := by
  unfold State.checkXoff
  dsimp only
  split
  · exact standing_flues ((standing_emit _ f _).trans (modFlue_standing s f _))
  · rfl

theorem checkXoff_st (c : Cls) : ((s.checkXoff f c).flue f).st = (s.flue f).st := by
  unfold State.checkXoff
  dsimp only
  split
  · cases f <;> rfl
  · rfl

theorem flueActive_st (h : s.flueActive f = true) : (s.flue f).st = .active := by
  simp only [State.flueActive, Bool.and_eq_true, decide_eq_true_eq] at h
  exact h.2

end FlueEnds

/-! ### Receipts -/

section Receipts

variable (s : State) (q : Fin 4) (b : FlueBlk)

theorem control_of_path {g : FlueId} (h : s.freshPath q = some g) : s.control q b = s.emit g b := by
  rw [State.control, h]

theorem control_of_none (h : s.freshPath q = none) :
    s.control q b = { s with chim := { s.chim with owed := (s.chim.owed.filter fun x => !(x.1 = q && b.replaces x.2)) ++ [(q, b)] } } := by
  rw [State.control, h]

/-- R300: what has been accepted from position `q`, and performed for it. -/
def State.receiptFor (s : State) (q : Fin 4) : Receipt :=
  { dst := s.pos, src := q, accepted := Vector.ofFn fun c => vget s.chim.expect ⟨4 * q.val + c.val, by omega⟩
    performed := vget s.chim.performed q }

theorem receipt_eq : s.receipt q = s.control q (.receipt (s.receiptFor q)) := rfl

theorem receiptFor_accepted (c : Cls) :
    (s.receiptFor q).accepted.toList[Cls.code c]? = some (vget s.chim.expect (e2e q c)) := by
  cases c <;> rfl

/-- A control block changes nothing but what leaves, or waits for a path. -/
theorem control_rest : (s.control q b).chim = { s.chim with owed := (s.control q b).chim.owed } ∧ (s.control q b).items = s.items ∧
    (s.control q b).sw = s.sw ∧ (s.control q b).reqs = s.reqs := by
  cases h : s.freshPath q with
  | some g =>
    rw [control_of_path s q b h]
    exact ⟨by rw [emit_chim], emit_items s g b, emit_sw s g b, emit_reqs s g b⟩
  | none =>
    rw [control_of_none s q b h]
    exact ⟨rfl, rfl, rfl, rfl⟩

theorem control_leaves {g : FlueId} (h : s.freshPath q = some g) :
    (s.control q b).chim = s.chim ∧ ((s.control q b).flue g).out = (s.flue g).out ++ [b] := by
  rw [control_of_path s q b h, emit_flue]
  exact ⟨emit_chim s g b, rfl⟩

theorem control_waits (h : s.freshPath q = none) :
    (q, b) ∈ (s.control q b).chim.owed ∧ (s.control q b).flueA = s.flueA ∧ (s.control q b).flueB = s.flueB := by
  rw [control_of_none s q b h]
  exact ⟨List.mem_append_right _ List.mem_cons_self, rfl, rfl⟩

end Receipts

/-! ### Numbers -/

section Numbers

variable (s : State) (f : FlueId) (b : PieceBlk)

theorem compareNumber_seen {expected num : BitVec 16} (hne : num ≠ expected) (hle : (expected - num).toNat ≤ 32768) :
    compareNumber expected num = .seen := (if_neg hne).trans (if_pos hle)

/-- R300: a piece already accepted is only receipted. -/
theorem takePiece_of_seen (hne : b.num ≠ vget s.chim.expect (e2e b.srcPos b.cls))
    (hle : (vget s.chim.expect (e2e b.srcPos b.cls) - b.num).toNat ≤ 32768) : s.takePiece f b = s.receipt b.srcPos := by
  simp only [State.takePiece, compareNumber_seen hne hle]

/-- R300: the bridge expects the number after that of `b`. -/
def State.expectsNext (s : State) (b : PieceBlk) : State :=
  { s with chim := { s.chim with expect := vset s.chim.expect (e2e b.srcPos b.cls) (b.num + 1) } }

theorem takePiece_of_next (h : b.num = vget s.chim.expect (e2e b.srcPos b.cls)) :
    s.takePiece f b = (((s.expectsNext b).receipt b.srcPos).landGated f b).checkXoff f b.cls := by
  have hnext : compareNumber (vget s.chim.expect (e2e b.srcPos b.cls)) b.num = .next := if_pos h
  simp only [State.takePiece, hnext]
  rfl

theorem expect_of_endPart {s t : State} (h : t.endPart = s.endPart) : t.chim.expect = s.chim.expect := congrArg EndPart.expect h

theorem pieceReceived_here (hactive : s.flueActive f = true) (hpos : b.dstPos = s.pos) :
    exec (.pieceReceived f none b) s = .next (s.takePiece f b).woken := (if_pos hactive).trans (if_pos hpos)

theorem seenBlock_receipted (hactive : s.flueActive f = true) (hpos : b.dstPos = s.pos)
    (hne : b.num ≠ vget s.chim.expect (e2e b.srcPos b.cls))
    (hle : (vget s.chim.expect (e2e b.srcPos b.cls) - b.num).toNat ≤ 32768) : ∃ t, exec (.pieceReceived f none b) s = .next t ∧
      t.chim = { s.chim with owed := t.chim.owed } ∧ t.items = s.items ∧ t.sw = s.sw ∧ t.reqs = s.reqs ∧ t.standing = s.standing ∧
      ∃ r : Receipt, r.src = b.srcPos ∧ r.dst = s.pos ∧ r.performed = vget s.chim.performed b.srcPos ∧
        (∀ c, r.accepted.toList[Cls.code c]? = some (vget s.chim.expect (e2e b.srcPos c))) ∧
        (∀ g, s.freshPath b.srcPos = some g → t.chim = s.chim ∧ (t.flue g).out = (s.flue g).out ++ [.receipt r]) ∧
        (s.freshPath b.srcPos = none → (b.srcPos, .receipt r) ∈ t.chim.owed ∧ t.flueA = s.flueA ∧ t.flueB = s.flueB) := by
  refine ⟨_, (pieceReceived_here s f b hactive hpos).trans (by rw [takePiece_of_seen s f b hne hle, receipt_eq]), ?_⟩
  obtain ⟨hchim, hitems, hsw, hreqs⟩ := control_rest s b.srcPos (.receipt (s.receiptFor b.srcPos))
  exact ⟨hchim, hitems, hsw, hreqs, (standing_woken _).trans (standing_control s _ _), s.receiptFor b.srcPos, rfl, rfl, rfl,
    receiptFor_accepted s b.srcPos, fun g => control_leaves s b.srcPos _, control_waits s b.srcPos _⟩

theorem nextBlock_accepted (hactive : s.flueActive f = true) (hpos : b.dstPos = s.pos)
    (hnext : b.num = vget s.chim.expect (e2e b.srcPos b.cls)) : ∃ t, exec (.pieceReceived f none b) s = .next t ∧
      t.chim.expect = vset s.chim.expect (e2e b.srcPos b.cls) (b.num + 1) ∧ (t.flue f).st = .active ∧
      t.standing = { s.standing with flueA := t.flueA.steady, flueB := t.flueB.steady } := by
  refine ⟨((((s.expectsNext b).receipt b.srcPos).landGated f b).checkXoff f b.cls).woken, ?_, ?_⟩
  · rw [pieceReceived_here s f b hactive hpos, takePiece_of_next s f b hnext]
  have hlanded : (((s.expectsNext b).receipt b.srcPos).landGated f b).standing = s.standing :=
    (standing_landGated _ f b).trans ((standing_receipt _ _).trans (standing_setChim s _))
  have hpart : (((s.expectsNext b).receipt b.srcPos).landGated f b).endPart = (s.expectsNext b).endPart :=
    (endPart_landGated _ f b).trans (endPart_receipt _ _)
  generalize ((s.expectsNext b).receipt b.srcPos).landGated f b = u at hlanded hpart ⊢
  have hexpect := expect_of_endPart ((endPart_checkXoff u f b.cls).trans hpart)
  have hst := (checkXoff_st u f b.cls).trans (st_of_standing s f hlanded)
  have hxoff := checkXoff_standing u f b.cls
  rw [hlanded] at hxoff
  generalize u.checkXoff f b.cls = v at hexpect hst hxoff ⊢
  exact ⟨hexpect, hst.trans (flueActive_st s f hactive), hxoff⟩

end Numbers

/-! ### XOFF -/

section Xoff

variable (s : State) (f : FlueId)

/-- The blocks of the stored pieces of `l` that go over flue `f`. -/
def blocksOver (f : FlueId) (l : List Stored) : List FlueBlk :=
  (l.filter fun x => decide (x.via = f)).map fun x => .piece (State.blockOf x.piece x.num)

theorem emitAll_flue (l : List Stored) : (forList l (fun x s => s.emit x.via (.piece (State.blockOf x.piece x.num))) s).flue f =
    { s.flue f with out := (s.flue f).out ++ blocksOver f l } := by
  induction l generalizing s with
  | nil => exact (by rw [blocksOver, List.filter_nil, List.map_nil, List.append_nil]; rfl)
  | cons x l ih =>
    refine (ih _).trans ?_
    by_cases hx : x.via = f
    · subst hx
      have hblocks : blocksOver x.via (x :: l) = .piece (State.blockOf x.piece x.num) :: blocksOver x.via l := by
        rw [blocksOver, List.filter_cons_of_pos (by exact decide_eq_true rfl), List.map_cons, blocksOver]
      rw [emit_flue, hblocks]
      exact congrArg (fun o => { s.flue x.via with out := o }) (List.append_assoc _ [_] _)
    · rw [emit_flue_ne s f hx, blocksOver, blocksOver, List.filter_cons_of_neg (by simpa using hx)]

theorem flushStore_flue : s.flushStore.flue f = { s.flue f with out := (s.flue f).out ++ blocksOver f (s.chim.store.filter s.maySend) } := by
  rw [← emitAll_flue]
  cases f <;> rfl

theorem flushStore_items : s.flushStore.items = s.items :=
  forList_eq State.items (s.chim.store.filter s.maySend) (fun x s => s.emit x.via (.piece (State.blockOf x.piece x.num)))
    (fun _ t => emit_items t _ _) s

theorem flushStore_chim : s.flushStore.chim = { s.chim with store := s.flushed } :=
  congrArg (fun c : Chimney => { c with store := s.flushed })
    (forList_eq State.chim (s.chim.store.filter s.maySend) (fun x s => s.emit x.via (.piece (State.blockOf x.piece x.num)))
      (fun _ t => emit_chim t _ _) s)

theorem maySend_due {x : Stored} (h : s.maySend x = true) : x.due = true ∧ (s.flue x.via).farXoff.getLsbD (Cls.code x.piece.cls) = false := by
  simp only [State.maySend, Bool.and_eq_true, Bool.not_eq_true'] at h
  exact ⟨h.1.1.1, h.2⟩

theorem flushed_of_not_due (h : ∀ e ∈ s.chim.store, e.due = false) :
    s.flushed = s.chim.store ∧ s.chim.store.filter s.maySend = [] := by
  have hno : ∀ e ∈ s.chim.store, ¬s.maySend e = true := fun e he hsend => by
    have hdue := (maySend_due s hsend).1
    rw [h e he] at hdue
    exact absurd hdue (by decide)
  refine ⟨?_, List.filter_eq_nil_iff.mpr hno⟩
  refine (List.map_congr_left fun e he => ?_).trans (List.map_id _)
  rw [if_neg (hno e he), id]

/-- R298: what the far end tells of its XOFF state; the pieces that waited for it leave. -/
theorem flowReceived_flushes (hactive : s.flueActive f = true) (x : BitVec 4) :
    ∃ t, exec (.flowReceived f x) s = .next t ∧ t.flue f = { s.flue f with farXoff := x, out := (t.flue f).out } ∧
      (∃ post, (t.flue f).out = (s.flue f).out ++ post ∧ ∀ y ∈ post, ∃ e ∈ s.chim.store, e.due = true ∧
        x.getLsbD (Cls.code e.piece.cls) = false ∧ y = .piece (State.blockOf e.piece e.num)) ∧
      ((∀ e ∈ s.chim.store, e.due = false) → (t.flue f).out = (s.flue f).out ∧ t.chim = s.chim) ∧ t.items = s.items ∧
      t.standing = { s.standing with flueA := t.flueA.steady, flueB := t.flueB.steady } := by
  refine ⟨(s.modFlue f fun k => { k with farXoff := x }).flushStore.woken, if_pos hactive, ?_⟩
  have hstanding := modFlue_standing s f fun k => { k with farXoff := x }
  have hflue := flue_modFlue_self s f fun k => { k with farXoff := x }
  have hchim := modFlue_chim s f fun k => { k with farXoff := x }
  have hitems := modFlue_items s f fun k => { k with farXoff := x }
  generalize s.modFlue f (fun k => { k with farXoff := x }) = u at hstanding hflue hchim hitems ⊢
  have hout : u.flushStore.woken.flue f = { s.flue f with
      farXoff := x, out := (s.flue f).out ++ blocksOver f (u.chim.store.filter u.maySend) } := by
    refine (flushStore_flue u f).trans ?_
    rw [hflue]
  refine ⟨?_, ⟨blocksOver f (u.chim.store.filter u.maySend), by rw [hout], fun y hy => ?_⟩, fun hidle => ?_,
    (flushStore_items u).trans hitems, standing_flues ((standing_flushStore u).trans hstanding)⟩
  · rw [hout]
  · obtain ⟨e, he, rfl⟩ := List.mem_map.mp hy
    obtain ⟨he, hvia⟩ := List.mem_filter.mp he
    obtain ⟨hmem, hsend⟩ := List.mem_filter.mp he
    obtain ⟨hdue, hfree⟩ := maySend_due u hsend
    rw [of_decide_eq_true hvia, hflue] at hfree
    exact ⟨e, hchim ▸ hmem, hdue, hfree, rfl⟩
  · obtain ⟨hsame, hnone⟩ := flushed_of_not_due u (hchim ▸ hidle)
    have hblocks : blocksOver f (u.chim.store.filter u.maySend) = [] := by rw [hnone, blocksOver, List.filter_nil, List.map_nil]
    refine ⟨by rw [hout, hblocks, List.append_nil], ?_⟩
    refine (flushStore_chim u).trans ?_
    rw [hsame, hchim]

/-- R298: the free space is 32 KiB or more again, and the far end is told. -/
theorem xoffExit_tells (hactive : s.flueActive f = true) (c : Cls) (hset : (s.flue f).xoff.getLsbD (Cls.code c) = true)
    (hheld : s.bufferHeld f c ≤ 16384) : ∃ t, exec (.xoffExit f c) s = .next t ∧
      (t.flue f).xoff = (s.flue f).xoff &&& ~~~clsBit c ∧ (t.flue f).out = (s.flue f).out ++ [.flow (t.flue f).xoff] ∧
      t.flue (FlueId.other f) = s.flue (FlueId.other f) ∧ t.items = s.items ∧
      t.standing = { s.standing with flueA := t.flueA.steady, flueB := t.flueB.steady } := by
  have hfree : s.bufferHeld f c + Config.xoffLeave ≤ Config.flueBuffer := by
    simp only [Config.xoffLeave, Config.flueBuffer]
    omega
  refine ⟨_, if_pos ⟨hactive, hset, hfree⟩, ?_, ?_, ?_, ?_, ?_⟩
  · rw [emit_flue, flue_modFlue_self]
  · rw [emit_flue, flue_modFlue_self]
  · rw [emit_flue_other, flue_modFlue_other]
  · rw [emit_items, modFlue_items]
  · exact standing_flues ((standing_emit _ f _).trans (modFlue_standing s f _))

end Xoff

end Sys2Proof.Machine
end

-- ==== Proofs of 06_host_lanes_and_bellows: receipts and back-offs ====
section
/-! Receipts and back-offs that arrive over a flue (R249, R299, R300, R308), and blocks on an end that is not ACTIVE (R302). -/

namespace Sys2Proof.Machine

open Sys2Proof

/-! ### Receipts -/

section Receipt

variable (s : State) (r : Receipt)

/-- R299: the receipt does not cover the stored piece `x`. -/
def receiptKeeps (r : Receipt) (x : Stored) : Bool :=
  !(x.dst = r.dst && covered (vget r.accepted ⟨Cls.code x.piece.cls, by cases x.piece.cls <;> simp [Cls.code]⟩) x.num)

/-- R249: the posted writes that the receipt says are performed. -/
def State.performedBy (s : State) (r : Receipt) : List (Fin 4 × BitVec 16 × HearthId × Nat) :=
  s.chim.unperformed.filter fun u => u.1 = r.dst && covered r.performed u.2.1

/-- The covered pieces have left the send store, and the performed writes wait for no other receipt. -/
def State.storeReceipted (s : State) (r : Receipt) : State :=
  { s with chim := { s.chim with
      store := s.chim.store.filter (receiptKeeps r)
      unperformed := s.chim.unperformed.filter fun u => !(u.1 = r.dst && covered r.performed u.2.1) } }

/-- R249: the performed writes count here. -/
def State.receiptTaken (s : State) (r : Receipt) : State :=
  forList (s.performedBy r) (fun u s => s.endPosted u.2.2.1 u.2.2.2) (s.storeReceipted r)

theorem takeReceipt_eq : s.takeReceipt r = (s.receiptTaken r).issueWaiting := rfl

theorem receiptTaken_store : (s.receiptTaken r).chim.store = s.chim.store.filter (receiptKeeps r) :=
  forList_eq (fun t => t.chim.store) (s.performedBy r) (fun u s => s.endPosted u.2.2.1 u.2.2.2) (fun _ _ => rfl) _

theorem endPosted_posted (n m : HearthId) (serial k : Nat) :
    k ∈ ((s.endPosted n serial).hearth m).posted ↔ k ∈ (s.hearth m).posted ∧ (m = n → k ≠ serial) := by
  by_cases hm : m = n
  · rw [hm, State.endPosted, hearth_modHearth_self]
    simp
  · rw [State.endPosted, hearth_modHearth_ne _ _ _ _ hm]
    simp [hm]

theorem receiptTaken_posted {u : Fin 4 × BitVec 16 × HearthId × Nat} (hu : u ∈ s.performedBy r) :
    u.2.2.2 ∉ ((s.receiptTaken r).hearth u.2.2.1).posted := by
  refine forList_of_mem (P := fun t => u.2.2.2 ∉ (t.hearth u.2.2.1).posted) hu (fun t h => ?_) (fun v _ t ht h => ?_) _
  · exact ((endPosted_posted t _ _ _ _).mp h).2 rfl rfl
  · exact ht ((endPosted_posted t _ _ _ _).mp h).1

theorem receiptKeeps_covered {x : Stored} (h : receiptKeeps r x = true) (hdst : x.dst = r.dst) (i : Fin 4) (hi : i.val = Cls.code x.piece.cls) :
    covered (vget r.accepted i) x.num = false := by
  have hindex : i = ⟨Cls.code x.piece.cls, hi ▸ i.isLt⟩ := Fin.ext hi
  simp only [receiptKeeps, hdst, decide_true, Bool.true_and, Bool.not_eq_true'] at h
  rw [hindex]
  exact h

theorem receiptKeeps_of_dst {x : Stored} (h : x.dst ≠ r.dst) : receiptKeeps r x = true := by
  simp only [receiptKeeps, decide_eq_false h, Bool.false_and, Bool.not_false]

theorem resent_mem {a b : List Stored} (h : List.Forall₂ Stored.Same a b) :
    (∀ x ∈ a, ∃ y ∈ b, x.Same y) ∧ ∀ y ∈ b, ∃ x ∈ a, x.Same y := by
  induction h with
  | nil => exact ⟨fun _ hx => absurd hx List.not_mem_nil, fun _ hy => absurd hy List.not_mem_nil⟩
  | cons hxy _ ih =>
    obtain ⟨hto, hfrom⟩ := ih
    constructor
    · intro x hx
      rcases List.mem_cons.mp hx with rfl | hx
      · exact ⟨_, List.mem_cons_self, hxy⟩
      · obtain ⟨y, hy, hsame⟩ := hto x hx
        exact ⟨y, List.mem_cons_of_mem _ hy, hsame⟩
    · intro y hy
      rcases List.mem_cons.mp hy with rfl | hy
      · exact ⟨_, List.mem_cons_self, hxy⟩
      · obtain ⟨x, hx, hsame⟩ := hfrom y hy
        exact ⟨x, List.mem_cons_of_mem _ hx, hsame⟩

theorem receiptTaken_resent : (s.receiptTaken r).endPart.Resent (State.repath s (s.takeReceipt r)).woken.endPart := by
  have hissued := endPart_issueWaiting (s.receiptTaken r)
  rw [← takeReceipt_eq] at hissued
  exact (EndPart.Resent.of_eq hissued).trans (resent_repath _ s)

theorem store_of_resent {t u : State} (h : t.endPart.Resent u.endPart) :
    List.Forall₂ Stored.Same t.chim.store u.chim.store ∧ ∀ n, (u.hearth n).posted = (t.hearth n).posted :=
  ⟨h.store, fun n => congrFun h.posted n⟩

/-- R249, R299, R300: a receipt for this position. -/
theorem receiptReceived_takes (g : FlueId) (hactive : s.flueActive g = true) (hsrc : r.src = s.pos) :
    ∃ t, exec (.receiptReceived ⟨g, r⟩) s = .next t ∧
      (∀ x ∈ t.chim.store, x.dst = r.dst → ∀ i : Fin 4, i.val = Cls.code x.piece.cls → covered (vget r.accepted i) x.num = false) ∧
      (∀ x ∈ s.chim.store, x.dst ≠ r.dst → ∃ y ∈ t.chim.store, y.dst = x.dst ∧ y.num = x.num ∧
        y.piece = { x.piece with tag := y.piece.tag }) ∧
      (∀ u ∈ s.chim.unperformed, u.1 = r.dst → covered r.performed u.2.1 = true → u.2.2.2 ∉ (t.hearth u.2.2.1).posted) ∧
      t.standing = s.standing := by
  refine ⟨(State.repath s (s.takeReceipt r)).woken, (if_pos hactive).trans (if_pos hsrc), ?_⟩
  have hstanding : (State.repath s (s.takeReceipt r)).woken.standing = s.standing :=
    (standing_woken _).trans ((standing_repath s _).trans (standing_takeReceipt s r))
  obtain ⟨hstore, hposted⟩ := store_of_resent (receiptTaken_resent s r)
  generalize (State.repath s (s.takeReceipt r)).woken = t at hstanding hstore hposted ⊢
  rw [receiptTaken_store] at hstore
  obtain ⟨hto, hfrom⟩ := resent_mem hstore
  refine ⟨fun y hy hdst i hi => ?_, fun x hx hdst => ?_, fun u hu hdst hcovered => ?_, hstanding⟩
  · obtain ⟨x, hx, hsame⟩ := hfrom y hy
    obtain ⟨-, hkeeps⟩ := List.mem_filter.mp hx
    rw [hsame.cls] at hi
    obtain ⟨hd, hnum, -⟩ := hsame
    rw [hnum]
    exact receiptKeeps_covered r hkeeps (hd ▸ hdst) i hi
  · exact hto x (List.mem_filter.mpr ⟨hx, receiptKeeps_of_dst r hdst⟩)
  · rw [hposted]
    refine receiptTaken_posted s r (List.mem_filter.mpr ⟨hu, ?_⟩)
    rw [hcovered, decide_eq_true hdst, Bool.and_self]

end Receipt

/-! ### Back-offs -/

section Backoff

variable (s : State) (n : HearthId)

theorem removePieces_flue (q : Piece → Bool) (g : FlueId) : (s.removePieces q).flue g = s.flue g := by
  unfold State.removePieces
  cases g <;> rfl

theorem answer_flue (a : Resp) (g : FlueId) : (s.answer n a).flue g = s.flue g := by
  unfold State.answer
  split <;> cases g <;> rfl

theorem damp_flue (g : FlueId) : (s.damp n).flue g = s.flue g := by
  cases hc : (s.hearth n).cyc with
  | none => rw [State.damp, hc]
  | some c =>
    have hended : ∀ u : State, (u.endPosted n c.serial).flue g = u.flue g := fun u => by cases g <;> rfl
    have hfreed : ∀ u : State, u.freeTags.flue g = u.flue g := fun u => by cases g <;> rfl
    rw [damp_eq hc, hended, answer_flue, State.cycleDropped, hfreed, removePieces_flue]

theorem portHearth_hearthPort : portHearth (hearthPort n) = some n := by revert n; decide

/-- The end-to-end copy of the request with flue tag `tag` of the work `o` is released, with its tag. -/
def State.backedOff (s : State) (g : FlueId) (tag : Nat) (o : Origin) : State :=
  { s.dropTag g tag o with chim := { (s.dropTag g tag o).chim with
      store := (s.dropTag g tag o).chim.store.filter fun x => !(x.piece.tag = tag && x.piece.origin = o && x.piece.cls = Cls.nonPosted) } }

section

variable (g : FlueId) (tag serial : Nat) (c : Cycle)

theorem backedOff_hearth (o : Origin) (m : HearthId) : (s.backedOff g tag o).hearth m = s.hearth m := by cases g <;> rfl

theorem backedOff_reqs (o : Origin) : (s.backedOff g tag o).reqs = s.reqs := by cases g <;> rfl

theorem backedOff_tags (o : Origin) : ((s.backedOff g tag o).flue g).tags = (s.flue g).tags.filter fun t => !(t.1 = tag && t.2.1 = o) := by
  cases g <;> rfl

theorem takeBackoff_of_cycle (htag : s.findTag .a (hearthPort n) tag = some (g, .cycle n serial)) (hcyc : (s.hearth n).cyc = some c)
    (hserial : c.serial = serial) (hopen : c.phase.isOpen = true) : s.takeBackoff n tag = (s.backedOff g tag (.cycle n serial)).damp n := by
  have hc : ((s.backedOff g tag (.cycle n serial)).hearth n).cyc = some c := by rw [backedOff_hearth, hcyc]
  unfold State.takeBackoff
  rw [htag]
  split
  · next h => exact absurd h (Option.some_ne_none _)
  · next g' o h =>
    obtain ⟨rfl, rfl⟩ := Prod.mk.inj (Option.some.inj h)
    dsimp only
    split
    · next k serial' c' horigin hcyc' =>
      obtain ⟨-, rfl⟩ := Origin.cycle.inj horigin
      obtain rfl := Option.some.inj (hc.symm.trans hcyc')
      exact if_pos ⟨hserial, hopen⟩
    · next horigin => exact nomatch horigin
    · next hother => exact absurd hc (hother n serial c rfl)

/-- R308: the source cycle is answered with HnDAMP_N, and its flue tag is released. -/
theorem backoffReceived_damps (v : FlueId) (hactive : s.flueActive v = true)
    (htag : s.findTag .a (hearthPort n) tag = some (g, .cycle n serial)) (hcyc : (s.hearth n).cyc = some c)
    (hserial : c.serial = serial) (hopen : c.phase.isOpen = true) :
    ∃ t, exec (.backoffReceived ⟨v, s.pos⟩ (hearthPort n) tag) s = .next t ∧ (t.hearth n).dampLow = true ∧
      (∀ x ∈ (t.flue g).tags, ¬(x.1 = tag ∧ x.2.1 = .cycle n serial)) ∧ t.reqs = s.reqs ∧ t.standing = s.standing := by
  have hexec : exec (.backoffReceived ⟨v, s.pos⟩ (hearthPort n) tag) s = .next (s.takeBackoff n tag).woken := by
    refine (if_pos hactive).trans ((if_pos rfl).trans ?_)
    rw [portHearth_hearthPort]
  have hstanding := standing_takeBackoff s n tag
  rw [takeBackoff_of_cycle s n g tag serial c htag hcyc hserial hopen] at hexec hstanding
  have hc : ((s.backedOff g tag (.cycle n serial)).hearth n).cyc = some c := by rw [backedOff_hearth, hcyc]
  have hlow := damp_dampLow hc
  have htags := backedOff_tags s g tag (.cycle n serial)
  rw [← damp_flue _ n] at htags
  have hreqs := (damp_reqs (s.backedOff g tag (.cycle n serial)) n).trans (backedOff_reqs s g tag _)
  generalize (s.backedOff g tag (.cycle n serial)).damp n = u at hexec hstanding hlow htags hreqs
  refine ⟨u.woken, hexec, hlow, fun x hx hgone => ?_, hreqs, hstanding⟩
  have hkept : x ∈ (u.flue g).tags := by cases g <;> exact hx
  rw [htags] at hkept
  obtain ⟨-, hkept⟩ := List.mem_filter.mp hkept
  obtain ⟨hx1, hx2⟩ := hgone
  rw [decide_eq_true hx1, decide_eq_true hx2] at hkept
  exact absurd hkept (by decide)

end

end Backoff

/-! ### An end that is not ACTIVE -/

/-- R302: a block that comes on flue `v`. -/
def OnFlue (v : FlueId) (c : Instr) : Prop :=
  (∃ e b, c = .pieceReceived v e b) ∨ (∃ x, c = .flowReceived v x) ∨ (∃ r, c = .receiptReceived ⟨v, r⟩) ∨
    (∃ p k x, c = .backoffReceived ⟨v, p⟩ k x) ∨ (∃ p l, c = .levelsReceived ⟨v, p⟩ l) ∨
    (∃ p r o d x, c = .reportReceived ⟨v, p⟩ r o d x) ∨ (∃ p m, c = .funcReceived ⟨v, p, m⟩)

/-- R302: no block is taken on an end that is not ACTIVE. -/
theorem blockRefused {v : FlueId} {c : Instr} {s : State} (h : s.flueActive v = false) (hc : OnFlue v c) : exec c s = .next s := by
  have hno : ¬s.flueActive v = true := by rw [h]; decide
  rcases hc with ⟨e, b, rfl⟩ | ⟨x, rfl⟩ | ⟨r, rfl⟩ | ⟨p, k, x, rfl⟩ | ⟨p, l, rfl⟩ | ⟨p, r, o, d, x, rfl⟩ | ⟨p, m, rfl⟩
  · exact if_neg hno
  · exact if_neg hno
  · exact if_neg hno
  · exact if_neg hno
  · exact if_neg fun hall => hno hall.1
  · exact if_neg hno
  · exact if_neg fun hall => hno hall.1

/-- Settles O54: each kind of block goes through the lemma about it above; what an ACTIVE end takes, and what one that is not refuses. -/
theorem flueBlocks : Obligations.FlueBlocks := by
  unfold Obligations.FlueBlocks
  refine ⟨fun f b s hactive => ⟨fun e => ?_, ?_, ?_, ?_, ?_⟩, fun g r s hactive => ?_, fun v c s h => ?_,
    fun v n tag serial g c s hactive => ?_⟩
  · exact faultyBlock_drops s f e b hactive
  · exact seenBlock_receipted s f b hactive
  · exact nextBlock_accepted s f b hactive
  · exact flowReceived_flushes s f hactive
  · exact xoffExit_tells s f hactive
  · exact receiptReceived_takes s r g hactive
  · exact blockRefused h
  · exact backoffReceived_damps s n g tag serial c v hactive

end Sys2Proof.Machine
end

-- ==== Proofs of 07_host_link_protocol: errors of the link ====
section
/-! Errors of the host link (R310): recorded in every exposed function, with a message of one of them. -/

namespace Sys2Proof.Machine

open Sys2Proof

/-! ### The message of an error -/

/-- R175: the functions exposed go by the mode and the settings. -/
theorem exposed_congr {s t : State} (hmode : t.mode = s.mode) (hcfg : t.cfg = s.cfg) (k : Nat) : t.exposed k = s.exposed k := by
  unfold State.exposed State.lastFn
  rw [hmode, hcfg]

/-- Function `d` is `c` but for its Status register. -/
def FnCfg.StatusOnly (c d : FnCfg) : Prop := d = { c with status := d.status }

theorem statusOnly_refl (c : FnCfg) : c.StatusOnly c := rfl

theorem statusOnly_set (c : FnCfg) (x : BitVec 16) : c.StatusOnly { c with status := x } := rfl

theorem FnCfg.StatusOnly.trans {c d e : FnCfg} (h : c.StatusOnly d) (k : d.StatusOnly e) : c.StatusOnly e := by
  unfold FnCfg.StatusOnly at *
  rw [k, h]

section Message

variable (s : State) (f : FnId)

/-- R310: a message leaves the functions as they are, or sets Signaled System Error in its own, which one of a correctable error
does not. -/
theorem errMessage_fns (k : Option TxKind) : (s.errMessage f k).fns = s.fns ∨
    k ≠ some .errCor ∧ (s.errMessage f k).fns = (s.modFn f fun c => { c with status := c.status ||| bitOf 16 14 }).fns := by
  unfold State.errMessage
  split
  · exact .inl rfl
  split
  · exact .inl rfl
  dsimp only
  split
  next h => exact .inr ⟨fun e => h.1 (Option.some.inj e), rfl⟩
  next => exact .inl rfl

theorem errMessage_errCor_fns : (s.errMessage f (some .errCor)).fns = s.fns :=
  (errMessage_fns s f (some .errCor)).resolve_right fun h => h.1 rfl

/-- R310: a message changes the Status register of its function alone. -/
theorem errMessage_status (k : Option TxKind) (g : FnId) : (s.fn g).StatusOnly ((s.errMessage f k).fn g) := by
  rcases errMessage_fns s f k with h | ⟨-, h⟩
  · rw [show (s.errMessage f k).fn g = s.fn g from congrArg (vget · g) h]
    exact statusOnly_refl _
  · rw [show (s.errMessage f k).fn g = _ from (congrArg (vget · g) h).trans (fn_modFn s f g _)]
    split
    next e => exact e ▸ statusOnly_set _ _
    next => exact statusOnly_refl _

theorem linkMessage_status (k : TxKind) (o : Option FnId) (g : FnId) : (s.fn g).StatusOnly ((s.linkMessage k o).fn g) := by
  cases o with
  | none => exact statusOnly_refl _
  | some f => exact errMessage_status s f (some k) g

theorem untouched_linkMessage (k : TxKind) (o : Option FnId) : Untouched s (s.linkMessage k o) := by
  cases o with
  | none => exact .refl s
  | some f => exact untouched_errMessage s f (some k)

theorem beside_linkMessage (k : TxKind) (o : Option FnId) : (s.linkMessage k o).beside = s.beside := by
  cases o with
  | none => rfl
  | some f => exact beside_errMessage s f (some k)

/-- Entry 22: the function that tells of a link error is exposed. -/
theorem sender_exposed {allows : FnCfg → Bool} {g : FnId} (h : s.sender allows = some g) : s.exposed g.val = true :=
  by
  have hp := List.find?_some h
  exact (Bool.and_eq_true_iff.mp hp).1

/-- A message of an exposed function leaves the others as they are. -/
theorem linkMessage_hidden {k : TxKind} {allows : FnCfg → Bool} {t : State} {g : FnId} (h : s.exposed g.val = false) :
    (t.linkMessage k (s.sender allows)).fn g = t.fn g := by
  cases hs : s.sender allows with
  | none => rfl
  | some f =>
    have hne : g ≠ f := fun e => by rw [e, sender_exposed s hs] at h; exact absurd h (by decide)
    exact (errMessage_fn t f g (some k)).2.2 hne

end Message

/-! ### Errors of the link in the functions -/

section Errors

variable (s : State)

/-- Every exposed function has the correctable error recorded. -/
def State.corEverywhere (s : State) (e : CorErr) : State :=
  { s with fns := vmap (fun (f : FnId) (c : FnCfg) => if s.exposed f.val then c.setCor e else c) s.fns }

/-- Every exposed function has the uncorrectable error recorded. -/
def State.uncEverywhere (s : State) (e : UncErr) : State :=
  { s with fns := vmap (fun (f : FnId) (c : FnCfg) => if s.exposed f.val then c.setUnc e false noHeader else c) s.fns }

theorem linkCor_eq (e : CorErr) :
    s.linkCor e = (s.corEverywhere e).linkMessage .errCor (s.sender fun c => c.sendsCor e) := by
  unfold State.linkCor State.corEverywhere
  rfl

theorem linkUnc_eq (e : UncErr) : s.linkUnc e =
    ((s.uncEverywhere e).linkMessage .errFatal (s.sender fun c => c.uncMessage e false = some .errFatal)).linkMessage .errNonfatal
      (s.sender fun c => c.uncMessage e false = some .errNonfatal) := by
  unfold State.linkUnc State.uncEverywhere
  rfl

theorem uncEverywhere_fn (e : UncErr) (f : FnId) :
    (s.uncEverywhere e).fn f = if s.exposed f.val = true then (s.fn f).setUnc e false noHeader else s.fn f := vget_vmap _ _ _

theorem untouched_setFns (v : Vector FnCfg 65) : Untouched s { s with fns := v } := ⟨rfl, rfl, rfl, rfl, rfl⟩

theorem beside_setFns (v : Vector FnCfg 65) : ({ s with fns := v } : State).beside = s.beside := rfl

theorem untouched_linkCor (e : CorErr) : Untouched s (s.linkCor e) := by
  rw [linkCor_eq]
  exact (untouched_setFns s _).trans (untouched_linkMessage (s.corEverywhere e) _ _)

theorem untouched_linkUnc (e : UncErr) : Untouched s (s.linkUnc e) := by
  rw [linkUnc_eq]
  exact ((untouched_setFns s _).trans (untouched_linkMessage (s.uncEverywhere e) _ _)).trans (untouched_linkMessage _ _ _)

theorem beside_linkCor (e : CorErr) : (s.linkCor e).beside = s.beside := by
  rw [linkCor_eq, beside_linkMessage]
  exact beside_setFns s _

theorem beside_linkUnc (e : UncErr) : (s.linkUnc e).beside = s.beside := by
  rw [linkUnc_eq, beside_linkMessage, beside_linkMessage]
  exact beside_setFns s _

theorem linkCor_fn (e : CorErr) (f : FnId) :
    (s.linkCor e).fn f = if s.exposed f.val = true then (s.fn f).setCor e else s.fn f := by
  have hfns : (s.linkCor e).fns = (s.corEverywhere e).fns := by
    rw [linkCor_eq]
    cases s.sender _ with
    | none => rfl
    | some g => exact errMessage_errCor_fns _ g
  exact (congrArg (vget · f) hfns).trans (vget_vmap _ _ _)

theorem linkUnc_status (e : UncErr) (f : FnId) : ((s.uncEverywhere e).fn f).StatusOnly ((s.linkUnc e).fn f) := by
  rw [linkUnc_eq]
  exact (linkMessage_status _ _ _ f).trans (linkMessage_status _ _ _ f)

theorem linkUnc_hidden (e : UncErr) {f : FnId} (h : s.exposed f.val = false) : (s.linkUnc e).fn f = s.fn f := by
  rw [linkUnc_eq, linkMessage_hidden s h, linkMessage_hidden s h, uncEverywhere_fn, h]
  exact if_neg (by decide)

theorem linkUnc_uncSta (e : UncErr) (f : FnId) :
    ((s.linkUnc e).fn f).uncSta = if s.exposed f.val = true then (s.fn f).uncSta ||| bitOf 32 e.bit else (s.fn f).uncSta := by
  rw [linkUnc_status, uncEverywhere_fn]
  split
  · exact setUnc_uncSta _ e noHeader
  · rfl

end Errors

end Sys2Proof.Machine
end

-- ==== Proofs of 07_host_link_protocol: flow-control counts ====
section
/-! UpdateFC DLLPs, sent and received (R154, R155, R310). -/

namespace Sys2Proof.Machine

open Sys2Proof

/-- Ticks change no credit count and no tag in flight. -/
theorem tick_fc_tags (s : State) : (s.tick.fc, s.tick.tags) = (s.fc, s.tags) := by
  cases h : s.running
  · rw [tick_of_not_running h]
  · rw [tick_eq h]
    rfl

theorem advanceTo_fc_tags (s : State) (t : Tally) : ((s.advanceTo t).fc, (s.advanceTo t).tags) = (s.fc, s.tags) :=
  advanceTo_eq (fun s => (s.fc, s.tags)) tick_fc_tags (fun _ _ => rfl) s t

theorem advanceTo_fc (s : State) (t : Tally) : (s.advanceTo t).fc = s.fc := congrArg Prod.fst (advanceTo_fc_tags s t)

theorem advanceTo_tags (s : State) (t : Tally) : (s.advanceTo t).tags = s.tags := congrArg Prod.snd (advanceTo_fc_tags s t)

section UpdateFc

variable {s : State} (hactive : s.linkActive = true)
include hactive

/-- R154: the count of one type is reported. -/
theorem exec_updatefcSend (ty : RxCredit) :
    exec (.updatefcSend ty) s = .next { s with fc := s.fc.report ty, link := { s.link with txL0s := false } } := if_pos hactive

/-- R154: the tick of the periodic UpdateFC. -/
def State.atFcPeriod (s : State) : State := s.advanceTo (tickPlus s.link.fcTick 3000)

omit hactive in
theorem atFcPeriod_fc (s : State) : s.atFcPeriod.fc = s.fc := advanceTo_fc s _

theorem exec_updatefcPeriodic :
    exec .updatefcPeriodic s = .next { s.atFcPeriod with
      fc := { s.atFcPeriod.fc with sent := s.atFcPeriod.fc.alloc }
      link := { s.atFcPeriod.link with fcTick := s.atFcPeriod.now, txL0s := false } } := if_pos hactive

variable {cls : CreditClass} {hdr : Byte} {dat : BitVec 12}

theorem exec_updatefcReceived_good (hok : fcViolates s.fc.limits cls hdr dat = false) :
    exec (.updatefcReceived cls hdr dat) s =
      .next { s with fc := { s.fc with limits := raiseLimits s.fc.limits cls hdr dat }, wake := true } :=
  (if_pos hactive).trans (if_neg (by rw [hok]; decide))

theorem exec_updatefcReceived_bad (hbad : fcViolates s.fc.limits cls hdr dat = true) :
    exec (.updatefcReceived cls hdr dat) s = .next (s.linkUnc .fcp).woken :=
  (if_pos hactive).trans (if_pos hbad)

end UpdateFc

theorem report_counts (fc : Fc) (ty : RxCredit) : fc.report ty = { fc with sent := (fc.report ty).sent } ∧
    (fc.report ty).sent.ph = (if ty = .ph then fc.alloc.ph else fc.sent.ph) ∧
    (fc.report ty).sent.pd = (if ty = .pd then fc.alloc.pd else fc.sent.pd) ∧
    (fc.report ty).sent.nph = (if ty = .nph then fc.alloc.nph else fc.sent.nph) ∧
    (fc.report ty).sent.npd = (if ty = .npd then fc.alloc.npd else fc.sent.npd) := by
  cases ty <;> exact ⟨rfl, rfl, rfl, rfl, rfl⟩

/-- Settles O30: the four commands on an active link, each by its equation. -/
theorem updateFc : Obligations.UpdateFc := by
  unfold Obligations.UpdateFc
  intro s hactive
  refine ⟨fun ty => ?_, ?_, fun cls hdr dat hok => ?_, fun cls hdr dat hbad => ?_⟩
  · obtain ⟨hfc, hcounts⟩ := report_counts s.fc ty
    exact ⟨_, exec_updatefcSend hactive ty, congrArg (fun x => { s with fc := x, link := { s.link with txL0s := false } }) hfc, hcounts⟩
  · refine ⟨_, exec_updatefcPeriodic hactive, ?_, rfl, rfl, rfl⟩
    rw [atFcPeriod_fc]
  · refine ⟨_, exec_updatefcReceived_good hactive hok, rfl, ?_, ?_, ?_⟩ <;> rintro rfl <;> rfl
  · refine ⟨_, exec_updatefcReceived_bad hactive hbad, ?_, standing_linkUnc s .fcp, fun f hf => ?_⟩
    · exact ((beside_eq_iff _ _).mp (beside_linkUnc s .fcp)).1
    · exact (linkUnc_uncSta s .fcp f).trans (if_pos hf)

end Sys2Proof.Machine
end

-- ==== Proofs of 07_host_link_protocol: ACK, NAK and replay ====
section
/-! Acknowledgement and replay (R148, R149, R150): what an ACK takes out of the replay buffer, and what a replay counts and starts. -/

namespace Sys2Proof.Machine

open Sys2Proof

/-! ### A replay that is counted -/

section CountReplay

variable (s : State)

/-- R150: REPLAY_NUM after one more replay. -/
def State.replayCounted (s : State) : State := { s with dll := { s.dll with replayNum := s.dll.replayNum + 1 } }

theorem countReplay_first (h : s.dll.replayNum ≠ 3) : s.countReplay = s.replayCounted := if_neg h

theorem countReplay_fourth (h : s.dll.replayNum = 3) : s.countReplay = s.replayCounted.enterRecovery.linkCor .rollover := if_pos h

theorem enterRecovery_frame : s.enterRecovery.txq = s.txq ∧ s.enterRecovery.fns = s.fns ∧ s.enterRecovery.mode = s.mode ∧
    s.enterRecovery.cfg = s.cfg := by
  rw [withLanes_enterRecovery]
  exact ⟨rfl, rfl, rfl, rfl⟩

theorem countReplay_txq : s.countReplay.txq = s.txq := by
  by_cases h : s.dll.replayNum = 3
  · rw [countReplay_fourth s h, (untouched_linkCor _ _).txq]
    exact (enterRecovery_frame s.replayCounted).1
  · rw [countReplay_first s h]
    rfl

/-- R138, R150: a replay is counted, and the fourth in a row takes the link to Recovery. -/
theorem countReplay_standing : s.countReplay.standing = { s.standing with
    dll := { s.dll with replayNum := s.dll.replayNum + 1, retrain := s.dll.retrain || decide (s.dll.replayNum = 3) }
    link := s.countReplay.link, lanes := s.countReplay.lanes } := by
  by_cases h : s.dll.replayNum = 3
  · have hstand := (standing_linkCor _ .rollover).trans (enterRecovery_standing s.replayCounted)
    rw [← countReplay_fourth s h] at hstand
    have hlink : s.countReplay.link = s.replayCounted.enterRecovery.link := congrArg Standing.link hstand
    have hlanes : s.countReplay.lanes = s.replayCounted.enterRecovery.lanes := congrArg Standing.lanes hstand
    rw [hstand, hlink, hlanes, decide_eq_true h, Bool.or_true]
    rfl
  · rw [countReplay_first s h, decide_eq_false h, Bool.or_false]
    rfl

theorem countReplay_dll : s.countReplay.dll =
    { s.dll with replayNum := s.dll.replayNum + 1, retrain := s.dll.retrain || decide (s.dll.replayNum = 3) } :=
  congrArg Standing.dll (countReplay_standing s)

theorem countReplay_link : (s.dll.replayNum ≠ 3 → s.countReplay.link = s.link ∧ s.countReplay.lanes = s.lanes) ∧
    (s.dll.replayNum = 3 → s.countReplay.link.st = .recovery) := by
  refine ⟨fun h => ?_, fun h => ?_⟩
  · rw [countReplay_first s h]
    exact ⟨rfl, rfl⟩
  · have hlink : s.countReplay.link = s.replayCounted.enterRecovery.link := by
      rw [countReplay_fourth s h]
      exact congrArg Standing.link (standing_linkCor _ .rollover)
    rw [hlink, enterRecovery_link]
    rfl

theorem countReplay_corSta {f : FnId} (hf : s.exposed f.val = true) :
    (s.countReplay.fn f).corSta = (s.fn f).corSta ||| (if s.dll.replayNum = 3 then 0x100 else 0) := by
  by_cases h : s.dll.replayNum = 3
  · obtain ⟨-, hfns, hmode, hcfg⟩ := enterRecovery_frame s.replayCounted
    have hexp : s.replayCounted.enterRecovery.exposed f.val = true := (exposed_congr hmode hcfg f.val).trans hf
    have hfn : s.replayCounted.enterRecovery.fn f = s.fn f := congrArg (vget · f) hfns
    rw [countReplay_fourth s h, linkCor_fn, if_pos hexp, hfn, if_pos h]
    rfl
  · rw [countReplay_first s h, if_neg h]
    exact (BitVec.or_zero).symm

end CountReplay

/-! ### What an ACK takes -/

section Acks

variable {seq : BitVec 12} {s : State}

/-- R149: an ACK or NAK makes progress. -/
def State.progress (s : State) (seq : BitVec 12) : Bool := s.dll.replay.any fun x => ackedBy seq x.1

/-- R149: what is left after a NAK is replayed from the start. -/
def State.replayed (s : State) (seq : BitVec 12) : State :=
  { s.purge seq with dll := { (s.purge seq).dll with resend := (s.purge seq).dll.replay } }

section Active

variable (hactive : s.linkActive = true)
include hactive

theorem exec_ackNak_bad (hbad : s.badAck seq = true) {c : Instr} (hc : c = .ackReceived seq ∨ c = .nakReceived seq) :
    exec c s = .next (s.linkUnc .dlp).woken := by
  have hack : exec (.ackReceived seq) s = .next (if s.badAck seq then s.linkUnc .dlp else s.purge seq).woken := if_pos hactive
  rcases hc with rfl | rfl
  · rw [hack, if_pos hbad]
  · exact (if_pos hactive).trans (if_pos hbad)

theorem exec_ackReceived (hok : s.badAck seq = false) : exec (.ackReceived seq) s = .next (s.purge seq).woken := by
  have hack : exec (.ackReceived seq) s = .next (if s.badAck seq then s.linkUnc .dlp else s.purge seq).woken := if_pos hactive
  rw [hack, if_neg (by rw [hok]; decide)]

theorem exec_nakReceived (hok : s.badAck seq = false) : exec (.nakReceived seq) s =
    .next (if (s.purge seq).dll.replay = [] then (s.purge seq).woken else (s.replayed seq).countReplay.woken) := by
  refine ((if_pos hactive).trans (if_neg (by rw [hok]; decide))).trans ?_
  by_cases h : (s.purge seq).dll.replay = []
  · exact (if_pos (List.isEmpty_iff.mpr h)).trans (by rw [if_pos h])
  · exact (if_neg fun he => h (List.isEmpty_iff.mp he)).trans (by rw [if_neg h]; rfl)

theorem linkActive_retrain : s.dll.retrain = false := by
  simpa using (Bool.and_eq_true_iff.mp hactive).2

/-- R150: everything unacknowledged is sent again, after any replay under way. -/
def State.timerReplay (s : State) : State :=
  { s.linkCor .replayTimer with
    dll := { (s.linkCor .replayTimer).dll with resend := (s.linkCor .replayTimer).dll.resend ++ (s.linkCor .replayTimer).dll.replay } }

theorem exec_replayTimerExpiry (h : s.dll.replay ≠ []) : exec .replayTimerExpiry s = .next s.timerReplay.countReplay.woken :=
  if_pos ⟨hactive, by simpa using h⟩

end Active

omit seq in
theorem timerReplay_standing (s : State) : s.timerReplay.standing =
    { s.standing with dll := { s.dll with resend := s.dll.resend ++ s.dll.replay } } := by
  have hstand := standing_linkCor s .replayTimer
  have hdll : (s.linkCor .replayTimer).dll = s.dll := congrArg Standing.dll hstand
  rw [← hstand, ← hdll]
  rfl

theorem timerReplay_untouched (s : State) : s.timerReplay.txq = s.txq ∧ s.timerReplay.fns = (s.linkCor .replayTimer).fns :=
  ⟨(untouched_linkCor s .replayTimer).txq, rfl⟩

end Acks

/-! ### The three commands -/

section Effects

variable {seq : BitVec 12} {s : State} (hactive : s.linkActive = true)

theorem badAck_effect : (s.linkUnc .dlp).woken.standing = s.standing ∧ (s.linkUnc .dlp).woken.txq = s.txq ∧
    (∀ f, s.exposed f.val = true → ((s.linkUnc .dlp).woken.fn f).uncSta = (s.fn f).uncSta ||| 0x10) ∧
    ∀ f, s.exposed f.val = false → (s.linkUnc .dlp).woken.fn f = s.fn f :=
  ⟨standing_linkUnc s .dlp, (untouched_linkUnc s .dlp).txq, fun f hf => (linkUnc_uncSta s .dlp f).trans (if_pos hf),
    fun _ hf => linkUnc_hidden s .dlp hf⟩

theorem replayed_num : (s.replayed seq).dll.replayNum = 3 ↔ s.dll.replayNum = 3 ∧ s.progress seq = false := by
  change (if s.progress seq = true then 0 else s.dll.replayNum) = 3 ↔ _
  cases s.progress seq
  · exact ⟨fun h => ⟨h, rfl⟩, fun h => h.1⟩
  · exact ⟨fun h => absurd (show (0 : BitVec 2) = 3 from h) (by decide), fun h => absurd h.2 (by decide)⟩

include hactive

/-- R149, R150: a replay that a NAK asks for. -/
theorem countReplay_effect {u : State} (hdll : u.dll.retrain = s.dll.retrain) : (u.countReplay.dll.retrain = true ↔
    s.dll.retrain = true ∨ u.dll.replayNum = 3) ∧ (u.countReplay.dll.retrain = false → u.countReplay.link = u.link ∧
    u.countReplay.lanes = u.lanes) ∧ (u.countReplay.dll.retrain = true → u.countReplay.link.st = .recovery) := by
  have hretrain : u.countReplay.dll.retrain = decide (u.dll.replayNum = 3) := by
    rw [countReplay_dll, hdll, linkActive_retrain hactive, Bool.false_or]
  rw [hretrain, linkActive_retrain hactive]
  obtain ⟨hstays, hgoes⟩ := countReplay_link u
  exact ⟨by simp, fun h => hstays (of_decide_eq_false h), fun h => hgoes (of_decide_eq_true h)⟩

theorem nak_effect (hok : s.badAck seq = false) : ∃ t, exec (.nakReceived seq) s = .next t ∧
    t.dll.replay = s.dll.replay.filter (fun x => !ackedBy seq x.1) ∧
    (t.dll.replay ≠ [] → t.dll.resend = t.dll.replay ∧
      t.dll.replayNum = (if s.dll.replay.any (fun x => ackedBy seq x.1) then 0 else s.dll.replayNum) + 1 ∧
      (t.dll.retrain = true ↔ s.dll.retrain = true ∨
        (s.dll.replayNum = 3 ∧ s.dll.replay.any (fun x => ackedBy seq x.1) = false))) ∧
    (t.dll.replay = [] → t.dll.retrain = s.dll.retrain ∧ t.fns = s.fns) ∧ t.txq = s.txq ∧
    (t.dll.retrain = false → t.link = s.link ∧ t.lanes = s.lanes) ∧ (t.dll.retrain = true → t.link.st = .recovery) ∧
    t.standing = { s.standing with dll := t.dll, link := t.link, lanes := t.lanes } := by
  refine ⟨_, exec_nakReceived hactive hok, ?_⟩
  by_cases hnone : (s.purge seq).dll.replay = []
  · rw [if_pos hnone]
    have hoff : (s.purge seq).woken.dll.retrain = false := linkActive_retrain hactive
    exact ⟨rfl, fun h => absurd hnone h, fun _ => ⟨rfl, rfl⟩, rfl, fun _ => ⟨rfl, rfl⟩,
      fun h => absurd (hoff.symm.trans h) (by decide), rfl⟩
  · rw [if_neg hnone]
    obtain ⟨hiff, hstays, hgoes⟩ := countReplay_effect hactive (u := s.replayed seq) rfl
    have hdll := countReplay_dll (s.replayed seq)
    have hstand := countReplay_standing (s.replayed seq)
    rw [← hdll] at hstand
    have hreplay := congrArg Dll.replay hdll
    refine ⟨hreplay, fun _ => ⟨(congrArg Dll.resend hdll).trans hreplay.symm, congrArg Dll.replayNum hdll, ?_⟩,
      fun h => absurd (hreplay.symm.trans h) hnone, countReplay_txq (s.replayed seq), hstays, hgoes, hstand⟩
    rw [← State.progress, ← replayed_num]
    exact hiff

theorem timer_effect (h : s.dll.replay ≠ []) : ∃ t, exec .replayTimerExpiry s = .next t ∧ t.dll.replay = s.dll.replay ∧
    t.dll.resend = s.dll.resend ++ s.dll.replay ∧ t.dll.replayNum = s.dll.replayNum + 1 ∧
    (t.dll.retrain = true ↔ s.dll.retrain = true ∨ s.dll.replayNum = 3) ∧
    (∀ f, s.exposed f.val = true → (t.fn f).corSta = (s.fn f).corSta ||| (if s.dll.replayNum = 3 then 0x1100 else 0x1000)) ∧
    (s.dll.replayNum ≠ 3 → t.link = s.link ∧ t.lanes = s.lanes) ∧ (s.dll.replayNum = 3 → t.link.st = .recovery) ∧
    t.txq = s.txq ∧ t.standing = { s.standing with dll := t.dll, link := t.link, lanes := t.lanes } := by
  refine ⟨_, exec_replayTimerExpiry hactive h, ?_⟩
  obtain ⟨htxq, hfns⟩ := timerReplay_untouched s
  have hbefore := timerReplay_standing s
  generalize s.timerReplay = u at htxq hfns hbefore ⊢
  have hudll : u.dll = { s.dll with resend := s.dll.resend ++ s.dll.replay } := congrArg Standing.dll hbefore
  have hlink : u.link = s.link := congrArg Standing.link hbefore
  have hlanes : u.lanes = s.lanes := congrArg Standing.lanes hbefore
  have hnum : u.dll.replayNum = s.dll.replayNum := by rw [hudll]
  have hdll := countReplay_dll u
  have hstand := countReplay_standing u
  rw [← hdll, hbefore] at hstand
  obtain ⟨hiff, -, -⟩ := countReplay_effect hactive (u := u) (by rw [hudll])
  obtain ⟨hstays, hgoes⟩ := countReplay_link u
  rw [hnum] at hiff hstays hgoes
  rw [hlink, hlanes] at hstays
  rw [hudll] at hdll
  have hreplay := congrArg Dll.replay hdll
  have hresend := congrArg Dll.resend hdll
  have hcount := congrArg Dll.replayNum hdll
  refine ⟨hreplay, hresend, hcount, hiff, fun f hf => ?_, hstays, hgoes,
    (countReplay_txq u).trans htxq, hstand⟩
  have hexp : u.exposed f.val = true :=
    (exposed_congr (congrArg Standing.mode hbefore) (congrArg Standing.cfg hbefore) f.val).trans hf
  have hfn : u.fn f = (s.fn f).setCor .replayTimer :=
    (congrArg (vget · f) hfns).trans ((linkCor_fn s .replayTimer f).trans (if_pos hf))
  refine (countReplay_corSta u hexp).trans ?_
  rw [hfn, hnum]
  change ((s.fn f).corSta ||| 0x1000) ||| _ = _
  rw [BitVec.or_assoc]
  split <;> rfl

end Effects

/-- Settles O28: a bad number, the two acknowledgements and the timer, each by the lemma about it above. -/
theorem ackNakReplay : Obligations.AckNakReplay := by
  unfold Obligations.AckNakReplay
  intro seq s hactive
  refine ⟨fun hbad c hc => ⟨_, exec_ackNak_bad hactive hbad hc, badAck_effect⟩,
    fun hok => ⟨⟨_, exec_ackReceived hactive hok, rfl, rfl, rfl, rfl, rfl, rfl, rfl, rfl⟩, nak_effect hactive hok⟩,
    fun h => timer_effect hactive h⟩

end Sys2Proof.Machine
end

-- ==== Proofs of 07_host_link_protocol: the next TLP ====
section
/-! Sending (R148, R155, R163, R169): which TLP the port lets go, and what its leaving changes. -/

namespace Sys2Proof.Machine

open Sys2Proof

/-! ### The choice -/

/-- R169: `u` passes all of those ahead of it. -/
def MayPass (ahead : List TxTlp) (u : TxTlp) : Prop :=
  ∀ v ∈ ahead, TxKind.creditClass v.kind ≠ TxKind.creditClass u.kind ∧
    (TxKind.creditClass u.kind = .posted ∨ TxKind.creditClass v.kind ≠ .posted)

theorem mayLeave_passes {s : State} {ahead : List TxTlp} {u : TxTlp} (h : s.mayLeave ahead u = true) :
    MayPass ahead u ∧ s.creditOk u = true ∧ (TxKind.needsTag u.kind = true → s.nextTag.isSome = true) := by
  simp only [State.mayLeave, Bool.and_eq_true, List.all_eq_true, decide_eq_true_eq, Bool.or_eq_true, Bool.not_eq_true'] at h
  obtain ⟨⟨⟨⟨hpass, -⟩, -⟩, hcredit⟩, htag⟩ := h
  exact ⟨hpass, hcredit, fun hneeds => htag.resolve_left fun hno => absurd (hneeds.symm.trans hno) (by decide)⟩

/-- R169: the TLP picked stands in the queue and may leave past those ahead of it. -/
theorem pickTlp_spec {s : State} {u : TxTlp} {q : List TxTlp} : ∀ {ahead : List TxTlp}, s.pickTlp ahead q = some u →
    ∃ front rest, q = front ++ u :: rest ∧ s.mayLeave (ahead ++ front) u = true := by
  induction q with
  | nil => exact fun h => nomatch h
  | cons v q ih =>
    intro ahead h
    by_cases hv : s.mayLeave ahead v = true
    · obtain rfl : v = u := Option.some.inj ((if_pos hv).symm.trans h)
      exact ⟨[], q, rfl, by rwa [List.append_nil]⟩
    · obtain ⟨front, rest, rfl, hu⟩ := ih ((if_neg hv).symm.trans h)
      exact ⟨v :: front, rest, rfl, by rwa [List.append_assoc] at hu⟩

/-! ### The tag -/

/-- R163: the lowest tag of a range that is free. -/
theorem lowestFree_spec {used : List Nat} {base bound k : Nat} (h : lowestFree used base bound = some k) :
    base ≤ k ∧ k < base + bound ∧ k ∉ used ∧ ∀ j, base ≤ j → j < k → j ∈ used := by
  obtain ⟨hfree, front, rest, hrange, hfront⟩ := List.find?_eq_some_iff_append.mp h
  have hrange' : List.range' base bound = front ++ k :: rest := by rw [List.range'_eq_map_range, hrange]
  have hmem : k ∈ List.range' base bound := by rw [hrange']; simp
  obtain ⟨hlow, hhigh⟩ := List.mem_range'_1.mp hmem
  refine ⟨hlow, hhigh, by simpa using hfree, fun j hj hjk => ?_⟩
  have hjmem : j ∈ front ++ k :: rest := hrange' ▸ List.mem_range'_1.mpr ⟨hj, by omega⟩
  have hsorted : (front ++ k :: rest).Pairwise (· < ·) := hrange' ▸ List.pairwise_lt_range'
  rcases List.mem_append.mp hjmem with hf | hr
  · simpa using hfront j hf
  · rcases List.mem_cons.mp hr with rfl | hr
    · omega
    · have := (List.pairwise_cons.mp (List.pairwise_append.mp hsorted).2.1).1 j hr
      omega

theorem nextTag_spec {s : State} {k : Nat} (h : s.nextTag = some k) : s.tagRange.1 ≤ k ∧ k < s.tagRange.1 + s.tagRange.2 ∧
    (∀ x ∈ s.tags, x.tag ≠ k) ∧ ∀ j, s.tagRange.1 ≤ j → j < k → ∃ x ∈ s.tags, x.tag = j := by
  by_cases hfull : s.tagRange.2 ≤ s.tags.length
  · exact nomatch (if_pos hfull).symm.trans h
  · obtain ⟨hlow, hhigh, hfree, hused⟩ := lowestFree_spec ((if_neg hfull).symm.trans h)
    exact ⟨hlow, hhigh, fun x hx hk => hfree (List.mem_map.mpr ⟨x, hx, hk⟩), fun j hj hjk => List.mem_map.mp (hused j hj hjk)⟩

/-! ### A write that has been sent -/

section SentWrite

variable (s : State)

theorem beside_emit (f : FlueId) (b : FlueBlk) : (s.emit f b).beside = s.beside := by cases f <;> rfl

theorem beside_control (q : Fin 4) (b : FlueBlk) : (s.control q b).beside = s.beside := by
  unfold State.control
  split
  · exact beside_emit s _ b
  · rfl

theorem beside_performedFrom (p : Fin 4) (num : BitVec 16) : (s.performedFrom p num).beside = s.beside :=
  beside_control _ _ _

theorem sentWrite_frame (u : TxTlp) : (s.sentWrite u).beside = s.beside ∧ (s.sentWrite u).txq = s.txq ∧
    (s.sentWrite u).reqs = s.reqs := by
  unfold State.sentWrite
  split
  · split
    · exact ⟨rfl, rfl, rfl⟩
    next q num _ => exact ⟨beside_performedFrom s q num, (untouched_performedFrom s q num).txq, (untouched_performedFrom s q num).reqs⟩
    · exact ⟨rfl, rfl, rfl⟩
  · exact ⟨rfl, rfl, rfl⟩

end SentWrite

/-! ### What leaving changes -/

section Leaves

variable {s : State} {u : TxTlp}

/-- R148, R155: the TLP has left the queue, with its number and credits. -/
def State.sentOff (s : State) (u : TxTlp) : State := { s with
  txq := s.txq.filter fun v => v.id ≠ u.id
  link := { s.link with txL0s := false, l1Asked := false }
  dll := { s.dll with txSeq := s.dll.txSeq + 1, replay := s.dll.replay ++ [(s.dll.txSeq, u)] }
  fc := { s.fc with used := s.fc.used.use u } }

/-- R163: a tag in flight for `u`. -/
def State.tagFor (s : State) (u : TxTlp) (k : Nat) : HostTag :=
  HostTag.mk k u.fn u.hearth u.origin (u.kind = .flush) u.addr u.len s.now

theorem sendNew_eq : s.sendNew u = ((s.sentOff u).allocTag u).sentWrite u := rfl

theorem allocTag_none (h : TxKind.needsTag u.kind = false) : s.allocTag u = s := if_neg (by rw [h]; decide)

theorem allocTag_some {k : Nat} (h : TxKind.needsTag u.kind = true) (hk : s.nextTag = some k) :
    s.allocTag u = { s with tags := s.tags ++ [s.tagFor u k] } := by
  unfold State.allocTag
  rw [if_pos h, hk]
  rfl

/-- What a TLP's leaving changes, its tags being `tags` then. -/
theorem sentWrite_effect (tags : List HostTag) (v : State)
    (hv : v = ({ s.sentOff u with tags := tags }.sentWrite u).woken) : v.txq = s.txq.filter (fun x => x.id ≠ u.id) ∧
    v.dll = { s.dll with txSeq := s.dll.txSeq + 1, replay := s.dll.replay ++ [(s.dll.txSeq, u)] } ∧
    v.fc = { s.fc with used := s.fc.used.use u } ∧ v.link = { s.link with txL0s := false, l1Asked := false } ∧ v.tags = tags ∧
    v.reqs = s.reqs ∧ v.ledger = s.ledger ∧ v.soot = s.soot ∧
    v.standing = { s.standing with dll := v.dll, link := v.link, tags := v.tags } := by
  obtain ⟨hbeside, htxq, hreqs⟩ := sentWrite_frame { s.sentOff u with tags := tags } u
  obtain ⟨hfc, hsoot, -, -⟩ := (beside_eq_iff _ _).mp hbeside
  have hstand := (standing_woken _).trans (standing_sentWrite { s.sentOff u with tags := tags } u)
  have hframe : v.txq = (s.sentOff u).txq ∧ v.fc = (s.sentOff u).fc ∧ v.soot = s.soot ∧ v.reqs = s.reqs := by
    rw [hv]
    exact ⟨htxq, hfc, hsoot, hreqs⟩
  rw [← hv] at hstand
  clear hv
  obtain ⟨htxq, hfc, hsoot, hreqs⟩ := hframe
  have hdll : v.dll = (s.sentOff u).dll := congrArg Standing.dll hstand
  have hlink : v.link = (s.sentOff u).link := congrArg Standing.link hstand
  have htags : v.tags = tags := congrArg Standing.tags hstand
  refine ⟨htxq, hdll, hfc, hlink, htags, hreqs, congrArg Standing.ledger hstand, hsoot, ?_⟩
  rw [hstand, hdll, hlink, htags]
  rfl

theorem exec_tlpTransmit_new (hactive : s.linkActive = true) (hnone : s.dll.resend = []) (hpick : s.pickTlp [] s.txq = some u)
    (hroom : s.replayRoom u = true) : exec .tlpTransmit s = .next (s.sendNew u).woken := by
  change execTlpTransmit s = _
  unfold execTlpTransmit
  rw [if_pos hactive, hnone, hpick]
  exact if_pos hroom

theorem exec_tlpTransmit_resend {x : BitVec 12 × TxTlp} {rest : List (BitVec 12 × TxTlp)} (hactive : s.linkActive = true)
    (h : s.dll.resend = x :: rest) : exec .tlpTransmit s =
      .next { s with dll := { s.dll with resend := rest }, link := { s.link with txL0s := false } } := by
  change execTlpTransmit s = _
  unfold execTlpTransmit
  rw [if_pos hactive, h]

theorem exec_tlpTransmit_none (hnone : s.dll.resend = []) (hpick : s.pickTlp [] s.txq = none) : exec .tlpTransmit s = .next s := by
  change execTlpTransmit s = _
  unfold execTlpTransmit
  rw [hnone, hpick]
  split <;> rfl

end Leaves

/-- Settles O27: the TLP picked by `pickTlp_spec`, its tag by `nextTag_spec`, and the state after it by `sentWrite_effect`. -/
theorem tlpLeaves : Obligations.TlpLeaves := by
  unfold Obligations.TlpLeaves
  refine ⟨fun x rest s hactive h => exec_tlpTransmit_resend hactive h, fun u s hactive hnone hpick hroom => ?_,
    fun s hnone hpick => exec_tlpTransmit_none hnone hpick⟩
  obtain ⟨front, rest, hq, hmay⟩ := pickTlp_spec hpick
  obtain ⟨hpass, hcredit, hsome⟩ := mayLeave_passes hmay
  refine ⟨⟨front, rest, hq, hcredit, hpass⟩, _, exec_tlpTransmit_new hactive hnone hpick hroom, ?_⟩
  cases hneeds : TxKind.needsTag u.kind with
  | false =>
    obtain ⟨htxq, hdll, hfc, hlink, htags, hreqs, hledger, hsoot, hstand⟩ :=
      sentWrite_effect (s := s) (u := u) s.tags (s.sendNew u).woken (by rw [sendNew_eq, allocTag_none hneeds]; rfl)
    exact ⟨htxq, hdll, hfc, hlink, fun _ => htags, fun h => (nomatch h), hreqs, hledger, hsoot, hstand⟩
  | true =>
    obtain ⟨k, hk⟩ := Option.isSome_iff_exists.mp (hsome hneeds)
    obtain ⟨htxq, hdll, hfc, hlink, htags, hreqs, hledger, hsoot, hstand⟩ :=
      sentWrite_effect (s := s) (u := u) (s.tags ++ [s.tagFor u k]) (s.sendNew u).woken
        (by rw [sendNew_eq, allocTag_some (s := s.sentOff u) hneeds hk]; rfl)
    obtain ⟨hlow, hhigh, hfree, hused⟩ := nextTag_spec hk
    exact ⟨htxq, hdll, hfc, hlink, fun h => (nomatch h), fun _ => ⟨k, hlow, hhigh, hfree, hused, htags⟩, hreqs, hledger, hsoot, hstand⟩

end Sys2Proof.Machine
end

-- ==== Proofs of 07_host_link_protocol: a tick of the switch ====
section
/-! One tick of the switch (R254, R257, R258) with a single piece in its queues. -/

namespace Sys2Proof.Machine

open Sys2Proof

/-! ### Waiting requests at the end of the tick -/

section Issue

variable (s : State)

theorem missReq_sw (id : Nat) : (s.missReq id).sw = s.sw := by
  unfold State.missReq
  split
  · rfl
  next r _ =>
    obtain ⟨-, -, -, -, hsw⟩ := closeReq_frame (s.refuseReq r .ur (some .ur)) id
    exact hsw.trans ((beside_eq_iff _ _).mp (refuseReq_beside s r .ur .ur)).2.2.2

theorem issueWith_sw (id : Nat) (l : List (Piece × Nat)) : (s.issueWith id l).sw = s.sw :=
  ((beside_eq_iff _ _).mp (issueWith_frame s id l).1).2.2.2

theorem tryIssue_sw (id : Nat) : (s.tryIssue id).sw = s.sw := by
  unfold State.tryIssue
  dsimp only
  (repeat' split)
  · rfl
  · exact issueWith_sw s id _
  · exact missReq_sw s id
  · rfl
  · exact issueWith_sw s id _
  · rfl
  · rfl

theorem issueWaiting_sw : s.issueWaiting.sw = s.sw := forList_eq (·.sw) _ _ (fun id s => tryIssue_sw s id) s

variable {s}

/-- R171: a request that does not wait is not issued. -/
theorem tryIssue_idle (h : ∀ r ∈ s.reqs, r.st ≠ .waiting) (id : Nat) : s.tryIssue id = s := by
  unfold State.tryIssue
  split
  · rfl
  next r hr => exact if_neg (h r (List.mem_of_find?_eq_some hr))

theorem forList_idle {α : Type} {f : α → State → State} (l : List α) (h : ∀ x ∈ l, f x s = s) : forList l f s = s :=
  forList_inv (P := (· = s)) (fun x hx _ ht => ht ▸ h x hx) rfl

theorem issueWaiting_idle (h : ∀ r ∈ s.reqs, r.st ≠ .waiting) : s.issueWaiting = s := forList_idle _ fun id _ => tryIssue_idle h id

end Issue

/-! ### Pieces that wait for a locked bus -/

/-- The hearth `k` is `h` but for its locks (R266). -/
def Hearth.Contested (h k : Hearth) : Prop := ∃ l f, k = { h with lock := l, farLock := f }

theorem Hearth.Contested.trans {h k m : Hearth} (a : h.Contested k) (b : k.Contested m) : h.Contested m := by
  obtain ⟨_, _, rfl⟩ := a
  obtain ⟨l, f, rfl⟩ := b
  exact ⟨l, f, rfl⟩

/-- R266: `t` is `s` but for the locks of hearths. -/
def Contests (s t : State) : Prop := ∃ v, t = { s with hearths := v } ∧ ∀ m, (s.hearth m).Contested (vget v m)

theorem Contests.refl (s : State) : Contests s s := ⟨s.hearths, rfl, fun m => ⟨(s.hearth m).lock, (s.hearth m).farLock, rfl⟩⟩

theorem Contests.trans {s t u : State} (a : Contests s t) (b : Contests t u) : Contests s u := by
  obtain ⟨v, rfl, hv⟩ := a
  obtain ⟨w, rfl, hw⟩ := b
  exact ⟨w, rfl, fun m => (hv m).trans (hw m)⟩

theorem contests_modHearth (s : State) (n : HearthId) (g : Hearth → Hearth) (hg : ∀ h : Hearth, h.Contested (g h)) :
    Contests s (s.modHearth n g) := by
  refine ⟨vset s.hearths n (g (s.hearth n)), rfl, fun m => ?_⟩
  rw [vget_vset]
  split
  next h => exact h ▸ hg _
  next => exact ⟨(s.hearth m).lock, (s.hearth m).farLock, rfl⟩

theorem contests_contestBus (m : HearthId) (s : State) : Contests s (State.contestBus m s) := by
  have hcontest : Contests s (s.contest (.bus s.pos m)) := by
    unfold State.contest
    split
    · exact .refl s
    · exact contests_modHearth s _ _ fun h => ⟨_, h.farLock, rfl⟩
  unfold State.contestBus
  split
  · exact hcontest.trans (contests_modHearth _ m _ fun h => ⟨h.lock, _, rfl⟩)
  · exact .refl s

theorem contests_contestBuses (s : State) : Contests s (forHearths State.contestBus s) :=
  forList_inv (P := Contests s) (l := allHearths) (fun m _ _ h => h.trans (contests_contestBus m _)) (.refl s)

/-- Locks do not change which pieces there are. -/
theorem anyPiece_of_contests {s t : State} (h : Contests s t) (q : Piece → Bool) : t.anyPiece q = s.anyPiece q := by
  obtain ⟨v, rfl, hv⟩ := h
  have hjobs : v.toList.map (fun h => h.bus.jobs) = s.hearths.toList.map (fun h => h.bus.jobs) := by
    rw [← Vector.toList_map, ← Vector.toList_map]
    refine congrArg Vector.toList (Vector.ext fun i hi => ?_)
    obtain ⟨l, f, hl⟩ := hv ⟨i, hi⟩
    rw [Vector.getElem_map, Vector.getElem_map]
    exact congrArg (fun h => h.bus.jobs) hl
  have hany : v.toList.any (fun h => h.bus.jobs.any fun j => q j.piece) =
      s.hearths.toList.any (fun h => h.bus.jobs.any fun j => q j.piece) := by
    have := congrArg (fun l => l.any fun jobs : List Job => jobs.any fun j => q j.piece) hjobs
    rwa [List.any_map, List.any_map] at this
  exact congrArg (_ || ·) hany

theorem hostWriteBefore_of_contests {s t : State} (h : Contests s t) (n : HearthId) (p : Piece) :
    t.hostWriteBefore n p = s.hostWriteBefore n p := by
  have hpieces := anyPiece_of_contests h fun q => q.forBus n && q.buffered && decide (q.id < p.id)
  obtain ⟨v, rfl, -⟩ := h
  exact congrArg (_ || ·) hpieces

/-! ### The offers of a single piece -/

/-- Piece `p` alone stands in the queues of the switch, at port `i`. -/
def State.Sole (s : State) (p : Piece) (i : PortId) : Prop := ∀ k, vget s.sw.q k = if k = i then [p] else []

section Offers

variable {s : State} {p : Piece} {i : PortId}

theorem aimAll_of_sole (hsole : s.Sole p i) (haim : s.aim p = p) : s.aimAll = s := by
  have hq : vmap (fun (_ : PortId) l => l.map s.aim) s.sw.q = s.sw.q := by
    refine Vector.ext fun k hk => ?_
    have hk' := hsole ⟨k, hk⟩
    refine (vget_vmap _ _ ⟨k, hk⟩).trans ?_
    change _ = vget s.sw.q ⟨k, hk⟩
    rw [hk']
    split
    · exact congrArg (fun x => [x]) haim
    · rfl
  unfold State.aimAll
  rw [hq]

/-- R254: the piece is offered at its port, and nothing at another. -/
theorem offerOf_of_sole (hsole : s.Sole p i) (hgo : s.mayGo p = true) (htake : s.canTake p = true) (k : PortId) :
    s.offerOf k = if k = i then some p else none := by
  have hfirst : s.firstOffer [] [p] = some p := if_pos ⟨hgo, rfl, htake⟩
  unfold State.offerOf
  rw [hsole k]
  by_cases h : k = i
  · rw [if_pos h, if_pos h]
    dsimp only
    split
    · split
      next hx =>
        rw [List.mem_singleton.mp (List.mem_of_find?_eq_some hx), if_pos htake]
      · exact hfirst
    · exact hfirst
  · rw [if_neg h, if_neg h]
    dsimp only
    split <;> rfl

/-- A member of a list without repetitions, with those before and after it. -/
theorem split_of_nodup {α : Type} {l : List α} {x : α} (hl : l.Nodup) (hx : x ∈ l) :
    ∃ a b, l = a ++ x :: b ∧ (∀ y ∈ a, y ≠ x) ∧ ∀ y ∈ b, y ≠ x := by
  obtain ⟨a, b, rfl⟩ := List.append_of_mem hx
  obtain ⟨-, hright, hcross⟩ := List.nodup_append.mp hl
  exact ⟨a, b, rfl, fun y hy => hcross y hy x List.mem_cons_self,
    fun y hy e => (List.nodup_cons.mp hright).1 (e ▸ hy)⟩

theorem offers_of_sole (hsole : s.Sole p i) (hgo : s.mayGo p = true) (htake : s.canTake p = true) :
    (allPorts.filterMap fun src => (s.offerOf src).map fun p => (src, p)) = [(i, p)] := by
  have hoffer := offerOf_of_sole hsole hgo htake
  obtain ⟨a, b, hports, ha, hb⟩ := split_of_nodup (List.nodup_finRange 20) (List.mem_finRange i)
  have hnone : ∀ l : List PortId, (∀ k ∈ l, k ≠ i) → l.filterMap (fun src => (s.offerOf src).map fun p => (src, p)) = [] :=
    fun l hl => List.filterMap_eq_nil_iff.mpr fun k hk => by rw [hoffer, if_neg (hl k hk)]; rfl
  rw [allPorts, hports, List.filterMap_append, List.filterMap_cons, hnone a ha, hnone b hb, hoffer, if_pos rfl]
  rfl

theorem mem_sourceOrder : ∀ (ptr : HearthId) (src : PortId), src ∈ sourceOrder ptr := by decide

/-- R258: the only offer wins its destination, and no other has a winner. -/
theorem winner_of_single (d : PortId) : s.winner [(i, p)] d = if p.dst = d then some p else none := by
  have hfind : ∀ src : PortId, (([(i, p)].find? fun o => o.1 = src && o.2.dst = d).map (·.2)) =
      if i = src ∧ p.dst = d then some p else none := fun src => by
    by_cases h : i = src ∧ p.dst = d
    · rw [if_pos h, List.find?_cons_of_pos (by simpa using h)]
      rfl
    · rw [if_neg h, List.find?_cons_of_neg (by simpa using h)]
      rfl
  unfold State.winner
  simp only [hfind]
  by_cases hd : p.dst = d
  · rw [if_pos hd]
    have hsome : ((sourceOrder (vget s.sw.ptr d)).findSome? fun src => if i = src ∧ p.dst = d then some p else none).isSome = true :=
      List.findSome?_isSome_iff.mpr ⟨i, mem_sourceOrder _ i, by rw [if_pos ⟨rfl, hd⟩]; rfl⟩
    obtain ⟨x, hx⟩ := Option.isSome_iff_exists.mp hsome
    obtain ⟨src, -, hsrc⟩ := List.exists_of_findSome?_eq_some hx
    rw [hx]
    split at hsrc
    · exact hsrc.symm
    · exact nomatch hsrc
  · rw [if_neg hd]
    exact List.findSome?_eq_none_iff.mpr fun src _ => if_neg fun h => hd h.2

/-- R254, R258: the piece is delivered, and its port comes last at that destination if it is a hearth's. -/
def State.granted (s : State) (p : Piece) : State :=
  match portHearth p.src with
  | some n => { s.deliver p with sw := { (s.deliver p).sw with ptr := vset (s.deliver p).sw.ptr p.dst (n + 1) } }
  | none => s.deliver p

theorem grantAt_single (h19 : p.dst.val ≠ 19) (d : PortId) :
    State.grantAt [(i, p)] d s = if d = p.dst then s.granted p else s := by
  by_cases hd : d = p.dst
  · subst hd
    unfold State.grantAt
    rw [if_neg h19, if_pos rfl, winner_of_single, if_pos rfl]
    rfl
  · rw [if_neg hd]
    unfold State.grantAt
    split
    · rw [List.filter_cons_of_neg (by simpa using fun e => hd e.symm)]
      rfl
    · rw [winner_of_single, if_neg fun e => hd e.symm]

theorem grants_single (h19 : p.dst.val ≠ 19) : forList allPorts (State.grantAt [(i, p)]) s = s.granted p := by
  obtain ⟨a, b, hports, ha, hb⟩ := split_of_nodup (List.nodup_finRange 20) (List.mem_finRange p.dst)
  have hskip : ∀ (l : List PortId), (∀ d ∈ l, d ≠ p.dst) → ∀ t, forList l (State.grantAt [(i, p)]) t = t :=
    fun l hl t => forList_idle l fun d hd => (grantAt_single h19 d).trans (if_neg (hl d hd))
  rw [allPorts, hports, forList, List.foldl_append, List.foldl_cons, ← forList, ← forList, hskip a ha, grantAt_single h19,
    if_pos rfl, hskip b hb]

end Offers

/-! ### The tick -/

section Tick

variable {s : State} {p : Piece}

/-- R254: what the sources offer in this tick. -/
def State.offers (s : State) : List (PortId × Piece) := allPorts.filterMap fun src => (s.offerOf src).map fun p => (src, p)

/-- R254: each source's offer is kept in mind. -/
def State.offering (s : State) : State :=
  { s with sw := { s.sw with offer := vmap (fun (i : PortId) _ => (s.offers.find? fun o => o.1 = i).map fun o => o.2.id) s.sw.offer } }

/-- R266: pieces that find a bus locked wait, and all pieces are aimed. -/
def State.contested (s : State) : State := (forHearths State.contestBus s).aimAll

theorem exec_switchGrant (hrun : s.running = true) : exec .switchGrant s =
    .next (forList allPorts (State.grantAt s.contested.offers) s.contested.offering).freeTags.issueWaiting := if_pos hrun

/-- R254, R266: what a tick of the switch has before it grants: locks contested, and what each source offers. -/
def State.withOffers (s : State) (v : Vector Hearth 16) (o : Vector (Option Nat) 20) : State :=
  { s with hearths := v, sw := { s.sw with offer := o } }

theorem aim_of_host_or_hearth (hdst : p.dst.val ≤ 16) : s.aim p = p :=
  if_neg fun h => by rcases h.1 with e | e <;> rw [e] at hdst <;> exact absurd hdst (by decide)

theorem mayGo_of_contests {t : State} (h : Contests s t) : t.mayGo p = s.mayGo p := by
  obtain ⟨v, rfl, hv⟩ := h
  unfold State.mayGo
  split
  next c _ =>
    obtain ⟨l, f, hl⟩ := hv c.hearth
    have hposted : ({ s with hearths := v } : State).hearth c.hearth = { s.hearth c.hearth with lock := l, farLock := f } := hl
    rw [hposted]
    rfl
  · rfl

/-- A tick of the switch that finds one piece, which it can grant. -/
theorem exec_switchGrant_sole (hrun : s.running = true) (hsole : s.Sole p p.src) (hdst : p.dst.val ≤ 16) (hgo : s.mayGo p = true)
    (htake : ∀ t, Contests s t → t.canTake p = true) : ∃ v o, Contests s { s with hearths := v } ∧
      exec .switchGrant s = .next ((s.withOffers v o).granted p).freeTags.issueWaiting := by
  have hcontests := contests_contestBuses s
  obtain ⟨v, hv, -⟩ := id hcontests
  have hsole' : (forHearths State.contestBus s).Sole p p.src := by rw [hv]; exact hsole
  have hcontested : s.contested = forHearths State.contestBus s := aimAll_of_sole hsole' (aim_of_host_or_hearth hdst)
  have hoffers := offers_of_sole hsole' ((mayGo_of_contests hcontests).trans hgo) (htake _ hcontests)
  rw [← hcontested, ← State.offers] at hoffers
  refine ⟨v, s.contested.offering.sw.offer, hv ▸ hcontests, (exec_switchGrant hrun).trans ?_⟩
  rw [hoffers, grants_single (by omega), State.offering, hcontested, hv]
  rfl

theorem offering_standing (s : State) : s.offering.standing = s.standing := standing_setSw s _

theorem contested_standing (s : State) : s.contested.standing = s.standing :=
  (standing_aimAll _).trans (standing_forList allHearths _ (fun m s => standing_contestBus m s) s)

theorem switchGrant_standing (hrun : s.running = true) : ∃ t, exec .switchGrant s = .next t ∧ t.standing = s.standing := by
  refine ⟨_, exec_switchGrant hrun, ?_⟩
  rw [standing_issueWaiting, standing_freeTags, standing_forList _ _ fun d s => standing_grantAt _ d s, offering_standing,
    contested_standing]

end Tick

/-! ### Delivery -/

section Delivery

variable {s : State} {p : Piece}

/-- The piece has left its queue. -/
def State.unqueued (s : State) (p : Piece) : State :=
  { s with sw := { s.sw with
      q := vmod s.sw.q p.src fun l => l.filter fun x => x.id ≠ p.id
      offer := vset s.sw.offer p.src none } }

/-- R254, R269: the piece has left its queue, and its frame is counted. -/
def State.takenOut (s : State) (p : Piece) : State := (s.unqueued p).countFrame p

theorem unqueued_empty (hsole : s.Sole p p.src) (k : PortId) : vget (s.unqueued p).sw.q k = [] := by
  change vget (vmod s.sw.q p.src _) k = []
  by_cases h : k = p.src
  · rw [h, vget_vmod_self, hsole, if_pos rfl]
    exact List.filter_cons_of_neg (by simp)
  · rw [vget_vmod_ne _ _ _ _ h, hsole, if_neg h]

theorem leaveBuffer_other {o : Origin} (h : ∀ id, o ≠ .host id) : s.leaveBuffer o = s := by
  cases o with
  | host id => exact absurd rfl (h id)
  | _ => rfl

theorem deliver_completion (hdst : p.dst.val ≤ 16) (hcls : p.cls = .completion) :
    s.deliver p = (s.takenOut p).toRequester p := by
  unfold State.deliver
  dsimp only
  rw [← State.unqueued, if_pos hcls, leaveBuffer_other (o := .none) nofun, ← State.takenOut, if_neg (by omega), if_pos ⟨hcls, hdst⟩]

theorem deliver_change (hdst : p.dst.val ≤ 16) (hcls : p.cls = .interrupt) {c : Change} (ho : p.origin = .change c) :
    s.deliver p =
      { s.takenOut p with irq := { (s.takenOut p).irq with granted := (s.takenOut p).irq.granted ++ [c] } } := by
  have hnot : p.cls ≠ .completion := by rw [hcls]; decide
  unfold State.deliver
  dsimp only
  rw [← State.unqueued, if_neg hnot, ho, leaveBuffer_other (o := .change c) nofun, ← State.takenOut, if_neg (by omega), if_neg fun h => hnot h.1,
    if_pos ⟨hcls, hdst⟩]

theorem deliver_host (hdst : p.dst = 16) (hcls : p.cls = .posted) (ho : ∀ id, p.origin ≠ .host id) :
    s.deliver p = if p.origin = .sample then (s.takenOut p).placeRecord else (s.takenOut p).toHost p := by
  have hnotc : p.cls ≠ .completion := by rw [hcls]; decide
  have hnoti : p.cls ≠ .interrupt := by rw [hcls]; decide
  unfold State.deliver
  dsimp only
  rw [← State.unqueued, if_neg hnotc, leaveBuffer_other ho, ← State.takenOut, if_neg (by rw [hdst]; decide),
    if_neg fun h => hnotc h.1, if_neg fun h => hnoti h.1, hdst]
  exact if_pos rfl

/-! ### What counting a frame leaves -/

/-- The switch, the requests, the TLPs of the host port, the functions and the interrupts. -/
def State.traffic (s : State) : Switch × List HostReq × List TxTlp × Vector FnCfg 65 × Irq := (s.sw, s.reqs, s.txq, s.fns, s.irq)

theorem traffic_eq_iff {s t : State} : t.traffic = s.traffic ↔
    t.sw = s.sw ∧ t.reqs = s.reqs ∧ t.txq = s.txq ∧ t.fns = s.fns ∧ t.irq = s.irq := by
  simp only [State.traffic, Prod.mk.injEq]

/-- R207: a pulse of HnTAP_N changes no cycle and no traffic. -/
theorem tapPulse_frame (s : State) (q : PortId) : (s.tapPulse q).traffic = s.traffic ∧
    ∀ m, ((s.tapPulse q).hearth m).cyc = (s.hearth m).cyc := by
  unfold State.tapPulse
  split
  · refine ⟨rfl, fun m => ?_⟩
    rw [hearth_modHearth]
    split
    next h => exact h ▸ rfl
    · rfl
  · exact ⟨rfl, fun _ => rfl⟩

theorem countFrame_frame (s : State) (p : Piece) : (s.countFrame p).traffic = s.traffic ∧
    ∀ m, ((s.countFrame p).hearth m).cyc = (s.hearth m).cyc := by
  unfold State.countFrame
  dsimp only
  split
  · split
    · split
      · exact ⟨rfl, fun _ => rfl⟩
      · refine ⟨((tapPulse_frame _ _).1.trans (tapPulse_frame _ _).1), fun m => ?_⟩
        exact ((tapPulse_frame _ _).2 m).trans ((tapPulse_frame _ _).2 m)
    · exact ⟨rfl, fun _ => rfl⟩
  · exact ⟨rfl, fun _ => rfl⟩

theorem countFrame_sample (h : p.origin = .sample) : s.countFrame p = s := if_neg fun hon => hon.2 h

/-- R254: the piece has left its queue, and its delivery has changed nothing else. -/
theorem takenOut_frame (s : State) (p : Piece) : (s.takenOut p).sw = (s.unqueued p).sw ∧ (s.takenOut p).reqs = s.reqs ∧
    (s.takenOut p).txq = s.txq ∧ (s.takenOut p).fns = s.fns ∧ (s.takenOut p).irq = s.irq ∧
    ∀ m, ((s.takenOut p).hearth m).cyc = (s.hearth m).cyc := by
  obtain ⟨htraffic, hcyc⟩ := countFrame_frame (s.unqueued p) p
  obtain ⟨hsw, hreqs, htxq, hfns, hirq⟩ := traffic_eq_iff.mp htraffic
  exact ⟨hsw, hreqs, htxq, hfns, hirq, hcyc⟩

/-- R258: a grant is the delivery, with the pointer of a hearth's piece moved on. -/
theorem granted_frame (s : State) (p : Piece) : ∃ w, s.granted p = { s.deliver p with sw := w } ∧ w.q = (s.deliver p).sw.q ∧
    (∀ n, portHearth p.src = some n → vget w.ptr p.dst = n + 1) ∧ ∀ d, d ≠ p.dst → vget w.ptr d = vget (s.deliver p).sw.ptr d := by
  unfold State.granted
  split
  next n hn =>
    refine ⟨_, rfl, rfl, fun m hm => ?_, fun d hd => vget_vset_ne _ _ _ _ hd⟩
    rw [Option.some.inj (hm.symm.trans hn)]
    exact vget_vset_self _ _ _
  next hn => exact ⟨(s.deliver p).sw, rfl, rfl, fun n hm => absurd (hm.symm.trans hn) nofun, fun _ _ => rfl⟩

end Delivery

/-! ### The four pieces -/

section Pieces

variable {s : State} {p : Piece}

theorem canTake_host (hdst : p.dst = 16) (hcls : p.cls = .posted) : s.canTake p = true := by
  have hnoti : ¬(p.cls = .interrupt ∧ p.dst.val ≤ 16) := fun h => absurd (hcls.symm.trans h.1) (by decide)
  have hnotc : ¬(p.cls = .completion ∧ p.dst.val ≤ 16) := fun h => absurd (hcls.symm.trans h.1) (by decide)
  unfold State.canTake
  rw [if_neg hnoti, if_neg hnotc, hdst]
  rfl

theorem canTake_change (hdst : p.dst.val ≤ 16) (hcls : p.cls = .interrupt) : s.canTake p = true := if_pos ⟨hcls, hdst⟩

theorem canTake_completion {n : HearthId} (hdst : p.dst = hearthPort n) (hcls : p.cls = .completion)
    (hwrite : s.hostWriteBefore n p = false) : s.canTake p = true := by
  have hle : p.dst.val ≤ 16 := by rw [hdst]; exact Nat.le_of_lt n.isLt
  unfold State.canTake
  rw [if_neg fun h => absurd (hcls.symm.trans h.1) (by decide), if_pos ⟨hcls, hle⟩, hdst, portHearth_hearthPort]
  simp only [hwrite, Bool.not_false, Bool.or_true]

/-- What the end of a tick leaves of a grant that pushed nothing into a queue. -/
theorem granted_end (hsole : s.Sole p p.src) (hsw : (s.deliver p).sw = (s.unqueued p).sw) :
    (∀ k, vget (s.granted p).freeTags.issueWaiting.sw.q k = []) ∧
    (∀ n, portHearth p.src = some n → vget (s.granted p).freeTags.issueWaiting.sw.ptr p.dst = n + 1) ∧
    (∀ d, d ≠ p.dst → vget (s.granted p).freeTags.issueWaiting.sw.ptr d = vget s.sw.ptr d) ∧
    (s.granted p).freeTags.issueWaiting.irq = (s.deliver p).irq ∧
    (s.granted p).freeTags.issueWaiting.sampler = (s.deliver p).sampler ∧
    ((∀ r ∈ (s.deliver p).reqs, r.st ≠ .waiting) → ∃ w, (s.granted p).freeTags.issueWaiting = { s.deliver p with sw := w }.freeTags) := by
  obtain ⟨w, hgranted, hq, hptr, hothers⟩ := granted_frame s p
  rw [issueWaiting_sw, hgranted]
  have hends := workEnds_issueWaiting { s.deliver p with sw := w }.freeTags
  refine ⟨fun k => ?_, hptr, fun d hd => ?_, hends.irq, hends.sampler, fun hidle => ⟨w, issueWaiting_idle hidle⟩⟩
  · change vget w.q k = []
    rw [hq, hsw, unqueued_empty hsole]
  · change vget w.ptr d = _
    rw [hothers d hd, hsw]
    rfl

/-- R157: the host's MWr of a posted kind-0 write. -/
theorem toHost_write (hkind : p.kind = .postedWrite) (hcls : p.cls = .posted) : ∃ h, s.toHost p =
    s.sendTlp { bareTlp .mwr p.fn with addr := p.addr, bytes := p.bytes, len := p.bytes.length, origin := p.origin, hearth := h } := by
  unfold State.toHost
  rw [hkind, hcls]
  exact ⟨_, rfl⟩

/-- R201: the open read of hearth `n` is driven. -/
theorem toRequester_read {n : HearthId} {c : Cycle} (hpos : p.srcPos = s.pos) (ho : p.origin = .cycle n c.serial)
    (hst : p.status = .sc) (hc : (s.hearth n).cyc = some c) (hphase : c.phase = .inFlight) (hread : c.read = true) :
    s.toRequester p = s.driveRead n p.bytes := by
  unfold State.toRequester State.completeCycle
  rw [ho]
  dsimp only
  rw [if_pos hpos, hc]
  dsimp only
  rw [if_pos ⟨rfl, hphase⟩, if_pos hst, if_pos hread]

theorem driveRead_frame (n : HearthId) (got : List (Nat × Byte)) : (s.driveRead n got).traffic = s.traffic := by
  unfold State.driveRead
  split <;> rfl

theorem driveRead_drives {n : HearthId} {c : Cycle} (got : List (Nat × Byte)) (hc : (s.hearth n).cyc = some c) :
    ∃ d, ((s.driveRead n got).hearth n).hd = some d ∧
      ((s.driveRead n got).hearth n).cyc = some { c with phase := .driving, rdata := d, fetched := none } := by
  unfold State.driveRead
  rw [hc]
  dsimp only
  rw [woken_hearth, hearth_modHearth_self]
  exact ⟨_, rfl, rfl⟩

variable (hrun : s.running = true) (hgo : s.reached p.readyAt = true)
include hrun hgo

omit hrun in
theorem mayGo_of_reached (ho : ∀ c, p.origin ≠ .change c) : s.mayGo p = true := by
  unfold State.mayGo
  rw [hgo, Bool.true_and]
  split
  next c hc => exact absurd hc (ho c)
  · rfl

/-- R157, R258: a posted kind-0 write. -/
theorem switchGrant_write {n : HearthId} {k : Nat} (hsole : s.Sole p p.src) (hsrc : p.src = hearthPort n) (hdst : p.dst = 16)
    (hcls : p.cls = .posted) (hkind : p.kind = .postedWrite) (ho : p.origin = .posted n k) (hidle : ∀ r ∈ s.reqs, r.st ≠ .waiting) :
    ∃ t, exec .switchGrant s = .next t ∧ (∀ i, vget t.sw.q i = []) ∧ vget t.sw.ptr 16 = n + 1 ∧
      (∀ d, d ≠ 16 → vget t.sw.ptr d = vget s.sw.ptr d) ∧
      (∃ u, t.txq = s.txq ++ [u] ∧ u.kind = .mwr ∧ u.addr = p.addr ∧ u.bytes = p.bytes ∧ u.fn = p.fn ∧ u.origin = p.origin ∧
        u.len = p.bytes.length) ∧ t.reqs = s.reqs ∧ t.fns = s.fns := by
  obtain ⟨v, o, -, hexec⟩ := exec_switchGrant_sole hrun hsole (by rw [hdst]; decide)
    (mayGo_of_reached hgo fun c => by rw [ho]; exact nofun) fun t _ => canTake_host hdst hcls
  obtain ⟨hsw, hreqs, htxq, hfns, -, -⟩ := takenOut_frame (s.withOffers v o) p
  obtain ⟨h, hhost⟩ := toHost_write (s := (s.withOffers v o).takenOut p) hkind hcls
  have hdeliver := deliver_host (s := s.withOffers v o) hdst hcls fun id => by rw [ho]; exact nofun
  rw [if_neg (by rw [ho]; exact nofun), hhost] at hdeliver
  obtain ⟨hq, hptr, hothers, -, -, hrest⟩ := granted_end (s := s.withOffers v o) hsole (by rw [hdeliver]; exact hsw)
  rw [hdst] at hptr hothers
  obtain ⟨w, hw⟩ := hrest (by rw [hdeliver]; exact fun r hr => hidle r (hreqs ▸ hr))
  refine ⟨_, hexec, hq, hptr n (hsrc ▸ portHearth_hearthPort n), hothers, ?_⟩
  rw [hw, hdeliver]
  exact ⟨⟨_, congrArg (· ++ _) htxq, rfl, rfl, rfl, rfl, rfl, rfl⟩, hreqs, hfns⟩

/-- R257, R272: a sample record's piece. -/
theorem switchGrant_record (hsole : s.Sole p p.src) (hdst : p.dst = 16) (hcls : p.cls = .posted) (ho : p.origin = .sample) :
    ∃ t, exec .switchGrant s = .next t ∧ (∀ i, vget t.sw.q i = []) ∧ t.sampler = s.sampler ∧ t.irq = s.irq ∧
      ((∀ r ∈ s.reqs, r.st ≠ .waiting) → t.fns = s.fns ∧ ∃ u, t.txq = s.txq ++ [u] ∧ u.awaitsRecord = true) := by
  obtain ⟨v, o, -, hexec⟩ := exec_switchGrant_sole hrun hsole (by rw [hdst]; decide)
    (mayGo_of_reached hgo fun c => by rw [ho]; exact nofun) fun t _ => canTake_host hdst hcls
  have hdeliver := deliver_host (s := s.withOffers v o) hdst hcls fun id => by rw [ho]; exact nofun
  rw [if_pos ho, State.takenOut, countFrame_sample ho] at hdeliver
  obtain ⟨hq, -, -, hirq, hsampler, hrest⟩ := granted_end (s := s.withOffers v o) hsole (by rw [hdeliver]; rfl)
  rw [hdeliver] at hirq hsampler hrest
  refine ⟨_, hexec, hq, hsampler, hirq, fun hidle => ?_⟩
  obtain ⟨w, hw⟩ := hrest hidle
  rw [hw]
  exact ⟨rfl, _, rfl, rfl⟩

/-- R165, R201: a completion of the host for an open read. -/
theorem switchGrant_completion {n : HearthId} {c : Cycle} (hsole : s.Sole p p.src) (hdst : p.dst = hearthPort n)
    (hcls : p.cls = .completion) (hpos : p.srcPos = s.pos) (ho : p.origin = .cycle n c.serial) (hst : p.status = .sc)
    (hc : (s.hearth n).cyc = some c) (hphase : c.phase = .inFlight) (hread : c.read = true)
    (hwrite : s.hostWriteBefore n p = false) (hidle : ∀ r ∈ s.reqs, r.st ≠ .waiting) :
    ∃ t, exec .switchGrant s = .next t ∧ (∀ i, vget t.sw.q i = []) ∧ t.txq = s.txq ∧ t.fns = s.fns ∧ t.reqs = s.reqs ∧
      ∃ d, (t.hearth n).hd = some d ∧ (t.hearth n).cyc = some { c with phase := .driving, rdata := d, fetched := none } ∧
        ∀ m, m ≠ n → (t.hearth m).cyc = (s.hearth m).cyc := by
  have hle : p.dst.val ≤ 16 := by rw [hdst]; exact Nat.le_of_lt n.isLt
  obtain ⟨v, o, ⟨v', hv', hsame⟩, hexec⟩ := exec_switchGrant_sole hrun hsole hle
    (mayGo_of_reached hgo fun c => by rw [ho]; exact nofun)
    fun t ht => canTake_completion hdst hcls ((hostWriteBefore_of_contests ht n p).trans hwrite)
  obtain rfl : v = v' := congrArg State.hearths hv'
  have hcycle : ∀ m, ((s.withOffers v o).hearth m).cyc = (s.hearth m).cyc := fun m => by
    obtain ⟨l, f, h⟩ := hsame m
    exact (congrArg Hearth.cyc h : (vget v m).cyc = _)
  have hpos' : p.srcPos = ((s.withOffers v o).takenOut p).pos :=
    hpos.trans (pos_of_settled (settled_countFrame ((s.withOffers v o).unqueued p) p)).symm
  have hdeliver := deliver_completion (s := s.withOffers v o) hle hcls
  obtain ⟨hsw, hreqs, htxq, hfns, -, hcyc⟩ := takenOut_frame (s.withOffers v o) p
  generalize (s.withOffers v o).takenOut p = u at *
  have hopen : (u.hearth n).cyc = some c := (hcyc n).trans ((hcycle n).trans hc)
  rw [toRequester_read hpos' ho hst hopen hphase hread] at hdeliver
  obtain ⟨hsw', hreqs', htxq', hfns', -⟩ := traffic_eq_iff.mp (driveRead_frame (s := u) n p.bytes)
  obtain ⟨d, hd, hdriven⟩ := driveRead_drives p.bytes hopen
  obtain ⟨hq, -, -, -, -, hrest⟩ := granted_end (s := s.withOffers v o) hsole (by rw [hdeliver, hsw', hsw])
  rw [hdeliver] at hrest
  obtain ⟨w, hw⟩ := hrest (by rw [hreqs', hreqs]; exact hidle)
  refine ⟨_, hexec, hq, ?_⟩
  rw [hw]
  refine ⟨htxq'.trans htxq, hfns'.trans hfns, hreqs'.trans hreqs, d, hd, hdriven, fun m hm => ?_⟩
  have hother : (u.driveRead n p.bytes).hearth m = u.hearth m := driveRead_hearth_ne u p.bytes hm
  exact (congrArg Hearth.cyc hother).trans ((hcyc m).trans (hcycle m))

/-- R247, R257: an interrupt change. -/
theorem switchGrant_change {c : Change} (hsole : s.Sole p p.src) (hdst : p.dst.val ≤ 16) (hcls : p.cls = .interrupt)
    (ho : p.origin = .change c) (hdone : c.pos ≠ s.pos ∨ ∀ k ∈ c.waitFor, k ∉ (s.hearth c.hearth).posted)
    (hidle : ∀ r ∈ s.reqs, r.st ≠ .waiting) : ∃ t, exec .switchGrant s = .next t ∧ (∀ k, vget t.sw.q k = []) ∧
      t.irq = { s.irq with granted := s.irq.granted ++ [c] } ∧ t.txq = s.txq ∧ t.fns = s.fns := by
  have hmay : s.mayGo p = true := by
    unfold State.mayGo
    rw [hgo, ho]
    simpa using hdone
  obtain ⟨v, o, -, hexec⟩ := exec_switchGrant_sole hrun hsole hdst hmay fun t _ => canTake_change hdst hcls
  obtain ⟨hsw, hreqs, htxq, hfns, hirq, -⟩ := takenOut_frame (s.withOffers v o) p
  have hdeliver := deliver_change (s := s.withOffers v o) hdst hcls ho
  generalize (s.withOffers v o).takenOut p = u at *
  obtain ⟨hq, -, -, hgranted, -, hrest⟩ := granted_end (s := s.withOffers v o) hsole (by rw [hdeliver]; exact hsw)
  rw [hdeliver] at hgranted hrest
  obtain ⟨w, hw⟩ := hrest (by change ∀ r ∈ u.reqs, _; rw [hreqs]; exact hidle)
  refine ⟨_, hexec, hq, ?_⟩
  rw [hgranted, hw, hirq]
  exact ⟨rfl, htxq, hfns⟩

end Pieces

/-- Settles O52: the piece alone in the queues is offered, granted and delivered, in each of the four cases. -/
theorem switchGrants : Obligations.SwitchGrants := by
  unfold Obligations.SwitchGrants
  intro s hrun
  obtain ⟨t, ht, hstand⟩ := switchGrant_standing hrun
  have hsame : ∀ u, exec .switchGrant s = .next u → t = u := fun u hu => Host.Outcome.next.inj (ht.symm.trans hu)
  refine ⟨t, ht, hstand, fun p n k hsole hsrc hdst hcls hkind ho hgo hidle => ?_, fun p hsole hsrc hdst hcls ho hgo => ?_,
    fun p n c hsole hsrc hdst hcls hpos ho hst hgo hc hphase hread hwrite hidle => ?_,
    fun p c i hsole hsrc hdst hcls ho hgo hdone hidle => ?_⟩
  · obtain ⟨u, hu, h⟩ := switchGrant_write hrun hgo hsole hsrc hdst hcls hkind ho hidle
    exact hsame u hu ▸ h
  · obtain ⟨u, hu, h⟩ := switchGrant_record hrun hgo (hsrc ▸ hsole) hdst hcls ho
    exact hsame u hu ▸ h
  · obtain ⟨u, hu, h⟩ := switchGrant_completion hrun hgo (hsrc ▸ hsole) hdst hcls hpos ho hst hc hphase hread hwrite hidle
    exact hsame u hu ▸ h
  · obtain ⟨u, hu, h⟩ := switchGrant_change hrun hgo (hsrc ▸ hsole) hdst hcls ho hdone hidle
    exact hsame u hu ▸ h

end Sys2Proof.Machine
end

-- ==== Proofs of 07_host_link_protocol: recorded errors stay ====
section
/-! Recorded errors stay (R310, R313): the status bits of a function are set, and none is cleared, while work ends. -/

namespace Sys2Proof.Machine

open Sys2Proof

/-! ### The relation -/

/-- The bits of `a` are bits of `b`. -/
def BitsWithin {w : Nat} (a b : BitVec w) : Prop := ∀ i, a.getLsbD i = true → b.getLsbD i = true

theorem BitsWithin.refl {w : Nat} (a : BitVec w) : BitsWithin a a := fun _ h => h

theorem BitsWithin.or {w : Nat} (a b : BitVec w) : BitsWithin a (a ||| b) := fun i h => by
  rw [BitVec.getLsbD_or, h, Bool.true_or]

/-- No error status bit of `c` is cleared in `d`. -/
structure FnCfg.Grows (c d : FnCfg) : Prop where
  uncSta : BitsWithin c.uncSta d.uncSta
  corSta : BitsWithin c.corSta d.corSta
  status : BitsWithin c.status d.status

theorem FnCfg.Grows.refl (c : FnCfg) : c.Grows c := ⟨.refl _, .refl _, .refl _⟩

theorem FnCfg.Grows.trans {c d e : FnCfg} (h : c.Grows d) (k : d.Grows e) : c.Grows e :=
  ⟨fun i hi => k.uncSta i (h.uncSta i hi), fun i hi => k.corSta i (h.corSta i hi), fun i hi => k.status i (h.status i hi)⟩

theorem grows_setCor (c : FnCfg) (e : CorErr) : c.Grows (c.setCor e) := ⟨.refl _, .or _ _, .refl _⟩

theorem grows_status (c : FnCfg) (x : BitVec 16) : c.Grows { c with status := c.status ||| x } := ⟨.refl _, .refl _, .or _ _⟩

theorem grows_setUnc (c : FnCfg) (e : UncErr) (advisory : Bool) (hdr : Vector Dword 4) : c.Grows (c.setUnc e advisory hdr) := by
  have hif : ∀ {w : Nat} (b : Bool) (a x : BitVec w), BitsWithin a (if b = true then a else a ||| x) ∧
      BitsWithin a (if b = true then a ||| x else a) := fun b a x => by
    cases b
    · exact ⟨.or a x, .refl a⟩
    · exact ⟨.refl a, .or a x⟩
  refine ⟨(hif _ _ _).1, (hif _ _ _).2, ?_⟩
  change BitsWithin c.status (if e = .poisoned then c.status ||| bitOf 16 15 else c.status)
  split
  · exact .or _ _
  · exact .refl _

/-- No error status bit of a function is cleared between `s` and `t`. -/
def ErrorsKept (s t : State) : Prop := ∀ f, (s.fn f).Grows (t.fn f)

theorem ErrorsKept.trans {s t u : State} (h : ErrorsKept s t) (k : ErrorsKept t u) : ErrorsKept s u := fun f => (h f).trans (k f)

theorem errorsKept_of_fns {s t : State} (h : t.fns = s.fns) : ErrorsKept s t := fun f => by
  rw [show t.fn f = s.fn f from congrArg (vget · f) h]
  exact .refl _

theorem ErrorsKept.refl (s : State) : ErrorsKept s s := errorsKept_of_fns rfl

theorem ErrorsKept.forList {α : Type} (l : List α) (f : α → State → State) (h : ∀ x s, ErrorsKept s (f x s)) (s : State) :
    ErrorsKept s (forList l f s) :=
  forList_inv (P := ErrorsKept s) (fun x _ t ht => ht.trans (h x t)) (.refl s)

theorem errorsKept_modFn (s : State) (f : FnId) (g : FnCfg → FnCfg) (hg : ∀ c : FnCfg, c.Grows (g c)) : ErrorsKept s (s.modFn f g) :=
  fun k => by
    rw [fn_modFn]
    split
    next h => exact h ▸ hg _
    next => exact .refl _

/-! ### Errors -/

section Records

variable (s : State) (f : FnId)

theorem errorsKept_errMessage (k : Option TxKind) : ErrorsKept s (s.errMessage f k) := by
  rcases errMessage_fns s f k with h | ⟨-, h⟩
  · exact errorsKept_of_fns h
  · exact (errorsKept_modFn s f _ fun c => grows_status c _).trans (errorsKept_of_fns h)

theorem errorsKept_recordCor (e : CorErr) : ErrorsKept s (s.recordCor f e) := by
  unfold State.recordCor
  split
  · exact (errorsKept_modFn s f _ fun c => grows_setCor c e).trans (errorsKept_errMessage _ f _)
  · exact .refl s

theorem errorsKept_logEvent : ErrorsKept s (s.logEvent f) := errorsKept_recordCor s f .internal

theorem errorsKept_recordUnc (e : UncErr) (advisory : Bool) (hdr : Vector Dword 4) : ErrorsKept s (s.recordUnc f e advisory hdr) := by
  unfold State.recordUnc
  split
  · exact (errorsKept_modFn s f _ fun c => grows_setUnc c e advisory hdr).trans (errorsKept_errMessage _ f _)
  · exact .refl s

theorem errorsKept_setStatus (bit : Nat) : ErrorsKept s (s.setStatus f bit) := by
  unfold State.setStatus
  split
  · exact errorsKept_modFn s f _ fun c => grows_status c _
  · exact .refl s

end Records

/-! ### Host requests -/

section Requests

variable (s : State) (id : Nat)

theorem errorsKept_sendCpl (r : HostReq) (status : CplStatus) (bytes : List (Nat × Byte)) (off len : Nat) :
    ErrorsKept s (s.sendCpl r status bytes off len) := by
  unfold State.sendCpl
  dsimp only
  split
  · exact (errorsKept_of_fns (s := s) rfl).trans (errorsKept_setStatus (s.sendTlp _) _ _)
  · exact errorsKept_of_fns rfl

theorem errorsKept_modReq (f : HostReq → HostReq) : ErrorsKept s (s.modReq id f) := errorsKept_of_fns rfl

theorem errorsKept_refuseReq (r : HostReq) (status : CplStatus) (e : Option UncErr) : ErrorsKept s (s.refuseReq r status e) := by
  have hcpl : ∀ t, ErrorsKept s t → ErrorsKept s (if r.read then t.sendCpl r status [] r.nextOff 0 else t) := fun t ht => by
    split
    · exact ht.trans (errorsKept_sendCpl t r status _ _ _)
    · exact ht
  cases e with
  | none => exact hcpl s (.refl s)
  | some e => exact hcpl _ (errorsKept_recordUnc s _ e _ _)

theorem errorsKept_closeReq : ErrorsKept s (s.closeReq id) := errorsKept_of_fns (closeReq_fns s id)

theorem errorsKept_sendBlocks (k : Nat) : ErrorsKept s (State.sendBlocks k s id) := by
  induction k generalizing s with
  | zero => exact .refl s
  | succ k ih =>
    unfold State.sendBlocks
    dsimp only
    (repeat' split)
    · exact .refl s
    · exact ((errorsKept_sendCpl s _ _ _ _ _).trans (errorsKept_modReq _ id _)).trans (ih _)
    · exact .refl s
    · exact .refl s

theorem errorsKept_endRead (k : Nat) (r : HostReq) : ErrorsKept s (State.endRead k s r) := by
  have hblocks : ∀ (i : Nat) (f : HostReq → HostReq), ErrorsKept s (State.sendBlocks 66 (s.modReq i f) i) := fun i f =>
    (errorsKept_modReq s i f).trans (errorsKept_sendBlocks _ i 66)
  induction k generalizing r with
  | zero => exact .refl s
  | succ k ih =>
    unfold State.endRead
    split
    · exact hblocks _ _
    split
    · dsimp only
      split
      · exact (hblocks _ _).trans (errorsKept_refuseReq _ _ _ _)
      · exact hblocks _ _
    · exact ih _

theorem errorsKept_endWrite (r : HostReq) (modes : List (Bool × Bool)) (ev : Bool) : ErrorsKept s (s.endWrite r modes ev) :=
  ErrorsKept.forList _ _ (fun m s => by
    split
    · exact errorsKept_recordUnc s _ _ _ _
    split
    · exact .refl s
    · exact errorsKept_logEvent s _) s

/-- R166: the work of request `id` that has not been done is gone. -/
def State.reqDropped (s : State) (id : Nat) : State := (s.dropReqWork id).dropStored (· = .host id)

/-- R166, R311: its end is logged. -/
def State.reqEnding (s : State) (id : Nat) (ev : Bool) (r : HostReq) : State :=
  if ev then (s.reqDropped id).logEvent r.fn else s.reqDropped id

theorem endReq_none (h : s.req id = none) (ev : Bool) (struck : Option (Bool × Bool)) : s.endReq id ev struck = s := by
  unfold State.endReq
  rw [h]

/-- R166, R236: what is left of the request ends after its work has gone; then it is over. -/
theorem endReq_some {r : HostReq} (h : s.req id = some r) (ev : Bool) (struck : Option (Bool × Bool)) : ∃ modes,
    s.endReq id ev struck = (((if r.read then State.endRead 9 (s.reqEnding id ev r) { r with got := r.got ++ s.bytesRead id }
      else (s.reqEnding id ev r).endWrite r modes ev)).closeReq id).nextTick s.nextId := by
  unfold State.endReq
  rw [h]
  exact ⟨_, rfl⟩

theorem errorsKept_missReq : ErrorsKept s (s.missReq id) := by
  unfold State.missReq
  split
  · exact .refl s
  · exact (errorsKept_refuseReq s _ _ _).trans (errorsKept_closeReq _ id)

theorem errorsKept_tryIssue : ErrorsKept s (s.tryIssue id) := by
  have hissue : ∀ l, ErrorsKept s (s.issueWith id l) := fun l => errorsKept_of_fns (issueWith_frame s id l).2.1
  unfold State.tryIssue
  dsimp only
  (repeat' split)
  · exact .refl s
  · exact hissue _
  · exact errorsKept_missReq s id
  · exact .refl s
  · exact hissue _
  · exact .refl s
  · exact .refl s

theorem errorsKept_issueWaiting : ErrorsKept s s.issueWaiting := ErrorsKept.forList _ _ (fun id s => errorsKept_tryIssue s id) s

end Requests

end Sys2Proof.Machine
end

-- ==== Proofs of 07_host_link_protocol: requests at their deadline ====
section
/-! BAR-0 requests that come to their deadline (R166, R174, R221, R236, R305). -/

namespace Sys2Proof.Machine

open Sys2Proof

/-! ### A request among the others -/

section Requests

variable {s : State} {id : Nat}

theorem req_modReq (f : HostReq → HostReq) (hf : ∀ r, (f r).id = r.id) : (s.modReq id f).req id = (s.req id).map f := by
  unfold State.req State.modReq
  induction s.reqs with
  | nil => rfl
  | cons r l ih =>
    by_cases h : r.id = id
    · rw [List.map_cons, if_pos h, List.find?_cons_of_pos (by simpa [hf] using h), List.find?_cons_of_pos (by simpa using h)]
      rfl
    · rw [List.map_cons, if_neg h, List.find?_cons_of_neg (by simpa using h), List.find?_cons_of_neg (by simpa using h), ih]

/-- What of a request a completion names: its tag and function, and that it is a read. -/
def HostReq.face (r : HostReq) : Nat × FnId × Bool := (r.tag, r.fn, r.read)

/-- R226: `n` more bytes of a read have been sent. -/
def HostReq.sentOn (n : Nat) (r : HostReq) : HostReq := { r with nextOff := r.nextOff + n }

theorem sendBlocks_req (k : Nat) : ∀ {s : State} {r : HostReq}, s.req id = some r →
    ∃ x, (State.sendBlocks k s id).req id = some x ∧ x.face = r.face := by
  induction k with
  | zero => exact fun h => ⟨_, h, rfl⟩
  | succ k ih =>
    intro s r h
    have hnext : ∀ n bytes off len, ((s.sendCpl r .sc bytes off len).modReq id (HostReq.sentOn n)).req id = some (r.sentOn n) :=
      fun n bytes off len => by
        rw [req_modReq (HostReq.sentOn n) fun _ => rfl, State.req, sendCpl_reqs, ← State.req, h]
        rfl
    unfold State.sendBlocks
    rw [h]
    dsimp only
    split
    · split
      · obtain ⟨x, hx, hface⟩ := ih (hnext _ _ _ _)
        exact ⟨x, hx, hface⟩
      · exact ⟨r, h, rfl⟩
    · exact ⟨r, h, rfl⟩

theorem closeReq_gone {x : HostReq} (h : x ∈ (s.closeReq id).reqs) : x.id ≠ id := by
  rw [closeReq_reqs] at h
  exact of_decide_eq_true (List.mem_filter.mp h).2

theorem reqs_of_req_none (h : s.req id = none) {x : HostReq} (hx : x ∈ s.reqs) : x.id ≠ id := fun e =>
  absurd (decide_eq_true e) (List.find?_eq_none.mp h x hx)

theorem missReq_gone {x : HostReq} (h : x ∈ (s.missReq id).reqs) : x.id ≠ id := by
  unfold State.missReq at h
  split at h
  next hnone => exact reqs_of_req_none hnone h
  next => exact closeReq_gone h

theorem endReq_gone {ev : Bool} {struck : Option (Bool × Bool)} {x : HostReq} (h : x ∈ (s.endReq id ev struck).reqs) : x.id ≠ id := by
  cases hr : s.req id with
  | none =>
    rw [endReq_none s id hr] at h
    exact reqs_of_req_none hr h
  | some r =>
    obtain ⟨modes, hend⟩ := endReq_some s id hr ev struck
    rw [hend] at h
    exact closeReq_gone h

/-- Work that ends leaves no request that had left. -/
theorem WorkEnds.gone {s t : State} (hends : WorkEnds s t) (h : ∀ x ∈ s.reqs, x.id ≠ id) : ∀ x ∈ t.reqs, x.id ≠ id := fun x hx => by
  obtain ⟨q, hq, hid, -⟩ := hends.reqs x hx
  exact hid ▸ h q hq

/-- Work that ends leaves the completions there. -/
theorem WorkEnds.completion {s t : State} (hends : WorkEnds s t) {u : TxTlp} (hu : u ∈ s.txq) (ho : u.origin = .none) :
    ∃ v ∈ t.txq, v.kind = u.kind ∧ v.origin = u.origin ∧ v.status = u.status ∧ v.tag = u.tag ∧ v.fn = u.fn := by
  obtain ⟨v, hv, htimeless⟩ := List.mem_map.mp (hends.kept u hu ho)
  have hfields := congrArg (fun x : TxTlp => (x.kind, x.origin, x.status, x.tag, x.fn)) htimeless
  simp only [TxTlp.timeless, Prod.mk.injEq] at hfields
  exact ⟨v, hv, hfields⟩

end Requests

/-! ### Completions of a request that ends -/

section Ends

variable {s : State} {r : HostReq}

theorem missReq_completes (h : s.req r.id = some r) (hread : r.read = true) :
    ∃ u ∈ (s.missReq r.id).txq, u.kind = .cpl ∧ u.origin = .none ∧ u.status = .ur ∧ u.tag = r.tag ∧ u.fn = r.fn := by
  unfold State.missReq
  rw [h]
  dsimp only
  obtain ⟨l, htxq, hcpl⟩ := refuseReq_txq s r .ur (some .ur)
  obtain ⟨u, hu, hspec⟩ := hcpl hread
  exact ⟨u, by rw [closeReq_txq, htxq]; exact List.mem_append_right _ hu, hspec⟩

theorem missReq_recorded (h : s.req r.id = some r) (hexp : s.exposed r.fn.val = true) :
    uncRecorded (s.fn r.fn) ((s.missReq r.id).fn r.fn) 20 r.read := by
  have hrec := (refuseReq_fn s r .ur .ur hexp).1
  have hfn : (s.missReq r.id).fn r.fn = (s.refuseReq r .ur (some .ur)).fn r.fn := by
    unfold State.missReq
    rw [h]
    exact congrArg (vget · r.fn) (closeReq_fns _ _)
  rw [hfn]
  exact hrec

/-- R236: the failing part of a read in error-response mode ends it with that mode's status. -/
theorem endRead_completes {x : HostReq} {p : ReqPart} {k : Nat} (h : s.req r.id = some x) (hface : x.face = r.face) (hread : r.read = true)
    (hfailing : r.failing = some p) (herr : p.errResp = true) : ∃ u ∈ (State.endRead (k + 1) s r).txq,
      u.kind = .cpl ∧ u.origin = .none ∧ u.status = (if p.ca then .ca else .ur) ∧ u.tag = r.tag := by
  unfold State.endRead
  rw [hfailing]
  dsimp only
  rw [if_pos herr]
  have hgot : (s.modReq r.id fun x => { x with got := r.got }).req r.id = some { x with got := r.got } := by
    rw [req_modReq (fun x => { x with got := r.got }) fun _ => rfl, h]
    rfl
  obtain ⟨y, hy, hyface⟩ := sendBlocks_req 66 hgot
  rw [hy]
  dsimp only
  have hface' : y.face = r.face := hyface.trans hface
  have htag : y.tag = r.tag := congrArg Prod.fst hface'
  have hyread : y.read = true := (congrArg (fun f => f.2.2) hface').trans hread
  obtain ⟨l, htxq, hcpl⟩ := refuseReq_txq (State.sendBlocks 66 (s.modReq r.id fun x => { x with got := r.got }) r.id) y
    (if p.ca then .ca else .ur) (some (if p.ca then .cplAbort else .ur))
  obtain ⟨u, hu, hkind, horigin, hstatus, hutag, -⟩ := hcpl hyread
  refine ⟨u, by rw [htxq]; exact List.mem_append_right _ hu, ?_, horigin, hstatus, hutag.trans htag⟩
  rw [hkind]
  cases p.ca <;> rfl

theorem reqDropped_reqs (id : Nat) : (s.reqDropped id).reqs = s.reqs := removePieces_reqs _ (·.origin = .host id)

theorem reqEnding_req (id : Nat) (ev : Bool) : (s.reqEnding id ev r).req id = s.req id := by
  have hreqs : (s.reqEnding id ev r).reqs = s.reqs := by
    unfold State.reqEnding
    split
    · exact (untouched_logEvent _ _).reqs.trans (reqDropped_reqs id)
    · exact reqDropped_reqs id
  unfold State.req
  rw [hreqs]

theorem endReq_completes {p : ReqPart} {ev : Bool} {struck : Option (Bool × Bool)} (h : s.req r.id = some r) (hread : r.read = true)
    (hfailing : { r with got := r.got ++ s.bytesRead r.id }.failing = some p) (herr : p.errResp = true) :
    ∃ u ∈ (s.endReq r.id ev struck).txq, u.kind = .cpl ∧ u.origin = .none ∧ u.status = (if p.ca then .ca else .ur) ∧
      u.tag = r.tag := by
  obtain ⟨modes, hend⟩ := endReq_some s r.id h ev struck
  rw [if_pos hread] at hend
  obtain ⟨u, hu, hkind, horigin, hstatus, htag⟩ := endRead_completes (s := s.reqEnding r.id ev r)
    (r := { r with got := r.got ++ s.bytesRead r.id }) (k := 8) ((reqEnding_req r.id ev).trans h) rfl hread hfailing herr
  have hends := (workEnds_closeReq (State.endRead 9 (s.reqEnding r.id ev r) { r with got := r.got ++ s.bytesRead r.id }) r.id).trans
    (workEnds_nextTick _ s.nextId)
  obtain ⟨v, hv, hvkind, hvorigin, hvstatus, hvtag, -⟩ := hends.completion hu horigin
  exact ⟨v, hend ▸ hv, hvkind.trans hkind, hvorigin.trans horigin, hvstatus.trans hstatus, hvtag.trans htag⟩

theorem endReq_logged {struck : Option (Bool × Bool)} (h : s.req r.id = some r) (hexp : s.exposed r.fn.val = true) :
    ((s.endReq r.id true struck).fn r.fn).corSta.getLsbD 14 = true := by
  obtain ⟨modes, hend⟩ := endReq_some s r.id h true struck
  have hstand : (s.reqDropped r.id).standing = s.standing := (standing_dropStored _ _).trans (standing_dropReqWork s r.id)
  have hlogged := logEvent_corSta ((exposed_of_standing hstand r.fn.val).trans hexp)
  rw [hend]
  refine (ErrorsKept.trans ?_ (errorsKept_closeReq _ r.id) r.fn).corSta 14 hlogged
  split
  · exact errorsKept_endRead _ 9 _
  · exact errorsKept_endWrite _ r modes true

end Ends

/-! ### The two commands -/

section Commands

variable {s : State} {r : HostReq} (hreq : s.req r.id = some r) (hstone : r.stone = false) (hrun : s.running = true)

theorem req_advanceTo (due : Tally) : (s.advanceTo due).req r.id = s.req r.id := by
  unfold State.req
  rw [advanceTo_reqs]

theorem fn_advanceTo (due : Tally) (f : FnId) : (s.advanceTo due).fn f = s.fn f := congrArg (vget · f) (advanceTo_fns s due)

theorem exposed_advanceTo (due : Tally) (k : Nat) : (s.advanceTo due).exposed k = s.exposed k :=
  exposed_congr (congrArg Settled.mode (settled_advanceTo s due)) (congrArg Settled.cfg (settled_advanceTo s due)) k

/-- R166, R236: the work of a request that comes to its end in the tick `due`. -/
def State.reqEnds (s : State) (due : Tally) (id : Nat) : State := ((s.advanceTo due).endReq id true none).issueWaiting

/-- R166, R222: a held request that comes to its end in the tick `due`. -/
def State.reqMissed (s : State) (due : Tally) (id : Nat) : State := ((s.advanceTo due).missReq id).issueWaiting

include hreq in
theorem reqEnds_effect (due : Tally) : (s.reqEnds due r.id).clk = (s.advanceTo due).clk ∧
    (∀ x ∈ (s.reqEnds due r.id).reqs, x.id ≠ r.id) ∧
    (s.exposed r.fn.val = true → ((s.reqEnds due r.id).fn r.fn).corSta.getLsbD 14 = true) ∧
    (∀ p, { r with got := r.got ++ (s.advanceTo due).bytesRead r.id }.failing = some p → r.read = true → p.errResp = true →
      ∃ u ∈ (s.reqEnds due r.id).txq, u.kind = .cpl ∧ u.tag = r.tag ∧ u.status = (if p.ca then .ca else .ur)) ∧
    (s.reqEnds due r.id).standing = (s.advanceTo due).standing := by
  have hreq' := (req_advanceTo due).trans hreq
  have hstand : (s.reqEnds due r.id).standing = (s.advanceTo due).standing :=
    (standing_issueWaiting _).trans (standing_endReq _ _ _ _)
  have hends := workEnds_issueWaiting ((s.advanceTo due).endReq r.id true none)
  refine ⟨congrArg Standing.clk hstand, hends.gone fun x hx => endReq_gone hx, fun hexp => ?_, fun p hfailing hread herr => ?_, hstand⟩
  · exact (errorsKept_issueWaiting _ r.fn).corSta 14 (endReq_logged hreq' ((exposed_advanceTo due _).trans hexp))
  · obtain ⟨u, hu, hkind, horigin, hstatus, htag⟩ := endReq_completes hreq' hread hfailing herr
    obtain ⟨v, hv, hvkind, -, hvstatus, hvtag, -⟩ := hends.completion hu horigin
    exact ⟨v, hv, hvkind.trans hkind, hvtag.trans htag, hvstatus.trans hstatus⟩

/-- R310: the bits of an Unsupported Request that has been recorded. -/
theorem uncRecorded_bits {c d : FnCfg} {read : Bool} (h : uncRecorded c d 20 read) :
    (read = false ∨ c.uncSev.getLsbD 20 = true ∨ c.corMask.getLsbD 13 = false → d.uncSta.getLsbD 20 = true) ∧
    (read = true → c.uncSev.getLsbD 20 = false → d.corSta.getLsbD 13 = true) := by
  obtain ⟨hfull, hadvisory⟩ := h
  have hbit : (c.uncSta ||| bitOf 32 20).getLsbD 20 = true := by
    rw [BitVec.getLsbD_or, show (bitOf 32 20).getLsbD 20 = true by decide, Bool.or_true]
  refine ⟨fun h => ?_, fun hread hsev => ?_⟩
  · by_cases hfatal : read = false ∨ c.uncSev.getLsbD 20 = true
    · rw [hfull hfatal, hbit]
    · obtain ⟨hread, hsev⟩ := not_or.mp hfatal
      have hmask := (h.resolve_left hread).resolve_left hsev
      rw [(hadvisory (Bool.eq_true_of_not_eq_false hread) (Bool.eq_false_of_not_eq_true hsev)).2, hmask]
      exact hbit
  · rw [(hadvisory hread hsev).1, BitVec.getLsbD_or, show BitVec.getLsbD (0x2000 : BitVec 32) 13 = true by decide, Bool.or_true]

include hreq in
theorem reqMissed_effect (due : Tally) : (s.reqMissed due r.id).clk = (s.advanceTo due).clk ∧
    (∀ x ∈ (s.reqMissed due r.id).reqs, x.id ≠ r.id) ∧
    (r.read = true → ∃ u ∈ (s.reqMissed due r.id).txq, u.kind = .cpl ∧ u.status = .ur ∧ u.tag = r.tag ∧ u.fn = r.fn) ∧
    (s.exposed r.fn.val = true → (r.read = false ∨ (s.fn r.fn).uncSev.getLsbD 20 = true ∨ (s.fn r.fn).corMask.getLsbD 13 = false →
        ((s.reqMissed due r.id).fn r.fn).uncSta.getLsbD 20 = true) ∧
      (r.read = true → (s.fn r.fn).uncSev.getLsbD 20 = false → ((s.reqMissed due r.id).fn r.fn).corSta.getLsbD 13 = true)) ∧
    (s.reqMissed due r.id).standing = (s.advanceTo due).standing := by
  have hreq' := (req_advanceTo due).trans hreq
  have hstand : (s.reqMissed due r.id).standing = (s.advanceTo due).standing :=
    (standing_issueWaiting _).trans (standing_missReq _ _)
  have hends := workEnds_issueWaiting ((s.advanceTo due).missReq r.id)
  refine ⟨congrArg Standing.clk hstand, hends.gone fun x hx => missReq_gone hx, fun hread => ?_, fun hexp => ?_, hstand⟩
  · obtain ⟨u, hu, hkind, horigin, hstatus, htag, hfn⟩ := missReq_completes hreq' hread
    obtain ⟨v, hv, hvkind, -, hvstatus, hvtag, hvfn⟩ := hends.completion hu horigin
    exact ⟨v, hv, hvkind.trans hkind, hvstatus.trans hstatus, hvtag.trans htag, hvfn.trans hfn⟩
  · have hrec := missReq_recorded hreq' ((exposed_advanceTo due _).trans hexp)
    rw [fn_advanceTo] at hrec
    obtain ⟨hunc, hcor⟩ := uncRecorded_bits hrec
    have hkept := errorsKept_issueWaiting ((s.advanceTo due).missReq r.id) r.fn
    exact ⟨fun h => hkept.uncSta 20 (hunc h), fun hread hsev => hkept.corSta 13 (hcor hread hsev)⟩

include hreq hstone hrun

theorem exec_hostRequestDeadline : exec (.hostRequestDeadline r.id) s =
    .next (if r.st = .held then s.reqMissed (s.reqDue r) r.id else s.reqEnds (s.reqDue r) r.id) := by
  change execHostRequestDeadline r.id s = _
  unfold execHostRequestDeadline
  rw [hreq]
  dsimp only
  rw [if_pos ⟨hrun, by rw [hstone]; rfl⟩]
  split <;> rfl

theorem exec_flueHoldExpiry (haway : s.isLocal r = false) (hreads : r.read = true ∨ r.nonPosted = true) :
    exec (.flueHoldExpiry r.id) s =
      .next (if s.pathFor (posOf r.chimneyHearth) .nonPosted = none then s.reqEnds (tickPlus r.receipt (s.reqWatchdog r)) r.id else s) := by
  change execFlueHoldExpiry r.id s = _
  unfold execFlueHoldExpiry
  rw [hreq]
  dsimp only
  by_cases h : s.pathFor (posOf r.chimneyHearth) .nonPosted = none
  · rw [if_pos h, if_pos ⟨hrun, by rw [hstone]; rfl, hreads, by rw [haway]; rfl, by rw [h]; rfl⟩]
    rfl
  · rw [if_neg h, if_neg fun hall => h (Option.isNone_iff_eq_none.mp hall.2.2.2.2)]

end Commands

/-- Settles O41: a held request is missed, another is ended, and one held for want of a path ends as well. -/
theorem requestDeadlines : Obligations.RequestDeadlines := by
  unfold Obligations.RequestDeadlines
  refine ⟨fun r s hreq hstone hrun => ⟨_, exec_hostRequestDeadline hreq hstone hrun, ?_⟩,
    fun r s hreq hstone haway hrun hreads => ?_⟩
  · by_cases hheld : r.st = .held
    · rw [if_pos hheld]
      obtain ⟨hclk, hgone, hcpl, herrors, hstand⟩ := reqMissed_effect hreq (s.reqDue r)
      exact ⟨hclk, hgone, fun _ => hcpl, fun _ => herrors, fun _ h => absurd hheld h, fun h => absurd hheld h, hstand⟩
    · rw [if_neg hheld]
      obtain ⟨hclk, hgone, hlogged, hcpl, hstand⟩ := reqEnds_effect hreq (s.reqDue r)
      exact ⟨hclk, hgone, fun h => absurd h hheld, fun h => absurd h hheld, fun p _ hread hfailing => hcpl p hfailing hread,
        fun _ => hlogged, hstand⟩
  · have hexec := exec_flueHoldExpiry hreq hstone hrun haway hreads
    refine ⟨fun hpath => ?_, fun hnone => ⟨_, hexec, ?_⟩⟩
    · rw [hexec, if_neg fun h => absurd (h ▸ hpath) (by decide)]
    · rw [if_pos hnone]
      obtain ⟨hclk, hgone, hlogged, hcpl, hstand⟩ := reqEnds_effect hreq (tickPlus r.receipt (s.reqWatchdog r))
      exact ⟨hclk, hgone, hlogged, hcpl, hstand⟩

end Sys2Proof.Machine
end

-- ==== Proofs of 07_host_link_protocol: work that lands ====
section
/-! What a completion of the host sets going (R165, R172, R236, R255): the work it ends, and the requests for the host that waited
for a tag. -/

namespace Sys2Proof.Machine

open Sys2Proof

/-! ### The relation -/

/-- From `s` to `t` work has ended or gone on: the host requests stand, no recorded error is lost and no piece leaves the switch. -/
structure Lands (s t : State) : Prop where
  reqs : t.reqs = s.reqs
  errors : ErrorsKept s t
  queues : ∀ k p, p ∈ vget s.sw.q k → p ∈ vget t.sw.q k

theorem lands_of_same {s t : State} (hreqs : t.reqs = s.reqs) (hfns : t.fns = s.fns) (hsw : t.sw = s.sw) : Lands s t :=
  ⟨hreqs, errorsKept_of_fns hfns, fun _ _ h => hsw ▸ h⟩

theorem Lands.refl (s : State) : Lands s s := lands_of_same rfl rfl rfl

theorem Lands.trans {s t u : State} (h : Lands s t) (k : Lands t u) : Lands s u :=
  ⟨k.reqs.trans h.reqs, h.errors.trans k.errors, fun i p hp => k.queues i p (h.queues i p hp)⟩

theorem lands_of_traffic {s t : State} (h : t.traffic = s.traffic) : Lands s t := by
  obtain ⟨hsw, hreqs, -, hfns, -⟩ := traffic_eq_iff.mp h
  exact lands_of_same hreqs hfns hsw

section Single

variable (s : State)

theorem lands_push (p : Piece) : Lands s (s.push p) := by
  refine ⟨rfl, .refl s, fun k q hq => ?_⟩
  change q ∈ vget (vmod s.sw.q p.src _) k
  by_cases h : k = p.src
  · rw [h, vget_vmod_self]
    exact List.mem_append_left _ (h ▸ hq)
  · rw [vget_vmod_ne _ _ _ _ h]
    exact hq

theorem beside_recordCor (f : FnId) (e : CorErr) : (s.recordCor f e).beside = s.beside := by
  unfold State.recordCor
  split
  · exact beside_errMessage _ _ _
  · rfl

theorem lands_logEvent (f : FnId) : Lands s (s.logEvent f) :=
  ⟨(untouched_logEvent s f).reqs, errorsKept_logEvent s f,
    fun _ _ h => ((beside_eq_iff _ _).mp (beside_recordCor s f .internal)).2.2.2 ▸ h⟩

theorem emit_traffic (f : FlueId) (b : FlueBlk) : (s.emit f b).traffic = s.traffic := by cases f <;> rfl

theorem control_traffic (q : Fin 4) (b : FlueBlk) : (s.control q b).traffic = s.traffic := by
  unfold State.control
  split
  · exact emit_traffic s _ b
  · rfl

theorem performedFrom_traffic (p : Fin 4) (num : BitVec 16) : (s.performedFrom p num).traffic = s.traffic := control_traffic _ _ _

theorem answer_traffic (n : HearthId) (r : Resp) : (s.answer n r).traffic = s.traffic := by
  unfold State.answer
  split <;> rfl

end Single

/-! ### Work that ends -/

section Work

variable (s : State)

theorem farAnswer_traffic (n : HearthId) (c : Cycle) : (s.farAnswer n c).traffic = s.traffic := by
  unfold State.farAnswer
  (repeat' split)
  · exact answer_traffic s n .berr
  · exact driveRead_frame n []
  · exact answer_traffic s n .ack

theorem lands_farLogged (n : HearthId) (ev : Bool) (c : Cycle) : Lands s (s.farLogged n ev c) := by
  unfold State.farLogged
  split
  · exact lands_logEvent s _
  · exact .refl s

theorem lands_farSide (n : HearthId) (ev : Bool) : Lands s (s.farSide n ev) := by
  by_cases hclosed : (s.hearth n).closed
  · rw [farSide_of_closed hclosed]
    exact .refl s
  · obtain ⟨c, hc, hopen⟩ : ∃ c, (s.hearth n).cyc = some c ∧ c.phase.isOpen = true := by simpa [Hearth.closed] using hclosed
    rw [farSide_of_open hc hopen]
    exact (lands_farLogged s n ev c).trans ((lands_of_traffic (farAnswer_traffic _ n c)).trans (lands_of_traffic rfl))

theorem lands_completeCycle (n : HearthId) (serial : Nat) (got : List (Nat × Byte)) (status : CplStatus) :
    Lands s (s.completeCycle n serial got status) := by
  unfold State.completeCycle
  (repeat' split)
  · exact .refl s
  · exact lands_of_traffic (driveRead_frame n got)
  · exact lands_of_traffic (answer_traffic s n .ack)
  · exact lands_farSide s n false
  · exact .refl s

theorem lands_endWork (o : Origin) (got : List (Nat × Byte)) (status : CplStatus) : Lands s (s.endWork o got status) := by
  unfold State.endWork
  split
  · exact lands_completeCycle s _ _ got status
  · exact lands_of_traffic rfl
  · exact lands_push s _
  · exact lands_of_traffic (performedFrom_traffic s _ _)
  · exact .refl s

end Work

/-! ### Requests for the host that waited -/

section Waiting

variable (s : State)

theorem lands_presentArrival (f : FlueId) (b : PieceBlk) (path : List DomainId) (cost : Nat) (w : Work) :
    Lands s (s.presentArrival f b path cost w) := by
  unfold State.presentArrival
  split <;> exact lands_of_traffic rfl

theorem lands_refuseArrival (b : PieceBlk) (st : CplStatus) : Lands s (s.refuseArrival b st) := by
  unfold State.refuseArrival
  split
  · exact lands_push s _
  · exact lands_of_traffic (performedFrom_traffic s _ _)

theorem lands_farArrival (f : FlueId) (b : PieceBlk) : Lands s (s.farArrival f b) := by
  unfold State.farArrival
  (repeat' split)
  · exact lands_presentArrival s f b _ _ _
  · exact (lands_logEvent s _).trans (lands_refuseArrival _ b .ur)
  · exact lands_refuseArrival s b .ur

theorem lands_landHost (f : FlueId) (b : PieceBlk) : Lands s (s.landHost f b) := by
  unfold State.landHost
  dsimp only
  (repeat' split)
  · exact lands_farArrival s f b
  · exact .refl s
  · exact lands_of_traffic (performedFrom_traffic s _ _)
  · exact lands_farArrival s f b
  · exact lands_of_traffic (control_traffic s _ _)
  · exact lands_farArrival s f b
  · exact lands_of_traffic rfl
  · exact lands_presentArrival s f b _ _ _

theorem lands_landWaiting : Lands s s.landWaiting := by
  unfold State.landWaiting
  dsimp only
  split
  · exact .refl s
  · exact forList_inv (P := Lands s) (fun x _ t ht => ht.trans (lands_landHost t x.1 x.2)) (lands_of_traffic rfl)

end Waiting

/-! ### The read that is answered -/

section Answered

variable {s : State} {x : HostTag}

/-- R165, R255: a tag's release, the answer of the work it stands for, and the requests that waited for a tag. -/
def State.answered (s : State) (x : HostTag) (tag : Nat) (got : List (Nat × Byte)) (status : CplStatus) : State :=
  ((s.freeTag x).hostReply x.origin tag got status).landWaiting

theorem lands_freeTag (s : State) (x : HostTag) : Lands s (s.freeTag x) := lands_of_traffic rfl

theorem lands_woken (s : State) : Lands s s.woken := lands_of_traffic rfl

theorem freeTag_standing (s : State) (x : HostTag) :
    (s.freeTag x).standing = { s.standing with tags := s.tags.filter fun y => y.tag ≠ x.tag } := rfl

theorem answered_standing (tag : Nat) (got : List (Nat × Byte)) (status : CplStatus) :
    (s.answered x tag got status).standing = { s.standing with tags := s.tags.filter fun y => y.tag ≠ x.tag } :=
  (standing_landWaiting _).trans ((standing_hostReply _ _ _ _ _).trans (freeTag_standing s x))

/-- What the answer of awaited work leaves: the functions and the requests that wait. -/
theorem hostReply_frame {o : Origin} (h : s.awaited o = true) (t : State) (tag : Nat) (got : List (Nat × Byte)) (status : CplStatus) :
    Lands t (t.hostReply o tag got status) ∧ (t.hostReply o tag got status).fns = t.fns ∧
      (t.hostReply o tag got status).chim = t.chim := by
  cases o with
  | cycle n serial => exact ⟨lands_push t _, rfl, rfl⟩
  | posted n serial => exact ⟨lands_of_traffic rfl, rfl, rfl⟩
  | remote q port tag key => exact ⟨lands_push t _, rfl, rfl⟩
  | _ => exact nomatch (h : false = true)

/-- R165, R255: the piece that crosses to an open cycle. -/
theorem hostReply_piece (n : HearthId) (serial tag : Nat) (got : List (Nat × Byte)) (status : CplStatus) :
    ∃ p ∈ vget (s.hostReply (.cycle n serial) tag got status).sw.q 16, p.cls = .completion ∧ p.src = 16 ∧ p.dst = hearthPort n ∧
      p.origin = .cycle n serial ∧ p.status = status ∧ p.bytes = got :=
  ⟨_, by
    change _ ∈ vget (vmod s.sw.q 16 _) 16
    rw [vget_vmod_self]
    exact List.mem_append_right _ (List.mem_singleton_self _), rfl, rfl, rfl, rfl, rfl, rfl⟩

theorem lands_answered {u : State} (h : u.awaited x.origin = true) (tag : Nat) (got : List (Nat × Byte)) (status : CplStatus) :
    Lands s (s.answered x tag got status) :=
  ((lands_freeTag s x).trans (hostReply_frame h (s.freeTag x) tag got status).1).trans (lands_landWaiting _)

theorem answered_fns {u : State} (h : u.awaited x.origin = true) (tag : Nat) (got : List (Nat × Byte)) (status : CplStatus)
    (hheld : ∀ y ∈ s.chim.held, y.2.dstPort.val ≠ 16) : (s.answered x tag got status).fns = s.fns := by
  obtain ⟨-, hfns, hchim⟩ := hostReply_frame h (s.freeTag x) tag got status
  rw [State.answered, landWaiting_of_none _ (by rw [hchim]; exact hheld)]
  exact hfns

theorem answered_piece {n : HearthId} {serial : Nat} (ho : x.origin = .cycle n serial) (tag : Nat) (got : List (Nat × Byte))
    (status : CplStatus) : ∃ p ∈ vget (s.answered x tag got status).sw.q 16, p.cls = .completion ∧ p.src = 16 ∧ p.dst = hearthPort n ∧
      p.origin = x.origin ∧ p.status = status ∧ p.bytes = got := by
  obtain ⟨p, hp, hspec⟩ := hostReply_piece (s := s.freeTag x) n serial tag got status
  unfold State.answered
  rw [ho]
  exact ⟨p, (lands_landWaiting _).queues 16 p hp, hspec⟩

end Answered

/-! ### A completion received -/

section Received

variable {s : State} {x : HostTag} (tag : Nat) (st : CplStatus) (poisoned : Bool) (data : List Byte) (fn : Nat) (hdr : Vector Dword 4)

/-- R310: the function that an unexpected completion names, or function 0. -/
def State.cplFn (s : State) (fn : Nat) : FnId := if s.exposed fn then Fin.ofNat 65 fn else 0

theorem takeCpl_unexpected (h : (s.tags.find? fun y => y.tag = tag) = none) :
    s.takeCpl tag st poisoned data fn hdr = s.recordUnc (s.cplFn fn) .unexpectedCpl true hdr := by
  unfold State.takeCpl
  rw [h]
  rfl

/-- The data of a completion, at the addresses of the read. -/
def cplBytes (x : HostTag) (data : List Byte) : List (Nat × Byte) := data.zipIdx.map fun p => (x.addr + p.2, p.1)

/-- R310: poisoned data are recorded before the read is answered. -/
def State.poisonRecorded (s : State) (f : FnId) (hdr : Vector Dword 4) : State :=
  if ((s.recordUnc f .poisoned false hdr).fn f).perr then (s.recordUnc f .poisoned false hdr).setStatus f 8
  else s.recordUnc f .poisoned false hdr

variable (h : (s.tags.find? fun y => y.tag = tag) = some x)
include h

theorem takeCpl_malformed (hlong : (s.fn x.fn).mps < data.length) :
    s.takeCpl tag st poisoned data fn hdr = s.recordUnc x.fn .malformed false hdr := by
  unfold State.takeCpl
  rw [h]
  exact if_pos hlong

theorem takeCpl_late (hfits : data.length ≤ (s.fn x.fn).mps) (hended : s.awaited x.origin = false) :
    s.takeCpl tag st poisoned data fn hdr = (s.freeTag x).landWaiting := by
  unfold State.takeCpl
  rw [h]
  dsimp only
  rw [if_neg (by omega), hended]
  rfl

theorem takeCpl_poisoned (hfits : data.length ≤ (s.fn x.fn).mps) (hopen : s.awaited x.origin = true) :
    s.takeCpl tag st true data fn hdr = (s.poisonRecorded x.fn hdr).answered x tag [] .ca := by
  unfold State.takeCpl
  rw [h]
  dsimp only
  rw [if_neg (by omega), hopen]
  rfl

theorem takeCpl_good (hfits : data.length ≤ (s.fn x.fn).mps) (hopen : s.awaited x.origin = true) :
    s.takeCpl tag st false data fn hdr = (s.cplStatusBits x.fn st).answered x tag (cplBytes x data) st := by
  unfold State.takeCpl
  rw [h]
  dsimp only
  rw [if_neg (by omega), hopen]
  rfl

theorem tag_of_find : x.tag = tag := by simpa using List.find?_some h

theorem freeTag_of_find :
    (s.tags.filter fun y => y.tag ≠ x.tag) = s.tags.filter fun y => y.tag ≠ tag := by rw [tag_of_find tag h]

end Received

section Recorded

variable (s : State) (f : FnId)

theorem standing_poisonRecorded (hdr : Vector Dword 4) : (s.poisonRecorded f hdr).standing = s.standing := by
  unfold State.poisonRecorded
  split
  · exact (standing_setStatus _ _ _).trans (standing_recordUnc _ _ _ _ _)
  · exact standing_recordUnc _ _ _ _ _

theorem lands_recordUnc (e : UncErr) (advisory : Bool) (hdr : Vector Dword 4) : Lands s (s.recordUnc f e advisory hdr) :=
  ⟨(untouched_recordUnc s f e advisory hdr).reqs, errorsKept_recordUnc s f e advisory hdr,
    fun _ _ h => ((beside_eq_iff _ _).mp (beside_recordUnc s f e advisory hdr)).2.2.2 ▸ h⟩

theorem lands_setStatus (bit : Nat) : Lands s (s.setStatus f bit) :=
  ⟨(untouched_setStatus s f bit).reqs, errorsKept_setStatus s f bit,
    fun _ _ h => ((beside_eq_iff _ _).mp (beside_setStatus s f bit)).2.2.2 ▸ h⟩

theorem lands_poisonRecorded (hdr : Vector Dword 4) : Lands s (s.poisonRecorded f hdr) := by
  unfold State.poisonRecorded
  split
  · exact (lands_recordUnc s f .poisoned false hdr).trans (lands_setStatus _ f 8)
  · exact lands_recordUnc s f .poisoned false hdr

theorem lands_cplStatusBits (st : CplStatus) : Lands s (s.cplStatusBits f st) := by
  unfold State.cplStatusBits
  split
  · exact lands_setStatus s f 13
  · exact lands_setStatus s f 12
  · exact .refl s

variable {s f} (hexp : s.exposed f.val = true)
include hexp

/-- R310: an error that is recorded stands in the function as `setUnc` sets it, and a message takes none of it away. -/
theorem recordUnc_grows (e : UncErr) (advisory : Bool) (hdr : Vector Dword 4) :
    ((s.fn f).setUnc e advisory hdr).Grows ((s.recordUnc f e advisory hdr).fn f) := by
  have hkept := errorsKept_errMessage (s.modFn f fun c => c.setUnc e advisory hdr) f ((s.fn f).uncMessage e advisory) f
  rw [fn_modFn_self] at hkept
  rwa [recordUnc_eq hexp]

theorem setStatus_bit {bit : Nat} (h : bit < 16) : ((s.setStatus f bit).fn f).status.getLsbD bit = true := by
  unfold State.setStatus
  rw [if_pos hexp, fn_modFn_self]
  change ((s.fn f).status ||| BitVec.twoPow 16 bit).getLsbD bit = true
  rw [BitVec.getLsbD_or, BitVec.getLsbD_twoPow, decide_eq_true h, decide_eq_true rfl, Bool.and_self, Bool.or_true]

theorem poisonRecorded_bits (hdr : Vector Dword 4) : ((s.poisonRecorded f hdr).fn f).uncSta.getLsbD 12 = true ∧
    ((s.poisonRecorded f hdr).fn f).status.getLsbD 15 = true := by
  have hrec := recordUnc_grows hexp .poisoned false hdr
  have hunc : ((s.fn f).setUnc .poisoned false hdr).uncSta.getLsbD 12 = true := by
    rw [setUnc_uncSta, BitVec.getLsbD_or]
    exact Bool.or_eq_true_iff.mpr (.inr (by decide))
  have hstatus : ((s.fn f).setUnc .poisoned false hdr).status.getLsbD 15 = true := by
    change ((s.fn f).status ||| bitOf 16 15).getLsbD 15 = true
    rw [BitVec.getLsbD_or]
    exact Bool.or_eq_true_iff.mpr (.inr (by decide))
  have hkept : ErrorsKept (s.recordUnc f .poisoned false hdr) (s.poisonRecorded f hdr) := by
    unfold State.poisonRecorded
    split
    · exact errorsKept_setStatus _ f 8
    · exact .refl _
  have hall := hrec.trans (hkept f)
  exact ⟨hall.uncSta 12 hunc, hall.status 15 hstatus⟩

end Recorded

end Sys2Proof.Machine
end

-- ==== Proofs of 07_host_link_protocol: completions for reads ====
section
/-! Completions of the bridge's reads, and tags that time out (R156, R160, R163, R165, R255, R310, R313). -/

namespace Sys2Proof.Machine

open Sys2Proof

/-! ### A completion received -/

section Received

variable {s : State}

theorem exposed_mono {j k : Nat} (h : s.exposed k = true) (hle : j ≤ k) : s.exposed j = true := by
  unfold State.exposed at *
  split at h
  · exact h
  · exact decide_eq_true (hle.trans (of_decide_eq_true h))

/-- A function number that is exposed is one of the 65. -/
theorem exposed_ofNat {k : Nat} (h : s.exposed k = true) : s.exposed (Fin.ofNat 65 k).val = true :=
  exposed_mono h (Nat.mod_le k 65)

theorem cplFn_exposed (hup : s.hostLinkUp = true) (fn : Nat) : s.exposed (s.cplFn fn).val = true := by
  unfold State.cplFn
  split
  next h => exact exposed_ofNat h
  next => exact exposed_zero_of_hostLinkUp hup

variable {x : HostTag} {tag : Nat} {st : CplStatus} {poisoned : Bool} {data : List Byte} {fn : Nat} {hdr : Vector Dword 4}

/-- R156: the state after a completion. -/
def State.cplTaken (s : State) (tag : Nat) (st : CplStatus) (poisoned : Bool) (data : List Byte) (fn : Nat) (hdr : Vector Dword 4) :
    State := (s.takeCpl tag st poisoned data fn hdr).woken

theorem exec_completionReceived (hup : s.hostLinkUp = true) :
    exec (.completionReceived tag st poisoned data fn hdr) s = .next (s.cplTaken tag st poisoned data fn hdr) := if_pos hup

theorem filter_of_none (h : (s.tags.find? fun y => y.tag = tag) = none) : (s.tags.filter fun y => y.tag ≠ tag) = s.tags :=
  List.filter_eq_self.mpr fun y hy => decide_eq_true fun e => absurd (decide_eq_true e) (List.find?_eq_none.mp h y hy)

/-- The host requests and the standing parts are the same but for the tags in flight, which are `l`. -/
def TagsOnly (s t : State) (l : List HostTag) : Prop := t.reqs = s.reqs ∧ t.standing = { s.standing with tags := l }

theorem TagsOnly.tags {t : State} {l : List HostTag} (h : TagsOnly s t l) : t.tags = l := congrArg Standing.tags h.2

theorem tagsOnly_recordUnc (f : FnId) (e : UncErr) (advisory : Bool) : TagsOnly s (s.recordUnc f e advisory hdr) s.tags :=
  ⟨(untouched_recordUnc s f e advisory hdr).reqs, standing_recordUnc s f e advisory hdr⟩

theorem tagsOnly_answered {u : State} (hlands : Lands s u) (hstand : u.standing = s.standing) (hopen : s.awaited x.origin = true)
    (got : List (Nat × Byte)) : TagsOnly s (u.answered x tag got st) (s.tags.filter fun y => y.tag ≠ x.tag) := by
  have htags : u.tags = s.tags := congrArg Standing.tags hstand
  have hans := answered_standing (s := u) (x := x) tag got st
  rw [hstand, htags] at hans
  exact ⟨(lands_answered hopen tag got st).reqs.trans hlands.reqs, hans⟩

/-- R160, R163: a completion with data that fit releases its tag; one too long, or of no tag, releases none. -/
theorem tagsOnly_takeCpl : ∃ l, TagsOnly s (s.takeCpl tag st poisoned data fn hdr) l ∧
    ((∀ x, (s.tags.find? fun y => y.tag = tag) = some x → data.length ≤ (s.fn x.fn).mps) → l = s.tags.filter fun y => y.tag ≠ tag) := by
  cases h : s.tags.find? fun y => y.tag = tag with
  | none =>
    rw [takeCpl_unexpected tag st poisoned data fn hdr h]
    exact ⟨_, tagsOnly_recordUnc _ _ _, fun _ => (filter_of_none h).symm⟩
  | some x =>
    by_cases hlong : (s.fn x.fn).mps < data.length
    · rw [takeCpl_malformed tag st poisoned data fn hdr h hlong]
      exact ⟨_, tagsOnly_recordUnc _ _ _, fun hfits => absurd (hfits x rfl) (by omega)⟩
    have hfits : data.length ≤ (s.fn x.fn).mps := by omega
    refine ⟨_, ?_, fun _ => freeTag_of_find tag h⟩
    cases hopen : s.awaited x.origin with
    | false =>
      rw [takeCpl_late tag st poisoned data fn hdr h hfits hopen]
      exact ⟨(untouched_landWaiting (s.freeTag x)).reqs, (standing_landWaiting (s.freeTag x)).trans (freeTag_standing s x)⟩
    | true =>
      cases poisoned with
      | true =>
        rw [takeCpl_poisoned tag st data fn hdr h hfits hopen]
        exact tagsOnly_answered (lands_poisonRecorded s x.fn hdr) (standing_poisonRecorded s x.fn hdr) hopen _
      | false =>
        rw [takeCpl_good tag st data fn hdr h hfits hopen]
        exact tagsOnly_answered (lands_cplStatusBits s x.fn st) (standing_cplStatusBits s x.fn st) hopen _

/-- R160: a completion with data above Max_Payload_Size. -/
theorem cplTaken_malformed (h : (s.tags.find? fun y => y.tag = tag) = some x) (hlong : (s.fn x.fn).mps < data.length) :
    (s.cplTaken tag st poisoned data fn hdr).tags = s.tags ∧ (s.cplTaken tag st poisoned data fn hdr).txq = s.txq ∧
    (s.cplTaken tag st poisoned data fn hdr).hearths = s.hearths ∧ (s.cplTaken tag st poisoned data fn hdr).sw = s.sw ∧
    (s.exposed x.fn.val = true →
      ((s.cplTaken tag st poisoned data fn hdr).fn x.fn).uncSta = (s.fn x.fn).uncSta ||| 0x40000) := by
  have huntouched := untouched_recordUnc s x.fn .malformed false hdr
  obtain ⟨-, -, -, hsw⟩ := (beside_eq_iff _ _).mp (beside_recordUnc s x.fn .malformed false hdr)
  unfold State.cplTaken
  rw [takeCpl_malformed tag st poisoned data fn hdr h hlong]
  exact ⟨(tagsOnly_recordUnc x.fn .malformed false).tags, huntouched.txq, huntouched.hearths, hsw,
    fun hexp => (uncRecorded_recordUnc hexp .malformed false hdr).1 (.inl rfl)⟩

/-- R310: a completion of no tag. -/
theorem cplTaken_unexpected (hup : s.hostLinkUp = true) (h : ∀ x ∈ s.tags, x.tag ≠ tag) :
    (s.cplTaken tag st poisoned data fn hdr).txq = s.txq ∧ (s.cplTaken tag st poisoned data fn hdr).hearths = s.hearths ∧
    uncRecorded (s.fn (s.cplFn fn)) ((s.cplTaken tag st poisoned data fn hdr).fn (s.cplFn fn)) 16 true := by
  have hnone : (s.tags.find? fun y => y.tag = tag) = none := List.find?_eq_none.mpr fun x hx e => h x hx (of_decide_eq_true e)
  have huntouched := untouched_recordUnc s (s.cplFn fn) .unexpectedCpl true hdr
  unfold State.cplTaken
  rw [takeCpl_unexpected tag st poisoned data fn hdr hnone]
  exact ⟨huntouched.txq, huntouched.hearths, uncRecorded_recordUnc (cplFn_exposed hup fn) .unexpectedCpl true hdr⟩

section Awaited

variable (h : (s.tags.find? fun y => y.tag = tag) = some x) (hfits : data.length ≤ (s.fn x.fn).mps)
include h hfits

/-- R165: a completion whose cycle has ended. -/
theorem cplTaken_late (hended : s.awaited x.origin = false) :
    (s.cplTaken tag st poisoned data fn hdr).txq = s.txq ∧ (s.cplTaken tag st poisoned data fn hdr).hearths = s.hearths ∧
    ((∀ y ∈ s.chim.held, y.2.dstPort.val ≠ 16) → (s.cplTaken tag st poisoned data fn hdr).fns = s.fns) := by
  have huntouched := untouched_landWaiting (s.freeTag x)
  unfold State.cplTaken
  rw [takeCpl_late tag st poisoned data fn hdr h hfits hended]
  refine ⟨huntouched.txq, huntouched.hearths, fun hheld => ?_⟩
  rw [landWaiting_of_none _ (show ∀ y ∈ (s.freeTag x).chim.held, _ from hheld)]
  rfl

variable (hopen : s.awaited x.origin = true)
include hopen

/-- R310: a poisoned completion. -/
theorem cplTaken_poisoned (hexp : s.exposed x.fn.val = true) :
    ((s.cplTaken tag st true data fn hdr).fn x.fn).uncSta.getLsbD 12 = true ∧
    ((s.cplTaken tag st true data fn hdr).fn x.fn).status.getLsbD 15 = true := by
  obtain ⟨hunc, hstatus⟩ := poisonRecorded_bits hexp hdr
  have hkept := (lands_answered (s := s.poisonRecorded x.fn hdr) hopen tag [] .ca).errors x.fn
  unfold State.cplTaken
  rw [takeCpl_poisoned tag st data fn hdr h hfits hopen]
  exact ⟨hkept.uncSta 12 hunc, hkept.status 15 hstatus⟩

/-- R313: what a completion that is not poisoned shows in the Status register. -/
theorem cplTaken_status (hexp : s.exposed x.fn.val = true) :
    (st = .ur → ((s.cplTaken tag st false data fn hdr).fn x.fn).status.getLsbD 13 = true) ∧
    (st = .ca → ((s.cplTaken tag st false data fn hdr).fn x.fn).status.getLsbD 12 = true) ∧
    (st = .sc → (∀ y ∈ s.chim.held, y.2.dstPort.val ≠ 16) → (s.cplTaken tag st false data fn hdr).fns = s.fns) := by
  have hkept := (lands_answered (s := s.cplStatusBits x.fn st) hopen tag (cplBytes x data) st).errors x.fn
  unfold State.cplTaken
  rw [takeCpl_good tag st data fn hdr h hfits hopen]
  refine ⟨?_, ?_, ?_⟩
  · rintro rfl
    exact hkept.status 13 (setStatus_bit hexp (by decide))
  · rintro rfl
    exact hkept.status 12 (setStatus_bit hexp (by decide))
  · rintro rfl hheld
    exact answered_fns (s := s) hopen tag _ .sc hheld

/-- R165, R255: the data cross to the cycle that waits. -/
theorem cplTaken_piece {n : HearthId} {serial : Nat} (ho : x.origin = .cycle n serial) :
    ∃ p ∈ vget (s.cplTaken tag st false data fn hdr).sw.q 16, p.cls = .completion ∧ p.src = 16 ∧ p.dst = hearthPort n ∧
      p.origin = x.origin ∧ p.status = st ∧ p.bytes = cplBytes x data := by
  unfold State.cplTaken
  rw [takeCpl_good tag st data fn hdr h hfits hopen]
  exact answered_piece ho tag _ st

end Awaited

end Received

/-! ### A tag that times out -/

section Timeout

variable {s : State} {x : HostTag}

/-- R163: the tag `x` is released without a completion, and the read it stands for ends. -/
def State.unanswered (s : State) (x : HostTag) : State :=
  ((((s.recordUnc x.fn .cplTimeout false noHeader).freeTag x).endWork x.origin [] .ca).landWaiting).woken

theorem exec_completionTimeout (h : (s.tags.find? fun y => y.tag = x.tag) = some x) (hrun : s.running = true) :
    exec (.completionTimeout x.tag) s = .next ((s.advanceTo (tickPlus x.sent Config.completionTimeout)).unanswered x) := by
  change execCompletionTimeout x.tag s = _
  unfold execCompletionTimeout
  rw [h]
  exact if_pos hrun

theorem unanswered_standing (s : State) (x : HostTag) :
    (s.unanswered x).standing = { s.standing with tags := s.tags.filter fun y => y.tag ≠ x.tag } := by
  have hrec := standing_recordUnc s x.fn .cplTimeout false noHeader
  have htags : (s.recordUnc x.fn .cplTimeout false noHeader).tags = s.tags := congrArg Standing.tags hrec
  have hfree := freeTag_standing (s.recordUnc x.fn .cplTimeout false noHeader) x
  rw [hrec, htags] at hfree
  exact (standing_woken _).trans ((standing_landWaiting _).trans ((standing_endWork _ x.origin [] .ca).trans hfree))

theorem lands_unanswered (s : State) (x : HostTag) : Lands (s.recordUnc x.fn .cplTimeout false noHeader) (s.unanswered x) :=
  (lands_freeTag _ x).trans ((lands_endWork _ x.origin [] .ca).trans ((lands_landWaiting _).trans (lands_woken _)))

theorem unanswered_effect (s : State) (x : HostTag) : (s.unanswered x).clk = s.clk ∧
    (s.unanswered x).tags = s.tags.filter (fun y => y.tag ≠ x.tag) ∧
    (s.exposed x.fn.val = true → ((s.unanswered x).fn x.fn).uncSta.getLsbD 14 = true) ∧ (s.unanswered x).reqs = s.reqs ∧
    (s.unanswered x).standing = { s.standing with tags := (s.unanswered x).tags } := by
  have hstand := unanswered_standing s x
  have htags : (s.unanswered x).tags = _ := congrArg Standing.tags hstand
  refine ⟨congrArg Standing.clk hstand, htags, fun hexp => ?_, ?_, by rw [htags]; exact hstand⟩
  · refine ((recordUnc_grows hexp .cplTimeout false noHeader).trans ((lands_unanswered s x).errors x.fn)).uncSta 14 ?_
    rw [setUnc_uncSta, BitVec.getLsbD_or]
    exact Bool.or_eq_true_iff.mpr (.inr (by decide))
  · exact (lands_unanswered s x).reqs.trans (untouched_recordUnc s x.fn .cplTimeout false noHeader).reqs

theorem completionTimeout_effect (s : State) (x : HostTag) (due : Tally) :
    ((s.advanceTo due).unanswered x).clk = (s.advanceTo due).clk ∧
    ((s.advanceTo due).unanswered x).tags = s.tags.filter (fun y => y.tag ≠ x.tag) ∧
    (s.exposed x.fn.val = true → (((s.advanceTo due).unanswered x).fn x.fn).uncSta.getLsbD 14 = true) ∧
    ((s.advanceTo due).unanswered x).reqs = s.reqs ∧
    ((s.advanceTo due).unanswered x).standing = { (s.advanceTo due).standing with tags := ((s.advanceTo due).unanswered x).tags } := by
  have heffect := unanswered_effect (s.advanceTo due) x
  rwa [advanceTo_tags, advanceTo_reqs, exposed_advanceTo] at heffect

end Timeout

/-- Settles O39: each kind of completion by its lemma above, and the timeout. -/
theorem completionsForReads : Obligations.CompletionsForReads := by
  unfold Obligations.CompletionsForReads
  refine ⟨fun tag st poisoned data fn hdr s hup => ⟨_, exec_completionReceived hup, ?_⟩,
    fun x s h hrun => ⟨_, exec_completionTimeout h hrun, completionTimeout_effect s x _⟩⟩
  obtain ⟨l, honly, hfilter⟩ := tagsOnly_takeCpl (s := s) (tag := tag) (st := st) (poisoned := poisoned) (data := data) (fn := fn)
    (hdr := hdr)
  have htags : (s.cplTaken tag st poisoned data fn hdr).tags = l := honly.tags
  refine ⟨fun hfits => htags.trans (hfilter hfits), by rw [htags]; exact honly.2, honly.1, fun x => cplTaken_malformed,
    cplTaken_unexpected hup, fun x => cplTaken_late, fun x h hfits hexp hopen => ⟨?_, ?_, ?_⟩⟩
  · rintro rfl
    exact cplTaken_poisoned h hfits hopen hexp
  · rintro rfl
    exact cplTaken_status h hfits hopen hexp
  · rintro n serial c ho - - - rfl
    exact cplTaken_piece h hfits hopen ho

end Sys2Proof.Machine
end

-- ==== Proofs of 07_host_link_protocol: TLPs that arrive ====
section
/-! An arriving TLP (R128, R151, R156, R160, R310): its sequence number, its errors, and how it is handled by type. -/

namespace Sys2Proof.Machine

open Sys2Proof

/-! ### The sequence number -/

section Sequence

variable {seq : BitVec 12} {ok : Bool} {p : Tlp} {s : State}

/-- R128, R151: the TLP is the next one: the sequence moves on, and an ACK is due. -/
def State.rxAccepted (s : State) : State :=
  { s with dll := { s.dll with rxSeq := s.dll.rxSeq + 1, ackDue := true, nakDue := false }, link := { s.link with txL0s := false } }

/-- R128, R151: a NAK is due. -/
def State.outOfOrder (s : State) : State := { s with dll := { s.dll with nakDue := true }, link := { s.link with txL0s := false } }

variable (hactive : s.linkActive = true)
include hactive

theorem exec_tlpReceived_next (hok : ok = true) (hseq : seq = s.dll.rxSeq) :
    exec (.tlpReceived seq ok p) s = .next (s.rxAccepted.acceptTlp p).woken := (if_pos hactive).trans (if_pos ⟨hok, hseq⟩)

theorem exec_tlpReceived_duplicate (hok : ok = true) (hne : seq ≠ s.dll.rxSeq) (hold : (s.dll.rxSeq - seq).toNat ≤ 2048) :
    exec (.tlpReceived seq ok p) s =
      .next { s with dll := { s.dll with ackDue := true }, link := { s.link with txL0s := false }, wake := true } :=
  (if_pos hactive).trans ((if_neg fun h => hne h.2).trans (if_pos ⟨hok, hold⟩))

theorem exec_tlpReceived_bad (hbad : ok = false ∨ 2048 < (s.dll.rxSeq - seq).toNat) :
    exec (.tlpReceived seq ok p) s = .next (s.outOfOrder.linkCor .badTlp).woken := by
  have hnot : ∀ {P : Prop}, (P → (s.dll.rxSeq - seq).toNat ≤ 2048) → ¬(ok = true ∧ P) := fun hP h => by
    rcases hbad with hbad | hbad
    · exact absurd (hbad.symm.trans h.1) (by decide)
    · exact absurd (hP h.2) (by omega)
  refine (if_pos hactive).trans ((if_neg (hnot ?_)).trans (if_neg (hnot id)))
  rintro rfl
  rw [BitVec.sub_self]
  decide

theorem linkActive_up : s.hostLinkUp = true := (Bool.and_eq_true_iff.mp (Bool.and_eq_true_iff.mp hactive).1).1

end Sequence

/-! ### The function that a TLP addresses -/

section Addressed

variable {s : State}

theorem memTarget_exposed {a : Nat} {f : FnId} (h : s.memTarget a = some f) : s.exposed f.val = true := by
  have hbar : ∀ g, s.barHit a g = true → s.exposed g.val = true := fun g hg => (Bool.and_eq_true_iff.mp hg).1
  have hflr : ∀ g, s.flrHit a g = true → s.exposed g.val = true := fun g hg =>
    (Bool.and_eq_true_iff.mp (Bool.and_eq_true_iff.mp hg).1).1
  unfold State.memTarget at h
  split at h
  next g hg =>
    obtain rfl : g = f := Option.some.inj h
    have hhit := List.find?_some hg
    exact hbar g (Bool.and_eq_true_iff.mp hhit).2
  next =>
    split at h
    next g hg =>
      obtain rfl : g = f := Option.some.inj h
      exact hflr g (List.find?_some hg)
    next => exact hbar f (List.find?_some h)

/-- R310: the function addressed is one that is exposed. -/
theorem addressed_exposed (hup : s.hostLinkUp = true) (p : Tlp) : s.exposed (s.addressed p).val = true := by
  have hzero : s.exposed (0 : FnId).val = true := exposed_zero_of_hostLinkUp hup
  have hmem : s.exposed ((s.memTarget p.addr).getD 0).val = true := by
    cases h : s.memTarget p.addr with
    | none => exact hzero
    | some f => exact memTarget_exposed h
  have hfn : s.exposed (s.cplFn p.fn).val = true := cplFn_exposed hup p.fn
  unfold State.addressed
  split
  · exact hmem
  · exact hmem
  · exact hfn
  · exact hfn
  · exact hfn
  · exact hfn
  · exact hzero

end Addressed

/-! ### TLPs that are not served -/

section Refused

variable {s : State} {p : Tlp}

/-- R153: a TLP that leaves its buffer at once returns its credits; nothing else changes. -/
theorem pass_eq (s : State) (p : Tlp) : ∃ fc, s.pass p = { s with fc := fc } ∧ fc.taken = s.fc.taken ∧
    (TlpKind.posted p.kind = some false → fc.alloc.nph = s.fc.alloc.nph + 1) := by
  unfold State.pass
  split
  next h =>
    refine ⟨_, rfl, (Fc.giveBack_take s.fc true _).1, fun hk => ?_⟩
    exact nomatch h.symm.trans hk
  next => exact ⟨_, rfl, (Fc.giveBack_take s.fc false _).1, fun _ => congrArg RxCounts.nph (Fc.giveBack_take s.fc false _).2⟩
  next h =>
    refine ⟨_, rfl, rfl, fun hk => ?_⟩
    exact nomatch h.symm.trans hk

/-- R310: an error of the TLP is recorded in the function it addresses as it leaves its buffer. -/
def State.errored (s : State) (p : Tlp) (e : UncErr) (advisory : Bool) : State := (s.pass p).recordUnc (s.addressed p) e advisory p.hdr

theorem errored_effect (hup : s.hostLinkUp = true) (e : UncErr) (advisory : Bool) :
    (s.errored p e advisory).standing = s.standing ∧ (s.errored p e advisory).txq = s.txq ∧ (s.errored p e advisory).reqs = s.reqs ∧
    (s.errored p e advisory).fc.taken = s.fc.taken ∧ (s.errored p e advisory).hearths = s.hearths ∧
    uncRecorded (s.fn (s.addressed p)) ((s.errored p e advisory).fn (s.addressed p)) e.bit advisory ∧
    (∀ f, f ≠ s.addressed p → (s.errored p e advisory).fn f = s.fn f) ∧
    (TlpKind.posted p.kind = some false → (s.errored p e advisory).fc.alloc.nph = s.fc.alloc.nph + 1) := by
  obtain ⟨fc, hpass, htaken, hnph⟩ := pass_eq s p
  have hstand : (s.errored p e advisory).standing = s.standing := (standing_recordUnc _ _ _ _ _).trans (standing_pass s p)
  unfold State.errored at *
  rw [hpass] at hstand ⊢
  have huntouched := untouched_recordUnc { s with fc := fc } (s.addressed p) e advisory p.hdr
  have hfc := ((beside_eq_iff _ _).mp (beside_recordUnc { s with fc := fc } (s.addressed p) e advisory p.hdr)).1
  refine ⟨hstand, huntouched.txq, huntouched.reqs, ?_, huntouched.hearths,
    uncRecorded_recordUnc (s := { s with fc := fc }) (addressed_exposed hup p) e advisory p.hdr,
    fun f hf => recordUnc_fn_ne (s := { s with fc := fc }) hf e advisory p.hdr, fun hk => ?_⟩
  · rw [hfc]
    exact htaken
  · rw [hfc]
    exact hnph hk

theorem acceptTlp_overflow (h : s.overflows p = true) : s.acceptTlp p = s.linkUnc .rxOverflow := if_pos h

theorem acceptTlp_malformed (hfits : s.overflows p = false) (h : p.malformed = true ∨ (s.fn (s.addressed p)).mps < p.data.length) :
    s.acceptTlp p = s.errored p .malformed false :=
  (if_neg (by rw [hfits]; decide)).trans (if_pos (by simpa using h))

theorem acceptTlp_good (hfits : s.overflows p = false) (hform : p.malformed = false)
    (hmps : p.data.length ≤ (s.fn (s.addressed p)).mps) : s.acceptTlp p = s.takeTlp p :=
  (if_neg (by rw [hfits]; decide)).trans (if_neg (by simp [hform, hmps]))

/-- R310: Receiver Overflow in every exposed function. -/
theorem overflow_fn (f : FnId) :
    ((s.linkUnc .rxOverflow).fn f = { s.fn f with
      status := ((s.linkUnc .rxOverflow).fn f).status, devsta := ((s.linkUnc .rxOverflow).fn f).devsta
      hdrLog := ((s.linkUnc .rxOverflow).fn f).hdrLog, firstErr := ((s.linkUnc .rxOverflow).fn f).firstErr
      uncSta := ((s.linkUnc .rxOverflow).fn f).uncSta }) := by
  have hstatus := linkUnc_status s .rxOverflow f
  rw [uncEverywhere_fn] at hstatus
  generalize (s.linkUnc .rxOverflow).fn f = c at *
  split at hstatus
  · rw [show c = _ from hstatus]
    rfl
  · rw [show c = _ from hstatus]

/-- R156: an Unsupported Request, and its completion when it is non-posted. -/
theorem unsupported_posted (h : TlpKind.posted p.kind ≠ some false) : s.unsupported p = s.errored p .ur false := by
  unfold State.unsupported
  rw [decide_eq_false h]
  rfl

theorem unsupported_nonPosted (h : TlpKind.posted p.kind = some false) : s.unsupported p =
    (s.errored p .ur true).sendTlp { bareTlp .cpl (s.addressed p) with tag := p.tag, status := .ur } := by
  unfold State.unsupported
  rw [decide_eq_true h]
  rfl

end Refused

/-! ### TLPs that are handled by type -/

section Handled

variable {s : State} {p : Tlp}

theorem takeTlp_unsupported (h : p.tlpPrefix = true ∨ (p.kind ∈ [TlpKind.mRd, .mWr] ∧ s.memTarget p.addr = none) ∨
    (p.kind ∈ [TlpKind.cfgRd0, .cfgWr0] ∧ s.exposed p.fn = false) ∨ p.kind ∈ [TlpKind.vendor0, .otherMsg]) :
    s.takeTlp p = s.unsupported p := by
  have hmem : s.memTarget p.addr = none → ∀ read, s.takeMem p read = s.unsupported p := fun hnone read => by
    unfold State.takeMem
    rw [hnone]
  unfold State.takeTlp
  rcases h with h | ⟨hk, hnone⟩ | ⟨hk, hhidden⟩ | hk
  · exact if_pos h
  · split
    · rfl
    · rcases List.mem_pair.mp hk with hk | hk <;> rw [hk] <;> exact hmem hnone _
  · split
    · rfl
    · rcases List.mem_pair.mp hk with hk | hk <;> rw [hk] <;> exact if_neg (by rw [hhidden]; decide)
  · split
    · rfl
    · rcases List.mem_pair.mp hk with hk | hk <;> rw [hk]

/-- R156: the types that the bridge does not support. -/
theorem takeTlp_foreign (hprefix : p.tlpPrefix = false)
    (hk : p.kind ∈ [TlpKind.ioRd, .ioWr, .mRdLk, .fetchAdd, .swap, .cas, .cfgRd1, .cfgWr1]) :
    s.takeTlp p = s.unsupported p ∧ TlpKind.posted p.kind = some false ∧ s.addressed p = 0 := by
  unfold State.takeTlp State.addressed
  rw [if_neg (by rw [hprefix]; decide)]
  simp only [List.mem_cons, List.not_mem_nil, or_false] at hk
  rcases hk with hk | hk | hk | hk | hk | hk | hk | hk <;> rw [hk] <;> exact ⟨rfl, rfl, rfl⟩

/-- R156: what a plain TLP is handled as, type by type. -/
theorem takeTlp_byType (hprefix : p.tlpPrefix = false) : (p.kind = .mRd → s.takeTlp p = s.takeMem p true) ∧
    (p.kind = .mWr → s.takeTlp p = s.takeMem p false) ∧
    (p.kind = .cfgRd0 → s.exposed p.fn = true → s.takeTlp p = s.takeCfgRead (Fin.ofNat 65 p.fn) (p.addr % 4096) p.tag) ∧
    (p.kind = .cfgWr0 → s.exposed p.fn = true → s.takeTlp p =
      s.takeCfgWrite (Fin.ofNat 65 p.fn) (p.addr % 4096) (beBits p.be) (dataDword p.data) p.bus p.tag) ∧
    (p.kind = .cplD → s.takeTlp p = s.takeCpl p.tag p.status p.poisoned p.data p.fn p.hdr) ∧
    (p.kind = .cpl → s.takeTlp p = s.takeCpl p.tag p.status p.poisoned [] p.fn p.hdr) ∧
    (p.kind = .pmeTurnOff → s.takeTlp p = s.pmeTurnOff) ∧
    (p.kind = .setSlotPowerLimit ∨ p.kind = .vendor1 → s.takeTlp p = s.passPosted p.data.length) := by
  unfold State.takeTlp
  rw [if_neg (by rw [hprefix]; decide)]
  refine ⟨fun hk => by rw [hk], fun hk => by rw [hk], fun hk hexp => ?_, fun hk hexp => ?_, fun hk => by rw [hk],
    fun hk => by rw [hk], fun hk => by rw [hk], fun hk => ?_⟩
  · rw [hk]
    exact if_pos hexp
  · rw [hk]
    exact if_pos hexp
  · rcases hk with hk | hk <;> rw [hk]

/-- The command that a good TLP stands for. -/
def State.standsFor (s : State) (p : Tlp) (c : Instr) : Prop :=
  (∃ f h, s.memTarget p.addr = some f ∧ hearthOfFn f = some h ∧ (p.kind = .mRd ∧ c = .memoryReadBar0 h (memReq p (p.addr - s.barValue f)) ∨
      p.kind = .mWr ∧ c = .memoryWriteBar0 h (memReq p (p.addr - s.barValue f)))) ∨
    (∃ f, s.memTarget p.addr = some f ∧ hearthOfFn f = none ∧ (p.kind = .mRd ∧ c = .memoryReadBar2 (memReq p (p.addr - s.barValue f)) ∨
      p.kind = .mWr ∧ c = .memoryWriteBar2 (memReq p (p.addr - s.barValue f)))) ∨
    (∃ f : FnId, f.val = p.fn ∧ s.exposed p.fn = true ∧ p.kind = .cfgWr0 ∧
      c = .configWrite f (Fin.ofNat 4096 p.addr) (beBits p.be) (dataDword p.data) p.bus p.tag) ∨
    (p.kind = .cplD ∧ c = .completionReceived p.tag p.status p.poisoned p.data p.fn p.hdr) ∨
    (p.kind = .cpl ∧ c = .completionReceived p.tag p.status p.poisoned [] p.fn p.hdr) ∨ (p.kind = .pmeTurnOff ∧ c = .pmeTurnOff)

theorem takeMem_bar0 {f : FnId} {h : Fin 64} (htarget : s.memTarget p.addr = some f) (hhearth : hearthOfFn f = some h) (read : Bool) :
    s.takeMem p read = s.bar0 h read (memReq p (p.addr - s.barValue f)) := by
  unfold State.takeMem
  rw [htarget]
  dsimp only
  rw [hhearth]

theorem takeMem_bar2 {f : FnId} (htarget : s.memTarget p.addr = some f) (hhearth : hearthOfFn f = none) (read : Bool) :
    s.takeMem p read = s.bar2 read (memReq p (p.addr - s.barValue f)) := by
  unfold State.takeMem
  rw [htarget]
  dsimp only
  rw [hhearth]

/-- R156: a TLP that stands for a command is handled as that command. -/
theorem takeTlp_command (hup : s.hostLinkUp = true) (hprefix : p.tlpPrefix = false) {c : Instr} (hc : s.standsFor p c) :
    ∃ w, exec c s = .next w ∧ (s.takeTlp p).woken = w.woken := by
  obtain ⟨hread, hwrite, -, hcfg, hcplD, hcpl, hpme, -⟩ := takeTlp_byType (s := s) hprefix
  rcases hc with ⟨f, h, htarget, hhearth, ⟨hk, rfl⟩ | ⟨hk, rfl⟩⟩ | ⟨f, htarget, hhearth, ⟨hk, rfl⟩ | ⟨hk, rfl⟩⟩ |
    ⟨f, hf, hexp, hk, rfl⟩ | ⟨hk, rfl⟩ | ⟨hk, rfl⟩ | ⟨hk, rfl⟩
  · exact ⟨_, exec_memoryBar0 h true _ s, by rw [hread hk, takeMem_bar0 htarget hhearth]⟩
  · exact ⟨_, exec_memoryBar0 h false _ s, by rw [hwrite hk, takeMem_bar0 htarget hhearth]⟩
  · exact ⟨_, exec_memoryBar2 true _ s, by rw [hread hk, takeMem_bar2 htarget hhearth]⟩
  · exact ⟨_, exec_memoryBar2 false _ s, by rw [hwrite hk, takeMem_bar2 htarget hhearth]⟩
  · have hreaches : s.cfgReaches f = true := Bool.and_eq_true_iff.mpr ⟨hup, hf ▸ hexp⟩
    have hfn : Fin.ofNat 65 p.fn = f := by rw [← hf]; exact Fin.ext (Nat.mod_eq_of_lt f.isLt)
    exact ⟨_, exec_configWrite hreaches _ _ _ _ _, by rw [hcfg hk hexp, hfn]; rfl⟩
  · exact ⟨_, exec_completionReceived hup, by rw [hcplD hk]; rfl⟩
  · exact ⟨_, exec_completionReceived hup, by rw [hcpl hk]; rfl⟩
  · exact ⟨_, exec_pmeTurnOff hup, by rw [hpme hk]⟩

/-! ### A configuration read -/

/-- What reading a register leaves: TLPs, requests, functions and credits. -/
def State.readKeeps (s : State) : List TxTlp × List HostReq × Vector FnCfg 65 × Fc := (s.txq, s.reqs, s.fns, s.fc)

theorem clearSlotEvent_keeps (s : State) (h : Fin 64) : (s.clearSlotEvent h).readKeeps = s.readKeeps := by
  unfold State.clearSlotEvent
  split
  · rfl
  · dsimp only
    split <;> rfl

theorem afterRead_keeps (s : State) (f : FnId) (off : Nat) (v : Dword) : (s.afterRead f off v).readKeeps = s.readKeeps := by
  unfold State.afterRead State.clearSeen
  split
  · refine forList_eq State.readKeeps _ _ (fun i t => ?_) s
    dsimp only
    split
    · exact clearSlotEvent_keeps t _
    · rfl
  · rfl

theorem takeCfgRead_effect (s : State) (f : FnId) (off tag : Nat) : ∃ u, (s.takeCfgRead f off tag).txq = s.txq ++ [u] ∧ u.kind = .cplD ∧
    u.fn = f ∧ u.tag = tag ∧ u.status = .sc ∧ u.len = 4 ∧ (s.takeCfgRead f off tag).fns = s.fns ∧
    (s.takeCfgRead f off tag).reqs = s.reqs ∧ (s.takeCfgRead f off tag).fc.taken = s.fc.taken := by
  have hkeeps : (s.takeCfgRead f off tag).readKeeps = _ := afterRead_keeps
    ((s.passNp 0).cfgDone f tag (some ((s.passNp 0).cfgRead f (off / 4 * 4)))) f (off / 4 * 4) ((s.passNp 0).cfgRead f (off / 4 * 4))
  simp only [State.readKeeps, Prod.mk.injEq] at hkeeps
  obtain ⟨htxq, hreqs, hfns, hfc⟩ := hkeeps
  refine ⟨_, htxq, rfl, rfl, rfl, rfl, rfl, hfns, hreqs, ?_⟩
  rw [hfc]
  exact (Fc.giveBack_take s.fc false 0).1

end Handled

/-! ### The clauses of the statement -/

section Clauses

variable {s : State} {p : Tlp}

theorem unsupported_effect (hup : s.hostLinkUp = true) : (s.unsupported p).standing = s.standing ∧ (s.unsupported p).reqs = s.reqs ∧
    (s.unsupported p).fc.taken = s.fc.taken ∧ (s.unsupported p).hearths = s.hearths ∧
    (∀ f, f ≠ s.addressed p → (s.unsupported p).fn f = s.fn f) ∧
    uncRecorded (s.fn (s.addressed p)) ((s.unsupported p).fn (s.addressed p)) 20 (TlpKind.posted p.kind = some false) ∧
    (TlpKind.posted p.kind ≠ some false → (s.unsupported p).txq = s.txq) ∧
    (TlpKind.posted p.kind = some false → ((s.unsupported p).fc.alloc.nph = s.fc.alloc.nph + 1) ∧
      ∃ u, (s.unsupported p).txq = s.txq ++ [u] ∧ u.kind = .cpl ∧ u.fn = s.addressed p ∧ u.tag = p.tag ∧ u.status = .ur) := by
  have hstand := standing_unsupported s p
  by_cases hk : TlpKind.posted p.kind = some false
  · obtain ⟨-, htxq, hreqs, htaken, hhearths, hrec, hothers, hnph⟩ := errored_effect (p := p) hup .ur true
    rw [unsupported_nonPosted hk] at hstand ⊢
    refine ⟨hstand, hreqs, htaken, hhearths, hothers, by rw [decide_eq_true hk]; exact hrec, fun h => absurd hk h,
      fun _ => ⟨hnph hk, _, congrArg (· ++ _) htxq, rfl, rfl, rfl, rfl⟩⟩
  · obtain ⟨-, htxq, hreqs, htaken, hhearths, hrec, hothers, -⟩ := errored_effect (p := p) hup .ur false
    rw [unsupported_posted hk] at hstand ⊢
    exact ⟨hstand, hreqs, htaken, hhearths, hothers, by rw [decide_eq_false hk]; exact hrec, fun _ => htxq, fun h => absurd h hk⟩

theorem passPosted_effect (s : State) (n : Nat) : (s.passPosted n).fc.taken = s.fc.taken ∧
    (s.passPosted n).fc.alloc.ph = s.fc.alloc.ph + 1 ∧ (s.passPosted n).fc.alloc.pd = s.fc.alloc.pd + dataUnits n ∧
    (s.passPosted n).txq = s.txq ∧ (s.passPosted n).reqs = s.reqs ∧ (s.passPosted n).fns = s.fns ∧
    (s.passPosted n).items = s.items ∧ (s.passPosted n).standing = s.standing := by
  rw [passPosted_eq]
  exact ⟨rfl, rfl, rfl, rfl, rfl, rfl, rfl, rfl⟩

theorem overflow_effect (s : State) : (s.linkUnc .rxOverflow).standing = s.standing ∧ (s.linkUnc .rxOverflow).txq = s.txq ∧
    (s.linkUnc .rxOverflow).reqs = s.reqs ∧ (s.linkUnc .rxOverflow).fc = s.fc ∧ (s.linkUnc .rxOverflow).hearths = s.hearths := by
  have huntouched := untouched_linkUnc s .rxOverflow
  exact ⟨standing_linkUnc s .rxOverflow, huntouched.txq, huntouched.reqs,
    ((beside_eq_iff _ _).mp (beside_linkUnc s .rxOverflow)).1, huntouched.hearths⟩

end Clauses

/-- R151, R156: a good TLP in sequence is handled by its type. -/
theorem exec_tlpReceived_good {seq : BitVec 12} {ok : Bool} {s : State} {p : Tlp} (hactive : s.linkActive = true) (hok : ok = true)
    (hseq : seq = s.dll.rxSeq) (hfits : s.overflows p = false) (hform : p.malformed = false)
    (hmps : p.data.length ≤ (s.fn (s.addressed p)).mps) :
    exec (.tlpReceived seq ok p) s = .next (s.rxAccepted.takeTlp p).woken := by
  rw [exec_tlpReceived_next hactive hok hseq, acceptTlp_good (s := s.rxAccepted) hfits hform hmps]

/-- Settles O29: the sequence number decides first, then the errors, then the type. -/
theorem tlpArrives : Obligations.TlpArrives := by
  unfold Obligations.TlpArrives
  rintro seq ok p s v hactive rfl
  have hup : s.rxAccepted.hostLinkUp = true := linkActive_up hactive
  refine ⟨fun hbad => ⟨_, exec_tlpReceived_bad hactive hbad, ?_⟩, fun hok hne hold => exec_tlpReceived_duplicate hactive hok hne hold,
    fun hok hseq hover => ?_, fun hok hseq hfits herr => ?_, fun hok hseq hfits hform hmps => ⟨fun hrefused => ?_, fun c hprefix hc => ?_,
      fun f hprefix hk hf hexp => ?_⟩, fun hok hseq hfits hform hprefix hmps => ⟨fun hk => ?_, fun hk => ?_, fun hk => ?_⟩⟩
  · exact ⟨standing_linkCor s.outOfOrder .badTlp, (untouched_linkCor s.outOfOrder .badTlp).txq,
      (untouched_linkCor s.outOfOrder .badTlp).reqs, ((beside_eq_iff _ _).mp (beside_linkCor s.outOfOrder .badTlp)).1,
      linkCor_fn s.outOfOrder .badTlp⟩
  · have hexec := exec_tlpReceived_next (p := p) hactive hok hseq
    rw [acceptTlp_overflow (s := s.rxAccepted) hover] at hexec
    obtain ⟨hstand, htxq, hreqs, hfc, hhearths⟩ := overflow_effect s.rxAccepted
    exact ⟨_, hexec, hstand, htxq, hreqs, hfc, hhearths, overflow_fn (s := s.rxAccepted), linkUnc_uncSta s.rxAccepted .rxOverflow⟩
  · have hexec := exec_tlpReceived_next (p := p) hactive hok hseq
    rw [acceptTlp_malformed (s := s.rxAccepted) hfits herr] at hexec
    obtain ⟨hstand, htxq, hreqs, htaken, hhearths, hrec, hothers, -⟩ := errored_effect (p := p) hup .malformed false
    exact ⟨_, hexec, hstand, htxq, hreqs, htaken, hhearths, hrec, hothers⟩
  · have hexec := exec_tlpReceived_good hactive hok hseq hfits hform hmps
    rw [takeTlp_unsupported (s := s.rxAccepted) hrefused] at hexec
    obtain ⟨hstand, hreqs, htaken, hhearths, hothers, hrec, htxq, hcpl⟩ := unsupported_effect (p := p) hup
    exact ⟨_, hexec, hstand, hreqs, htaken, hhearths, hothers, hrec, htxq, fun hk => (hcpl hk).2⟩
  · have hexec := exec_tlpReceived_good hactive hok hseq hfits hform hmps
    obtain ⟨w, hw, htaken⟩ := takeTlp_command hup hprefix (c := c) hc
    exact ⟨w, hw, hexec.trans (congrArg Host.Outcome.next htaken)⟩
  · have hexec := exec_tlpReceived_good hactive hok hseq hfits hform hmps
    obtain ⟨-, -, hread, -⟩ := takeTlp_byType (s := s.rxAccepted) hprefix
    have hfn : Fin.ofNat 65 p.fn = f := by rw [← hf]; exact Fin.ext (Nat.mod_eq_of_lt f.isLt)
    rw [hread hk hexp, hfn] at hexec
    obtain ⟨u, htxq, hkind, hufn, htag, hstatus, hlen, hfns, hreqs, htaken⟩ := takeCfgRead_effect s.rxAccepted f (p.addr % 4096) p.tag
    exact ⟨_, u, [], hexec, htxq, hkind, hufn, htag, hstatus, hlen, hfns, hreqs, htaken, standing_takeCfgRead s.rxAccepted f _ _⟩
  · have hexec := exec_tlpReceived_good hactive hok hseq hfits hform hmps
    obtain ⟨-, -, -, -, -, -, -, hdropped⟩ := takeTlp_byType (s := s.rxAccepted) hprefix
    rw [hdropped (.inl hk)] at hexec
    obtain ⟨htaken, hph, -, hrest⟩ := passPosted_effect s.rxAccepted p.data.length
    exact ⟨_, hexec, htaken, hph, hrest⟩
  · have hexec := exec_tlpReceived_good hactive hok hseq hfits hform hmps
    obtain ⟨-, -, -, -, -, -, -, hdropped⟩ := takeTlp_byType (s := s.rxAccepted) hprefix
    rw [hdropped (.inr hk)] at hexec
    exact ⟨_, hexec, passPosted_effect s.rxAccepted p.data.length⟩
  · have hexec := exec_tlpReceived_good hactive hok hseq hfits hform hmps
    obtain ⟨hforeign, hposted, hzero⟩ := takeTlp_foreign (s := s.rxAccepted) hprefix hk
    rw [hforeign] at hexec
    obtain ⟨hstand, hreqs, htaken, -, hothers, hrec, -, hcpl⟩ := unsupported_effect (p := p) hup
    rw [hzero] at hothers hrec hcpl
    rw [decide_eq_true hposted] at hrec
    obtain ⟨hnph, u, htxq, hkind, hufn, htag, hstatus⟩ := hcpl hposted
    exact ⟨_, u, hexec, htxq, hkind, hufn, htag, hstatus, hreqs, htaken, hnph, hrec, hothers, hstand⟩

end Sys2Proof.Machine
end
